-- ==== Sys2Proof/Word.lean ====
section
/-!
DEFINITION. The word types: registers are 32 bits wide (R6), memory is addressed in bytes, trellis lanes carry 16 bits
(R147). `Tbl` is sparse data by key: a list of (key, value) pairs in one canonical form (Machine/Table.lean).
-/
namespace Sys2Proof

/-- One register word (R6). -/
abbrev Word := BitVec 32

/-- One byte of a memory. -/
abbrev Byte := BitVec 8

/-- One lane of a token (R147). -/
abbrev Lane16 := BitVec 16

/-- Sparse data by key, keys strictly rising, no entry equal to what an unlisted key reads as. -/
abbrev Tbl (α : Type) := List (Nat × α)

end Sys2Proof
end

