-- ==== Sys2Proof/Syntax.lean ====
section
/-!
DEFINITION. The commands the block takes: one constructor per row of spec/opcode_table.json, with the row's operands.
The table gives no row any bits, so a command is not spelled by a word (Decode.lean). Commands of a host queue carry
the queue; their parameters lie in the submission entry that COMMAND_FETCH read (R413). An event of the outside world
carries what it brings (a block, a reading, a response); that its moment has come is the sender's word (log 7).
-/
namespace Sys2Proof

/-- The access paths of R10. -/
inductive Path where
  | pcie | smb | fw
  deriving DecidableEq, Repr

/-- The two BARs that take 32-bit accesses (R409). -/
inductive Bar where
  | bar0 | bar2
  deriving DecidableEq, Repr

/-- Where a warm reset comes from (R519). -/
inductive WarmCause where
  | bar0 | smbus | firmware | watchdog
  deriving DecidableEq, Repr

/-- A 32-bit access through the ATLAS window (R427): a read, with what ECC finds in the word if it stands in the cold frame (R383: nothing,
a corrected error, a double-bit error), or a write of a value. -/
inductive AtlasOp where
  | read (found : Option Bool)
  | write (value : Word)
  deriving DecidableEq, Repr

/-- A row of a trellis unit. `back`: what the row reads back from the spill area first (R183): the queue, the single-bit errors corrected,
and whether a double-bit error is met (log 145). -/
structure UnitStep where
  unit : Fin 2048
  back : Option (Fin 6 × Fin 18 × Bool) := none
  deriving DecidableEq, Repr

/-- What the far end of a port sends in PARAM (R263): its mode, and its lane map, two bits a lane. -/
structure PortParams where
  mode : Fin 2
  map : Fin 256
  deriving DecidableEq, Repr

/-- A fetch from a queue; `internal`: the code of the internal inconsistency in firmware that this command will find, if it finds one
(R442, log 157). -/
structure QueueFetch where
  queue : Fin 16
  internal : Option Word := none
  deriving DecidableEq, Repr

/-- A check of a rail with the voltage found, in units of 0.1 mV (R534, R536). -/
structure RailCheck where
  rail : Fin 16
  reading : BitVec 16
  deriving DecidableEq, Repr

/-- The commands: the rows of the table, in its order. -/
inductive Instr where
  /-- REGISTER_WRITE (R7). -/
  | registerWrite (path : Path) (off : Nat) (value : Word)
  /-- WIDE_LOW_WORD_READ (R9). -/
  | wideLowWordRead (path : Path) (off : Nat)
  /-- BAD_ACCESS (R409). -/
  | badAccess (bar : Bar) (off bytes : Nat) (write : Bool)
  /-- ATLAS_ACCESS (R427). -/
  | atlasAccess (off : Nat) (op : AtlasOp)
  /-- BAR4_WRITE (R382). -/
  | bar4Write (off : Nat) (data : List Byte)
  /-- PLL_LOCK (R31). -/
  | pllLock
  /-- MCLK_LOSS (R32). -/
  | mclkLoss
  /-- MCLK_FREQ_MEASURE (R32). -/
  | mclkFreqMeasure (khz : BitVec 16)
  /-- CROSSING_START (R93). -/
  | crossingStart
  /-- ORBIT_BOUNDARY (R34). -/
  | orbitBoundary
  /-- ORBIT_MARKER_SEEN (R38). -/
  | orbitMarkerSeen
  /-- ORBIT_MARKER_MISSING (R41). -/
  | orbitMarkerMissing
  /-- TIM_ORBIT_LEN_WRITE (R35). -/
  | timOrbitLenWrite (value : Word)
  /-- PPS_PULSE (R44). -/
  | ppsPulse (refclk width : Nat)
  /-- PPS_MISSING (R47). -/
  | ppsMissing
  /-- WALL_SECOND_CARRY (R48). -/
  | wallSecondCarry
  /-- TIM_WALL_SET_WRITE (R49). -/
  | timWallSetWrite (path : Path) (hi : Word)
  /-- HIST_CLEAR_TAGS (R66). -/
  | histClearTags (tags : BitVec 8)
  /-- GOV_MINSLACK_RESET (R66). -/
  | govMinslackReset
  /-- TIME_COUNTERS_CLEAR (R66). -/
  | timeCountersClear
  /-- TIME_ALIGN (R50). -/
  | timeAlign (q : Fin 16)
  /-- TIME_ALIGN_MARK (R50). -/
  | timeAlignMark
  /-- TIME_ALIGN_TIMEOUT (R50). -/
  | timeAlignTimeout
  /-- SCHEDULE_LAUNCH (R52). -/
  | scheduleLaunch (q : Fin 16)
  /-- LAUNCH (R52). -/
  | launch
  /-- WINDSOCK_REFRESH (R60). -/
  | windsockRefresh (die : Fin 16) (k : Fin 8) (delay : BitVec 12) (valid : Bool)
  /-- GOVERNOR_PERIOD (R62). -/
  | governorPeriod (p : Fin 8)
  /-- AVS_WRITE_DONE (R537). -/
  | avsWriteDone (p : Fin 8) (good : Bool)
  /-- AVS_READ_DUE (R537). -/
  | avsReadDue (p : Fin 8)
  /-- AVS_READ_DONE (R537). -/
  | avsReadDone (p : Fin 8) (good : Bool) (mv current : BitVec 16)
  /-- RESULT_ARRIVAL (R234). -/
  | resultArrival (die : Fin 2)
  /-- DEADLINE_RELEASE (R56). -/
  | deadlineRelease
  /-- LANE_BIT_LOCK (R83). -/
  | laneBitLock (lane : Fin 96)
  /-- LANE_SIGNAL_LOSS (R83). -/
  | laneSignalLoss (lane : Fin 96)
  /-- LANE_66B_BLOCK (R84). -/
  | lane66bBlock (lane : Fin 96) (header : BitVec 2) (payload : BitVec 64)
  /-- LANE_66B_FRAME_HUNT (R85). -/
  | lane66bFrameHunt (lane : Fin 96)
  /-- RAW_MARKER_MATCH (R86). -/
  | rawMarkerMatch (lane : Fin 96) (phase : Fin 768)
  /-- RAW_TRIAL_FRAME (R86). -/
  | rawTrialFrame (lane : Fin 96) (phase : Fin 768) (words : List Word)
  /-- LANE_FRAME (R88). -/
  | laneFrame (lane : Fin 96) (words : List Word)
  /-- INL_CNT_CLEAR (R97). -/
  | inlCntClear (die : Fin 2) (value : Word)
  /-- INL_LANE_CFG_WRITE (R91). -/
  | inlLaneCfgWrite (lane : Fin 96) (value : Word)
  /-- INL_LANE_ALIGN_WRITE (R90). -/
  | inlLaneAlignWrite (lane : Fin 96) (value : Word)
  /-- INL_XOFFSET_WRITE (R92). -/
  | inlXoffsetWrite (die : Fin 2) (value : Word)
  /-- INL_LANE_MARKER_WRITE (R82). -/
  | inlLaneMarkerWrite (lane : Fin 96) (value : Word)
  /-- RDL_CH_FIELD_WRITE (R107). -/
  | rdlChFieldWrite (ch : Fin 6144) (value : Word)
  /-- RDL_CH_SCALE_WRITE (R109). -/
  | rdlChScaleWrite (ch : Fin 6144) (set : Fin 2) (value : Word)
  /-- RDL_CH_LIMIT_WRITE (R109). -/
  | rdlChLimitWrite (ch : Fin 6144) (value : Word)
  /-- RIDDLE_EMIT (R112). -/
  | riddleEmit
  /-- SET_SCALES (R115). -/
  | setScales (q : Fin 16)
  /-- SET_SCALES_APPLY (R115). -/
  | setScalesApply
  /-- READ_QSTATS (R119). -/
  | readQstats (q : Fin 16)
  /-- READ_QSTATS_SNAPSHOT (R119). -/
  | readQstatsSnapshot
  /-- DATA_TOKEN (R151). -/
  | dataToken (u : Fin 2048) (q : Fin 6)
  /-- EVENT_START (R156). -/
  | eventStart (x : UnitStep)
  /-- EVENT_END (R156). -/
  | eventEnd (x : UnitStep)
  /-- CONTEXT_NEXT (R217). -/
  | contextNext (x : UnitStep)
  /-- FLUSH (R148). -/
  | flush (u : Fin 2048) (q : Fin 6)
  /-- ERROR_TOKEN (R188). -/
  | errorToken (x : UnitStep)
  /-- STAGE_FIRE (R138). -/
  | stageFire (x : UnitStep) (parity : Option (Fin 1024))
  /-- COUNTER_WRAP (R155). -/
  | counterWrap (x : UnitStep) (parity : Option (Fin 1024))
  /-- BRIDGE_TRANSFER (R136). -/
  | bridgeTransfer (die : Fin 16) (u : Fin 2048) (q : Fin 6) (ok : Bool)
  /-- GENERATOR_TRIGGER (R143). -/
  | generatorTrigger (u : Fin 2048) (g : Fin 2)
  /-- GENERATOR_ROW (R143). -/
  | generatorRow (x : UnitStep) (g : Fin 2) (corrected : Fin 17) (bad : Bool)
  /-- TRL_CNT_CLEAR (R142). -/
  | trlCntClear (die : Fin 16) (value : Word)
  /-- WAIT_TIMER_EXPIRY (R177). -/
  | waitTimerExpiry (u : Fin 2048) (value : Nat)
  /-- STALL_SPILL (R181). -/
  | stallSpill (die : Fin 16)
  /-- TRL_FSTAT_CLEAR (R178). -/
  | trlFstatClear (die : Fin 16) (value : Word)
  /-- LOAD_IMAGE (R211). -/
  | loadImage (q : Fin 16)
  /-- LOAD_IMAGE_COMMIT (R212). -/
  | loadImageCommit
  /-- FILL_TRAY (R214). -/
  | fillTray (q : Fin 16)
  /-- FILL_TRAY_DONE (R214). -/
  | fillTrayDone
  /-- LOAD_FALLOW (R219). -/
  | loadFallow (q : Fin 16)
  /-- LOAD_FALLOW_DONE (R219). -/
  | loadFallowDone
  /-- SELECT_MENU (R220). -/
  | selectMenu (q : Fin 16)
  /-- MENU_SWITCH (R221). -/
  | menuSwitch
  /-- VETO_LEVEL_CHANGE (R237). -/
  | vetoLevelChange (low : Bool) (samples : Nat)
  /-- VETO_WARN (R240). -/
  | vetoWarn
  /-- DEC_SYNC_CFG_WRITE (R242). -/
  | decSyncCfgWrite (value : Word)
  /-- SYNC_RELEASE (R242). -/
  | syncRelease
  /-- SYNC_RISE (R242). -/
  | syncRise
  /-- SYNC_CONFIRM (R242). -/
  | syncConfirm
  /-- SYNC_CANCEL (R242). -/
  | syncCancel
  /-- SYNC_LAUNCH (R242). -/
  | syncLaunch
  /-- SYNC_STUCK (R243). -/
  | syncStuck
  /-- FLIT_SEND (R256). -/
  | flitSend (p : Fin 6)
  /-- FLIT_RECEIVED (R258). -/
  | flitReceived (p : Fin 6) (bytes : List Byte) (credits : List (Nat × Nat))
  /-- ACK_DUE (R260). -/
  | ackDue (p : Fin 6)
  /-- REPLAY_TIMEOUT (R261). -/
  | replayTimeout (p : Fin 6)
  /-- TTH_PORT_CFG_WRITE (R263). -/
  | tthPortCfgWrite (p : Fin 6) (value : Word)
  /-- PORT_RETRAIN (R263). -/
  | portRetrain (p : Fin 6)
  /-- PORT_LANES_LOCKED (R263). -/
  | portLanesLocked (p : Fin 6)
  /-- PORT_TRAIN_TIMEOUT (R263). -/
  | portTrainTimeout (p : Fin 6)
  /-- PORT_ALIGNED (R263). -/
  | portAligned (p : Fin 6)
  /-- PORT_PARAM (R263). -/
  | portParam (p : Fin 6) (sent : PortParams)
  /-- PORT_MEASURE_DONE (R263). -/
  | portMeasureDone (p : Fin 6) (trip : Fin 8192) (far : Fin 512)
  /-- PORT_LANE_LOSS (R263). -/
  | portLaneLoss (p : Fin 6) (lane : Fin 4)
  /-- REMOTE_WRITE (R265). -/
  | remoteWrite (ecc : Bool)
  /-- READ_REQ (R268). -/
  | readReq (ecc : Option (Fin 66))
  /-- READ_RESP (R268). -/
  | readResp
  /-- ERROR_REPORT (R266). -/
  | errorReport
  /-- MESSAGE_FORWARD (R264). -/
  | messageForward
  /-- READ_TIMEOUT (R268). -/
  | readTimeout (tag : Fin 4096)
  /-- COL_SELF_WRITE (R275). -/
  | colSelfWrite (value : Word)
  /-- COL_TORUS_WRITE (R276). -/
  | colTorusWrite (value : Word)
  /-- SURVEY (R282). -/
  | survey (q : Fin 16)
  /-- SURVEY_HOLDOFF_END (R283). -/
  | surveyHoldoffEnd
  /-- SURVEY_SETTLE_END (R278). -/
  | surveySettleEnd
  /-- IDENTITY_REQUEST (R279). -/
  | identityRequest (source : Fin 512) (change : Bool)
  /-- IDENTITY_REPLY (R279). -/
  | identityReply (source : Fin 512) (confirm : Bool) (words : List Word)
  /-- SURVEY_WALK_END (R278). -/
  | surveyWalkEnd
  /-- SURVEY_CONFIRM_END (R280). -/
  | surveyConfirmEnd
  /-- FORM_GROUP (R290). -/
  | formGroup (q : Fin 16)
  /-- ROLL_CALL_RECORD (R291). -/
  | rollCallRecord (source : Fin 512) (g : Fin 64) (image fw stamp entry dmap epoch path : Nat)
  /-- ROLL_CALL_TIMEOUT (R293). -/
  | rollCallTimeout (g : Fin 64)
  /-- ROLL_CALL_OUTCOME (R293). -/
  | rollCallOutcome (g : Fin 64) (kind : Fin 3) (field : Fin 6) (member : Fin 512) (epoch : BitVec 16)
  /-- FORM_GROUP_TIMEOUT (R293). -/
  | formGroupTimeout (g : Fin 64)
  /-- RETIRE_GROUP (R295). -/
  | retireGroup (q : Fin 16)
  /-- FEED_TOKEN (R305). -/
  | feedToken (die : Fin 2) (n : Fin 8)
  /-- CHUNK_SEND (R314). -/
  | chunkSend
  /-- CHUNK_RECEIVED (R309). -/
  | chunkReceived
  /-- ROW_LANDING (R309). -/
  | rowLanding (z : Fin 64)
  /-- CHUNK_RETRY (R338). -/
  | chunkRetry (source : Fin 512) (group : Fin 64) (ordinal : Fin 65536) (row : Fin 65536)
  /-- COLLECTIVE_DEADLINE (R330). -/
  | collectiveDeadline
  /-- COLLECTIVE_COMMIT (R334). -/
  | collectiveCommit
  /-- TRANSIT_IDLE (R340). -/
  | transitIdle (v : Fin 16)
  /-- GRAFT_GROUP (R342). -/
  | graftGroup (q : Fin 16)
  /-- GRAFT_APPLY (R344). -/
  | graftApply
  /-- TAP_DIGEST_PIECE (R358). -/
  | tapDigestPiece
  /-- PRUNE_UNIT (R370). -/
  | pruneUnit (q : Fin 16)
  /-- PRUNE_PREPARED (R370). -/
  | prunePrepared
  /-- PRUNE_APPLY (R371). -/
  | pruneApply
  /-- SIDESTEP_SWITCH (R371). -/
  | sidestepSwitch (die : Fin 16)
  /-- RESTORE_UNIT (R449). -/
  | restoreUnit (q : Fin 16)
  /-- RESTORE_APPLY (R373). -/
  | restoreApply
  /-- CAPTURE_ARM (R384). -/
  | captureArm (q : Fin 16)
  /-- CAPTURE_FREEZE_REQUEST (R450). -/
  | captureFreezeRequest (q : Fin 16)
  /-- CAPTURE_DISARM (R450). -/
  | captureDisarm (q : Fin 16)
  /-- CAPTURE_FREEZE (R388). -/
  | captureFreeze
  /-- CAPTURE_READ (R389). -/
  | captureRead (q : Fin 16) (corrected : Nat) (bad : List Nat)
  /-- START_REPLAY (R391). -/
  | startReplay (q : Fin 16)
  /-- REPLAY_PRESENT (R393). -/
  | replayPresent (corrected : Fin 1169) (bad : Bool)
  /-- REPLAY_STALL_WARN (R395). -/
  | replayStallWarn
  /-- SHADOW_CONFIG (R396). -/
  | shadowConfig (q : Fin 16)
  /-- SHADOW_MIRROR_DONE (R397). -/
  | shadowMirrorDone (tag : Fin 8)
  /-- SHADOW_RUN (R399). -/
  | shadowRun
  /-- SHADOW_COMPARE (R399). -/
  | shadowCompare
  /-- SQ_DOORBELL (R415). -/
  | sqDoorbell (q : Fin 16) (value : Word)
  /-- CQ_DOORBELL (R415). -/
  | cqDoorbell (q : Fin 16) (value : Word)
  /-- COMMAND_FETCH (R416). -/
  | commandFetch (x : QueueFetch)
  /-- QP_ENABLE (R412). -/
  | qpEnable (q : Fin 16) (value : Word)
  /-- QP_DISABLE (R424). -/
  | qpDisable (q : Fin 16) (value : Word)
  /-- QP_CANCEL (R423). -/
  | qpCancel (q : Fin 16) (value : Word)
  /-- IDENTIFY (R441). -/
  | identify (q : Fin 16)
  /-- READ_STATE (R443). -/
  | readState (q : Fin 16)
  /-- WRITE_CONTROL (R444). -/
  | writeControl (q : Fin 16)
  /-- WRITE_CONTROL_APPLY (R444). -/
  | writeControlApply
  /-- ARM (R445). -/
  | arm (q : Fin 16)
  /-- START_LIVE (R446). -/
  | startLive (q : Fin 16)
  /-- LIVE_START (R446). -/
  | liveStart
  /-- DRAIN (R447). -/
  | drain (q : Fin 16)
  /-- DRAIN_APPLY (R27). -/
  | drainApply
  /-- STORE (R452). -/
  | store (q : Fin 16)
  /-- ERASE (R452). -/
  | erase (q : Fin 16)
  /-- FLASH_OP_DONE (R452). -/
  | flashOpDone (faults : List (Nat × Byte))
  /-- MEASURE_REPORT (R453). -/
  | measureReport (q : Fin 16)
  /-- XLAT_INVALIDATE (R454). -/
  | xlatInvalidate (q : Fin 16)
  /-- XLAT_INVALIDATE_DONE (R454). -/
  | xlatInvalidateDone (q : Fin 16)
  /-- MODULE_XFER (R455). -/
  | moduleXfer (q : Fin 16)
  /-- DMA_RESUME (R477). -/
  | dmaResume (q : Fin 16)
  /-- DMA_CANCEL (R478). -/
  | dmaCancel (q : Fin 16)
  /-- DMA_CHUNK (R468). -/
  | dmaChunk (e : Fin 8)
  /-- INT_PEND_SET (R496). -/
  | intPendSet (word : Fin 8) (value : Word)
  /-- INT_PEND_CLEAR (R496). -/
  | intPendClear (word : Fin 8) (value : Word)
  /-- INT_SRC_CFG_WRITE (R494). -/
  | intSrcCfgWrite (source : Fin 256) (value : Word)
  /-- INT_TGT_VEC_WRITE (R498). -/
  | intTgtVecWrite (target : Fin 4) (value : Word)
  /-- INT_TGT_THRESH_WRITE (R507). -/
  | intTgtThreshWrite (target : Fin 4) (value : Word)
  /-- INT_CLAIM (R500). -/
  | intClaim (path : Path) (target : Fin 4)
  /-- INT_EOI (R501). -/
  | intEoi (target : Fin 4) (value : Word)
  /-- INT_RATE_EXPIRY (R495). -/
  | intRateExpiry (source : Fin 256)
  /-- POWER_ON (R509). -/
  | powerOn
  /-- COLD_RESET (R519). -/
  | coldReset
  /-- WARM_RESET (R519). -/
  | warmReset (cause : WarmCause) (value : Word)
  /-- PCIE_RESET (R523). -/
  | pcieReset
  /-- DIE_RESET (R522). -/
  | dieReset (value : Word)
  /-- DIE_RESET_DONE (R522). -/
  | dieResetDone (die : Fin 16)
  /-- FIRMWARE_START (R514). -/
  | firmwareStart
  /-- SAFE_ENTRY (R509). -/
  | safeEntry
  /-- WATCHDOG_EXPIRY (R524). -/
  | watchdogExpiry
  /-- PWR_DOM_CTRL_WRITE (R532). -/
  | pwrDomCtrlWrite (value : Word)
  /-- DOMAIN_SWITCH_DONE (R533). -/
  | domainSwitchDone (dom : Fin 24)
  /-- SUPPLY_OUT_OF_WINDOW (R536). -/
  | supplyOutOfWindow (check : RailCheck)
  /-- PWR_FAIL (R543). -/
  | pwrFail
  /-- PWR_FAIL_CLEAR (R543). -/
  | pwrFailClear
  /-- THERMAL_REFRESH (R545). -/
  | thermalRefresh (readings : List (Option (BitVec 12)))
  /-- SMB_SET_WINDOW (R553). -/
  | smbSetWindow (offset : Word) (pecByte : Option Byte)
  /-- SMB_WINDOW_READ (R553). -/
  | smbWindowRead (pecClocked : Bool)
  /-- SMB_WINDOW_WRITE (R554). -/
  | smbWindowWrite (value : Word) (pecByte : Option Byte)
  /-- SMB_WINDOW_READ_NEXT (R553). -/
  | smbWindowReadNext (pecClocked : Bool)
  /-- SMB_WINDOW_WRITE_NEXT (R553). -/
  | smbWindowWriteNext (value : Word) (pecByte : Option Byte)
  /-- SMB_STATUS_READ (R553). -/
  | smbStatusRead (pecClocked : Bool)
  /-- SMB_TIMEOUT (R556). -/
  | smbTimeout
  /-- MCTP_MESSAGE (R557). -/
  | mctpMessage (src : Fin 128) (whole : Bool) (bytes : List Byte)
  /-- DOE_OBJECT (R564). -/
  | doeObject (bytes : List Byte)
  /-- MGT_MOD_CFG_WRITE (R561). -/
  | mgtModCfgWrite (value : Word)
  /-- MOD_CLEAR_REQUEST (R561). -/
  | modClearRequest
  /-- MOD_CONTROLLER_RESET (R561). -/
  | modControllerReset
  /-- MOD_RESET_ASSERT (R563). -/
  | modResetAssert (assert : Bool)
  /-- MOD_BUS_FREE (R559). -/
  | modBusFree
  /-- MOD_ARB_LOST (R560). -/
  | modArbLost
  /-- MOD_BUS_CLEAR (R561). -/
  | modBusClear (high : Bool) (fails : Fin 4)
  /-- MOD_RESET_PULSE_END (R561). -/
  | modResetPulseEnd
  /-- MOD_SCL_TIMEOUT (R562). -/
  | modSclTimeout (written : Fin 33) (data : List Byte)
  /-- MOD_TRANSACTION_DONE (R455). -/
  | modTransactionDone (written : Fin 33) (data : List Byte) (nak : Bool)
  /-- PWR_FAIL_GLITCH (R543). -/
  | pwrFailGlitch
  /-- SUPPLY_IN_WINDOW (R536). -/
  | supplyInWindow (check : RailCheck)
  /-- MSIX_UNMASK (R498). -/
  | msixUnmask (vector : Option (Fin 64))
  /-- SMB_BUS_FREE (R557). -/
  | smbBusFree
  /-- SMB_ARB_LOST (R557). -/
  | smbArbLost
  /-- TAG_HOLD_EXPIRY (R482). -/
  | tagHoldExpiry (tag : Fin 4096)
  deriving DecidableEq, Repr

end Sys2Proof
end

