-- ==== Sys2Proof/WellFormed.lean ====
section
/-!
DEFINITION. Which operands a command can carry. Ranges that a type does not give are said here: the sizes of frames,
flits and readings, and the widths of the fields that a message brings. `exec` gives every command a meaning, one outside
these ranges too.
-/
namespace Sys2Proof

/-- The bytes of BAR0, and of BAR2 (R4, R427). -/
def barBytes : Nat := 2 ^ 25

/-- The bytes of the flash (R538). -/
def flashBytes : Nat := 2 ^ 25

/-- Every value lies below its bound. -/
def allBelow (l : List (Nat × Nat)) : Bool := l.all (fun p => decide (p.1 < p.2))

/-- The check of a command's operands. A command without an arm of its own carries its ranges in its types. -/
def Instr.wf (i : Instr) : Bool := match i with
  | .registerWrite _ off _ => off % 4 == 0 && decide (off < barBytes)
  | .wideLowWordRead _ off => off % 4 == 0 && decide (off < barBytes)
  | .badAccess _ off bytes _ => decide (0 < bytes) && decide (off < barBytes)
  | .atlasAccess off _ => off % 4 == 0 && decide (off < barBytes)
  | .bar4Write off data => !data.isEmpty && decide (off < 2 ^ 32)
  | .rawTrialFrame _ _ words => words.length == 24
  | .laneFrame _ words => words.length == 24 || words.isEmpty
  | .flitReceived _ bytes credits => bytes.length == 64 && credits.all (fun c => decide (c.1 < 16) && decide (0 < c.2))
  | .identityReply _ confirm words => words.length == if confirm then 1 else 6
  | .rollCallRecord _ _ image fw stamp entry dmap epoch path =>
    allBelow [(image, 2 ^ 32), (fw, 2 ^ 16), (stamp, 2 ^ 64), (entry, 2 ^ 32), (dmap, 2 ^ 32), (epoch, 2 ^ 16), (path, 2 ^ 16)]
  | .captureRead _ _ bad => decide bad.Nodup
  | .flashOpDone faults => faults.all (fun f => decide (f.1 < flashBytes))
  | .thermalRefresh readings => readings.length == 40
  | .modSclTimeout _ data => decide (data.length ≤ 32)
  | .modTransactionDone _ data _ => decide (data.length ≤ 32)
  | _ => true

/-- A command whose operands have the shape that the spec gives them. -/
abbrev Instr.WellFormed (i : Instr) : Prop := i.wf = true

end Sys2Proof
end

