-- ==== Sys2Proof/Decode.lean ====
section
/-!
DEFINITION. Decoding. The command table gives no row any bits: a command comes to the block as an access, a submission
entry or an event, and no word spells one.
-/
namespace Sys2Proof

/-- The command that a word spells by the table's bits: none, since no row has bits. -/
def decodeTableWord (_nbits _w : Nat) : Option Instr := none

end Sys2Proof
end

