-- ==== Sys2Proof/Machine/Crc.lean ====
section
/-!
DEFINITION. Checksums and digests: the CRC-32C of R79, the CRC-64 of R355, SHA-384 (R516; FIPS 180-4, PRESUMED, log 13)
and the PEC of SMBus (R555; the SMBus CRC-8, PRESUMED, log 13). Also the little-endian byte order of words (R6).
-/
namespace Sys2Proof.Machine

/-- The `n` low bytes of a number, low byte first (R6). -/
def leBytes (n v : Nat) : List Byte := (List.range n).map (fun i => BitVec.ofNat 8 (v >>> (8 * i)))

/-- The number that bytes spell, low byte first. -/
def leNat : List Byte → Nat
  | [] => 0
  | b :: bs => b.toNat + 256 * leNat bs

/-- The bytes of a list of words, each low byte first. -/
def wordBytes (ws : List Word) : List Byte := ws.flatMap (fun w => leBytes 4 w.toNat)

/-- The 32-bit words that bytes spell; a last group of fewer than 4 bytes is filled with zeros. -/
def bytesWords : List Byte → List Word
  | a :: b :: c :: d :: rest => BitVec.ofNat 32 (leNat [a, b, c, d]) :: bytesWords rest
  | [] => []
  | rest => [BitVec.ofNat 32 (leNat rest)]

/-- One bit of a reflected CRC with the reflected polynomial `poly`. -/
def crcBit (poly r : Nat) : Nat := if r % 2 = 1 then (r >>> 1) ^^^ poly else r >>> 1

/-- One byte of a reflected CRC. -/
def crcByte (poly r : Nat) (b : Byte) : Nat := Nat.repeat (crcBit poly) 8 (r ^^^ b.toNat)

/-- The CRC-32C register carried over bytes: polynomial 0x1EDC_6F41 reflected, that is 0x82F6_3B78 (R79). -/
def crc32cRun (r : Nat) (bs : List Byte) : Nat := bs.foldl (crcByte 0x82F63B78) r

/-- CRC-32C: initial value and final XOR 0xFFFF_FFFF (R79). -/
def crc32c (bs : List Byte) : Word := BitVec.ofNat 32 (crc32cRun 0xFFFFFFFF bs ^^^ 0xFFFFFFFF)

/-- One bit of the CRC-64 of R355: polynomial 0x42F0_E1EB_A9EA_3693, not reflected. -/
def crc64Bit (r : Nat) : Nat :=
  if 0x8000000000000000 ≤ r then ((r <<< 1) % 0x10000000000000000) ^^^ 0x42F0E1EBA9EA3693 else r <<< 1

/-- The CRC-64 register carried over bytes (R355). -/
def crc64Run (r : Nat) (bs : List Byte) : Nat :=
  bs.foldl (fun r b => Nat.repeat crc64Bit 8 (r ^^^ (b.toNat <<< 56))) r

/-- The CRC-64 of bytes: initial value and final XOR all ones (R355). -/
def crc64 (bs : List Byte) : BitVec 64 :=
  BitVec.ofNat 64 (crc64Run 0xFFFFFFFFFFFFFFFF bs ^^^ 0xFFFFFFFFFFFFFFFF)

/-- One bit of the PEC: x^8 + x^2 + x + 1, most significant bit first. -/
def pecBit (r : Nat) : Nat := if 128 ≤ r then ((r <<< 1) % 256) ^^^ 0x07 else r <<< 1

/-- The PEC of the bytes of an SMBus transaction. -/
def pec (bs : List Byte) : Byte :=
  BitVec.ofNat 8 (bs.foldl (fun r b => Nat.repeat pecBit 8 (r ^^^ b.toNat)) 0)

/-! SHA-384 -/

/-- The first 64 bits of the fractional parts of the cube roots of the first 80 primes (FIPS 180-4). -/
def sha512K : List (BitVec 64) := [
  0x428A2F98D728AE22, 0x7137449123EF65CD, 0xB5C0FBCFEC4D3B2F, 0xE9B5DBA58189DBBC,
  0x3956C25BF348B538, 0x59F111F1B605D019, 0x923F82A4AF194F9B, 0xAB1C5ED5DA6D8118,
  0xD807AA98A3030242, 0x12835B0145706FBE, 0x243185BE4EE4B28C, 0x550C7DC3D5FFB4E2,
  0x72BE5D74F27B896F, 0x80DEB1FE3B1696B1, 0x9BDC06A725C71235, 0xC19BF174CF692694,
  0xE49B69C19EF14AD2, 0xEFBE4786384F25E3, 0x0FC19DC68B8CD5B5, 0x240CA1CC77AC9C65,
  0x2DE92C6F592B0275, 0x4A7484AA6EA6E483, 0x5CB0A9DCBD41FBD4, 0x76F988DA831153B5,
  0x983E5152EE66DFAB, 0xA831C66D2DB43210, 0xB00327C898FB213F, 0xBF597FC7BEEF0EE4,
  0xC6E00BF33DA88FC2, 0xD5A79147930AA725, 0x06CA6351E003826F, 0x142929670A0E6E70,
  0x27B70A8546D22FFC, 0x2E1B21385C26C926, 0x4D2C6DFC5AC42AED, 0x53380D139D95B3DF,
  0x650A73548BAF63DE, 0x766A0ABB3C77B2A8, 0x81C2C92E47EDAEE6, 0x92722C851482353B,
  0xA2BFE8A14CF10364, 0xA81A664BBC423001, 0xC24B8B70D0F89791, 0xC76C51A30654BE30,
  0xD192E819D6EF5218, 0xD69906245565A910, 0xF40E35855771202A, 0x106AA07032BBD1B8,
  0x19A4C116B8D2D0C8, 0x1E376C085141AB53, 0x2748774CDF8EEB99, 0x34B0BCB5E19B48A8,
  0x391C0CB3C5C95A63, 0x4ED8AA4AE3418ACB, 0x5B9CCA4F7763E373, 0x682E6FF3D6B2B8A3,
  0x748F82EE5DEFB2FC, 0x78A5636F43172F60, 0x84C87814A1F0AB72, 0x8CC702081A6439EC,
  0x90BEFFFA23631E28, 0xA4506CEBDE82BDE9, 0xBEF9A3F7B2C67915, 0xC67178F2E372532B,
  0xCA273ECEEA26619C, 0xD186B8C721C0C207, 0xEADA7DD6CDE0EB1E, 0xF57D4F7FEE6ED178,
  0x06F067AA72176FBA, 0x0A637DC5A2C898A6, 0x113F9804BEF90DAE, 0x1B710B35131C471B,
  0x28DB77F523047D84, 0x32CAAB7B40C72493, 0x3C9EBE0A15C9BEBC, 0x431D67C49C100D4C,
  0x4CC5D4BECB3E42B6, 0x597F299CFC657E2A, 0x5FCB6FAB3AD6FAEC, 0x6C44198C4A475817]

/-- The initial hash value of SHA-384 (FIPS 180-4). -/
def sha384H0 : List (BitVec 64) := [
  0xCBBB9D5DC1059ED8, 0x629A292A367CD507, 0x9159015A3070DD17, 0x152FECD8F70E5939,
  0x67332667FFC00B31, 0x8EB44A8768581511, 0xDB0C2E0D64F98FA7, 0x47B5481DBEFA4FA4]

/-- One round of the SHA-512 compression. -/
def sha512Round (h : List (BitVec 64)) (kw : BitVec 64 × BitVec 64) : List (BitVec 64) :=
  match h with
  | [a, b, c, d, e, f, g, hh] =>
    let s1 := e.rotateRight 14 ^^^ e.rotateRight 18 ^^^ e.rotateRight 41
    let ch := (e &&& f) ^^^ (~~~e &&& g)
    let t1 := hh + s1 + ch + kw.1 + kw.2
    let s0 := a.rotateRight 28 ^^^ a.rotateRight 34 ^^^ a.rotateRight 39
    let maj := (a &&& b) ^^^ (a &&& c) ^^^ (b &&& c)
    [t1 + s0 + maj, a, b, c, d + t1, e, f, g]
  | other => other

/-- The message schedule, newest word first, extended by `n` words. -/
def sha512Sched : Nat → List (BitVec 64) → List (BitVec 64)
  | 0, ws => ws
  | n + 1, ws =>
    let x := ws.getD 14 0
    let y := ws.getD 1 0
    let s0 := x.rotateRight 1 ^^^ x.rotateRight 8 ^^^ (x >>> 7)
    let s1 := y.rotateRight 19 ^^^ y.rotateRight 61 ^^^ (y >>> 6)
    sha512Sched n ((s1 + ws.getD 6 0 + s0 + ws.getD 15 0) :: ws)

/-- One 128-byte block, given as 16 words. -/
def sha512Block (h ws : List (BitVec 64)) : List (BitVec 64) :=
  let w := (sha512Sched 64 ws.reverse).reverse
  List.zipWith (fun x y => x + y) h ((sha512K.zip w).foldl sha512Round h)

/-- A number from bytes, high byte first. -/
def beNat (bs : List Byte) : Nat := bs.foldl (fun a b => a * 256 + b.toNat) 0

/-- The `n` low bytes of a number, high byte first. -/
def beBytes (n v : Nat) : List Byte := (leBytes n v).reverse

/-- All blocks of a padded message of `n` blocks. -/
def sha512Blocks : Nat → List (BitVec 64) → List Byte → List (BitVec 64)
  | 0, h, _ => h
  | n + 1, h, bs =>
    let ws := (List.range 16).map (fun i => BitVec.ofNat 64 (beNat ((bs.drop (8 * i)).take 8)))
    sha512Blocks n (sha512Block h ws) (bs.drop 128)

/-- SHA-384 of a message: 48 bytes. -/
def sha384 (m : List Byte) : List Byte :=
  let z := (239 - m.length % 128) % 128
  let p := m ++ [0x80#8] ++ List.replicate z 0#8 ++ beBytes 16 (8 * m.length)
  ((sha512Blocks (p.length / 128) sha384H0 p).take 6).flatMap (fun w => beBytes 8 w.toNat)

end Sys2Proof.Machine
end

