-- ==== Sys2Proof/Config.lean ====
section
/-!
DEFINITION. What the spec leaves open, as constants without a body: nothing can be proved of their values, so a claim
is true whatever they are. The free values (log 9), the ROM's own content (R516), and what a signature is (log 12).
-/
namespace Sys2Proof

/-- The `n`-th free value: a result the spec does not state. State.free counts them (log 9). -/
opaque Config.freeBits (n : Nat) : BitVec 64

/-- The lane of `a` that BCAST takes for a counter value `k` above 63, where R138 gives no lane: it follows from the operands alone (R17). -/
opaque Config.bcastLane (k : Nat) (a : List Int) : BitVec 32

/-- The fault code, less 1, that the ERROR tokens of a unit of a fenced die name when it has recorded no fault (R195, R199, R225): the codes
run from 1 to 8. -/
opaque Config.fenceCode (u : Nat) : Fin 8

/-- The word that the `n`-th look finds at an address of a region whose layout the spec does not give: the live state of a
die and the shadow queue (R380, R425; log 41). -/
opaque Config.liveWord (n addr : Nat) : BitVec 32

/-- Byte `i` of the `n`-th management message (R265, op 5): its tag and address fields and what its data say are not in the spec (log 24). -/
opaque Config.mgmtByte (n i : Nat) : BitVec 8

/-- HUB_BOOT_STAT.rom_version: the spec prints 'ROM' (R516). -/
opaque Config.romVersion : BitVec 8

/-- Byte `i` of the SHA-384 of the ROM image (R516, block 1): the image is not in the spec. -/
opaque Config.romDigest (i : Nat) : BitVec 8

/-- Byte `i` of the ECDSA P-384 signature over a message with this SHA-384 (R564): the key is the part's own secret. -/
opaque Config.signature (digest : List (BitVec 8)) (i : Nat) : BitVec 8

/-- The public key of the leaf certificate of a certificate chain (R565): the spec gives the bytes of no certificate. -/
opaque Config.leafKey (chain : List (BitVec 8)) : List (BitVec 8)

end Sys2Proof
end

