-- ==== Sys2Proof/Machine/Registers.lean ====
section
/-!
DEFINITION. The BAR0 register map: every register the spec's register tables name, with its offset, its array
dimensions, which of its bits each access type covers (R7, R8) and its reset value. Written from the tables under
'## Registers' of the chapters (files 02 to 21); a docstring names the chapter.

`Reg.X` is the offset of register X (of its element, for an array); `F.X.y` is field y of X. The values the tables
print as '—', 'fuses', 'straps' or 'ROM' have reset 0 here: their home is elsewhere in State (see Machine/View.lean)
or they are the model's choice (log 1). HUB_QP_* offsets inside a queue: log 10. The MSI-X table follows the layout
of the PCI Express Base Specification (log 16).
-/
namespace Sys2Proof

/-- A bit field of a register: the register's BAR0 offset, the lowest bit and the width. -/
structure Fld where
  off : Nat
  lo : Nat
  width : Nat
  deriving DecidableEq, Repr

/-- One row of the register map: the offset of element 0, the (count, stride) of each array index, outermost first,
the bits of each access type (R7), the reset value, and for a wide value (R9) the distance back to its lowest word and
the number of words one read of that lowest word latches. -/
structure RegDesc where
  base : Nat
  dims : List (Nat × Nat)
  rw : Nat
  w1c : Nat
  w1s : Nat
  wl : Nat
  reset : Nat
  back : Nat
  words : Nat
  deriving DecidableEq, Repr

namespace Reg

/-- TIM_CTRL, chapter 02. -/
def TIM_CTRL : Nat := 0x200000
/-- TIM_STATUS, chapter 02. -/
def TIM_STATUS : Nat := 0x200004
/-- TIM_MCLK_FREQ, chapter 02. -/
def TIM_MCLK_FREQ : Nat := 0x200008
/-- TIM_SPOOL_LO, chapter 02. -/
def TIM_SPOOL_LO : Nat := 0x200010
/-- TIM_SPOOL_HI, chapter 02. -/
def TIM_SPOOL_HI : Nat := 0x200014
/-- TIM_XING, chapter 02. -/
def TIM_XING : Nat := 0x200018
/-- TIM_ORBIT, chapter 02. -/
def TIM_ORBIT : Nat := 0x20001C
/-- TIM_ORBIT_LEN, chapter 02. -/
def TIM_ORBIT_LEN : Nat := 0x200020
/-- TIM_ORBIT_SLIP, chapter 02. -/
def TIM_ORBIT_SLIP : Nat := 0x200024
/-- TIM_ORBIT_MISS, chapter 02. -/
def TIM_ORBIT_MISS : Nat := 0x200028
/-- TIM_PPS_CAPTURE_LO, chapter 02. -/
def TIM_PPS_CAPTURE_LO : Nat := 0x200030
/-- TIM_PPS_CAPTURE_HI, chapter 02. -/
def TIM_PPS_CAPTURE_HI : Nat := 0x200034
/-- TIM_PPS_STAT, chapter 02. -/
def TIM_PPS_STAT : Nat := 0x200038
/-- TIM_PPS_WALL_FRAC, chapter 02. -/
def TIM_PPS_WALL_FRAC : Nat := 0x20003C
/-- TIM_WALL_FRAC, chapter 02. -/
def TIM_WALL_FRAC : Nat := 0x200040
/-- TIM_WALL_SEC_LO, chapter 02. -/
def TIM_WALL_SEC_LO : Nat := 0x200044
/-- TIM_WALL_SEC_HI, chapter 02. -/
def TIM_WALL_SEC_HI : Nat := 0x200048
/-- TIM_WALL_SET_LO, chapter 02. -/
def TIM_WALL_SET_LO : Nat := 0x200050
/-- TIM_WALL_SET_HI, chapter 02. -/
def TIM_WALL_SET_HI : Nat := 0x200054
/-- TIM_WALL_RATE_LO, chapter 02. -/
def TIM_WALL_RATE_LO : Nat := 0x200058
/-- TIM_WALL_RATE_HI, chapter 02. -/
def TIM_WALL_RATE_HI : Nat := 0x20005C
/-- TIM_SYNC_PRESET_LO, chapter 02. -/
def TIM_SYNC_PRESET_LO : Nat := 0x200060
/-- TIM_SYNC_PRESET_HI, chapter 02. -/
def TIM_SYNC_PRESET_HI : Nat := 0x200064
/-- TIM_LAUNCH_COUNT_LO, chapter 02. -/
def TIM_LAUNCH_COUNT_LO : Nat := 0x200068
/-- TIM_LAUNCH_COUNT_HI, chapter 02. -/
def TIM_LAUNCH_COUNT_HI : Nat := 0x20006C
/-- TIM_LATE_STAT, chapter 02. -/
def TIM_LATE_STAT : Nat := 0x200070
/-- TIM_HIST_CLEAR, chapter 02. -/
def TIM_HIST_CLEAR : Nat := 0x200074
/-- TIM_MENU_LATE, chapter 02. -/
def TIM_MENU_LATE (i : Nat) : Nat := 0x200100 + 0x10 * i
/-- TIM_MENU_MASK_LO, chapter 02. -/
def TIM_MENU_MASK_LO (i : Nat) : Nat := 0x200104 + 0x10 * i
/-- TIM_MENU_MASK_HI, chapter 02. -/
def TIM_MENU_MASK_HI (i : Nat) : Nat := 0x200108 + 0x10 * i
/-- TIM_MENU_LATE_COUNT, chapter 02. -/
def TIM_MENU_LATE_COUNT (i : Nat) : Nat := 0x20010C + 0x10 * i
/-- TIM_DSLACK_HIST, chapter 02. -/
def TIM_DSLACK_HIST (i : Nat) (j : Nat) : Nat := 0x200200 + 0x40 * i + 0x4 * j
/-- TIM_GOV_CFG, chapter 02. -/
def TIM_GOV_CFG (i : Nat) : Nat := 0x200400 + 0x20 * i
/-- TIM_GOV_LIMIT, chapter 02. -/
def TIM_GOV_LIMIT (i : Nat) : Nat := 0x200404 + 0x20 * i
/-- TIM_GOV_STAT, chapter 02. -/
def TIM_GOV_STAT (i : Nat) : Nat := 0x200408 + 0x20 * i
/-- TIM_GOV_MINSLACK, chapter 02. -/
def TIM_GOV_MINSLACK (i : Nat) : Nat := 0x20040C + 0x20 * i
/-- TIM_WINDSOCK, chapter 02. -/
def TIM_WINDSOCK (i : Nat) (j : Nat) : Nat := 0x200800 + 0x20 * i + 0x4 * j
/-- INL_XOFFSET, chapter 03. -/
def INL_XOFFSET (i : Nat) : Nat := 0x800000 + 0x100000 * i
/-- INL_EXPECT_LO, chapter 03. -/
def INL_EXPECT_LO (i : Nat) : Nat := 0x800004 + 0x100000 * i
/-- INL_EXPECT_HI, chapter 03. -/
def INL_EXPECT_HI (i : Nat) : Nat := 0x800008 + 0x100000 * i
/-- INL_LOCK_LO, chapter 03. -/
def INL_LOCK_LO (i : Nat) : Nat := 0x80000C + 0x100000 * i
/-- INL_LOCK_HI, chapter 03. -/
def INL_LOCK_HI (i : Nat) : Nat := 0x800010 + 0x100000 * i
/-- INL_CNT_CLEAR, chapter 03. -/
def INL_CNT_CLEAR (i : Nat) : Nat := 0x800014 + 0x100000 * i
/-- INL_LANE_CFG, chapter 03. -/
def INL_LANE_CFG (i : Nat) (j : Nat) : Nat := 0x801000 + 0x100000 * i + 0x40 * j
/-- INL_LANE_ALIGN, chapter 03. -/
def INL_LANE_ALIGN (i : Nat) (j : Nat) : Nat := 0x801004 + 0x100000 * i + 0x40 * j
/-- INL_LANE_MARKER, chapter 03. -/
def INL_LANE_MARKER (i : Nat) (j : Nat) : Nat := 0x801008 + 0x100000 * i + 0x40 * j
/-- INL_LANE_STATE, chapter 03. -/
def INL_LANE_STATE (i : Nat) (j : Nat) : Nat := 0x80100C + 0x100000 * i + 0x40 * j
/-- INL_LANE_EVT, chapter 03. -/
def INL_LANE_EVT (i : Nat) (j : Nat) : Nat := 0x801010 + 0x100000 * i + 0x40 * j
/-- INL_LANE_ERR0, chapter 03. -/
def INL_LANE_ERR0 (i : Nat) (j : Nat) : Nat := 0x801014 + 0x100000 * i + 0x40 * j
/-- INL_LANE_ERR1, chapter 03. -/
def INL_LANE_ERR1 (i : Nat) (j : Nat) : Nat := 0x801018 + 0x100000 * i + 0x40 * j
/-- INL_LANE_ERR2, chapter 03. -/
def INL_LANE_ERR2 (i : Nat) (j : Nat) : Nat := 0x80101C + 0x100000 * i + 0x40 * j
/-- INL_LANE_ERR3, chapter 03. -/
def INL_LANE_ERR3 (i : Nat) (j : Nat) : Nat := 0x801020 + 0x100000 * i + 0x40 * j
/-- INL_LANE_ERR4, chapter 03. -/
def INL_LANE_ERR4 (i : Nat) (j : Nat) : Nat := 0x801024 + 0x100000 * i + 0x40 * j
/-- INL_LANE_CAND, chapter 03. -/
def INL_LANE_CAND (i : Nat) (j : Nat) : Nat := 0x801028 + 0x100000 * i + 0x40 * j
/-- INL_LANE_HDR, chapter 03. -/
def INL_LANE_HDR (i : Nat) (j : Nat) : Nat := 0x80102C + 0x100000 * i + 0x40 * j
/-- INL_LANE_SRC, chapter 03. -/
def INL_LANE_SRC (i : Nat) (j : Nat) : Nat := 0x801030 + 0x100000 * i + 0x40 * j
/-- RDL_STATUS, chapter 04. -/
def RDL_STATUS : Nat := 0xA00000
/-- RDL_INT_EN, chapter 04. -/
def RDL_INT_EN : Nat := 0xA00004
/-- RDL_CLAMP_COUNT, chapter 04. -/
def RDL_CLAMP_COUNT : Nat := 0xA00008
/-- RDL_HOLD_COUNT, chapter 04. -/
def RDL_HOLD_COUNT : Nat := 0xA0000C
/-- RDL_MENU_SSEL, chapter 04. -/
def RDL_MENU_SSEL (i : Nat) : Nat := 0xA00010 + 0x4 * i
/-- RDL_CH_FIELD of channel ch, chapter 04: TA channels 0–3,071, then TB's. -/
def RDL_CH_FIELD (ch : Nat) : Nat :=
  if ch < 3072 then 0xA10000 + 0x0 + 0x40 * ch else 0x710000 + 0x0 + 0x40 * (ch - 3072)
/-- RDL_CH_SCALE0 of channel ch, chapter 04: TA channels 0–3,071, then TB's. -/
def RDL_CH_SCALE0 (ch : Nat) : Nat :=
  if ch < 3072 then 0xA10000 + 0x4 + 0x40 * ch else 0x710000 + 0x4 + 0x40 * (ch - 3072)
/-- RDL_CH_SCALE1 of channel ch, chapter 04: TA channels 0–3,071, then TB's. -/
def RDL_CH_SCALE1 (ch : Nat) : Nat :=
  if ch < 3072 then 0xA10000 + 0x8 + 0x40 * ch else 0x710000 + 0x8 + 0x40 * (ch - 3072)
/-- RDL_CH_FILL of channel ch, chapter 04: TA channels 0–3,071, then TB's. -/
def RDL_CH_FILL (ch : Nat) : Nat :=
  if ch < 3072 then 0xA10000 + 0xC + 0x40 * ch else 0x710000 + 0xC + 0x40 * (ch - 3072)
/-- RDL_CH_LIMIT of channel ch, chapter 04: TA channels 0–3,071, then TB's. -/
def RDL_CH_LIMIT (ch : Nat) : Nat :=
  if ch < 3072 then 0xA10000 + 0x10 + 0x40 * ch else 0x710000 + 0x10 + 0x40 * (ch - 3072)
/-- RDL_CH_TRACK of channel ch, chapter 04: TA channels 0–3,071, then TB's. -/
def RDL_CH_TRACK (ch : Nat) : Nat :=
  if ch < 3072 then 0xA10000 + 0x14 + 0x40 * ch else 0x710000 + 0x14 + 0x40 * (ch - 3072)
/-- RDL_CH_TMAX of channel ch, chapter 04: TA channels 0–3,071, then TB's. -/
def RDL_CH_TMAX (ch : Nat) : Nat :=
  if ch < 3072 then 0xA10000 + 0x18 + 0x40 * ch else 0x710000 + 0x18 + 0x40 * (ch - 3072)
/-- RDL_CH_MSE_LO of channel ch, chapter 04: TA channels 0–3,071, then TB's. -/
def RDL_CH_MSE_LO (ch : Nat) : Nat :=
  if ch < 3072 then 0xA10000 + 0x1C + 0x40 * ch else 0x710000 + 0x1C + 0x40 * (ch - 3072)
/-- RDL_CH_MSE_HI of channel ch, chapter 04: TA channels 0–3,071, then TB's. -/
def RDL_CH_MSE_HI (ch : Nat) : Nat :=
  if ch < 3072 then 0xA10000 + 0x20 + 0x40 * ch else 0x710000 + 0x20 + 0x40 * (ch - 3072)
/-- RDL_CH_CNT of channel ch, chapter 04: TA channels 0–3,071, then TB's. -/
def RDL_CH_CNT (ch : Nat) : Nat :=
  if ch < 3072 then 0xA10000 + 0x24 + 0x40 * ch else 0x710000 + 0x24 + 0x40 * (ch - 3072)
/-- RDL_CH_STAT of channel ch, chapter 04: TA channels 0–3,071, then TB's. -/
def RDL_CH_STAT (ch : Nat) : Nat :=
  if ch < 3072 then 0xA10000 + 0x28 + 0x40 * ch else 0x710000 + 0x28 + 0x40 * (ch - 3072)
/-- TRL_DIE_INFO, chapter 05. -/
def TRL_DIE_INFO (i : Nat) : Nat := 0x1000000 + 0x100000 * i
/-- TRL_CU_MAP0, chapter 05. -/
def TRL_CU_MAP0 (i : Nat) : Nat := 0x1000004 + 0x100000 * i
/-- TRL_CU_MAP1, chapter 05. -/
def TRL_CU_MAP1 (i : Nat) : Nat := 0x1000008 + 0x100000 * i
/-- TRL_CU_MAP2, chapter 05. -/
def TRL_CU_MAP2 (i : Nat) : Nat := 0x100000C + 0x100000 * i
/-- TRL_OVF_COUNT, chapter 05. -/
def TRL_OVF_COUNT (i : Nat) : Nat := 0x1000010 + 0x100000 * i
/-- TRL_ECC_CORR, chapter 05. -/
def TRL_ECC_CORR (i : Nat) : Nat := 0x1000014 + 0x100000 * i
/-- TRL_BRIDGE_RETRY, chapter 05. -/
def TRL_BRIDGE_RETRY (i : Nat) : Nat := 0x1000018 + 0x100000 * i
/-- TRL_CNT_CLEAR, chapter 05. -/
def TRL_CNT_CLEAR (i : Nat) : Nat := 0x100001C + 0x100000 * i
/-- TRL_SITE_CUR, chapter 05. -/
def TRL_SITE_CUR (i : Nat) (j : Nat) : Nat := 0x1010000 + 0x100000 * i + 0x40 * j
/-- TRL_SITE_CNT01, chapter 05. -/
def TRL_SITE_CNT01 (i : Nat) (j : Nat) : Nat := 0x1010004 + 0x100000 * i + 0x40 * j
/-- TRL_SITE_CNT23, chapter 05. -/
def TRL_SITE_CNT23 (i : Nat) (j : Nat) : Nat := 0x1010008 + 0x100000 * i + 0x40 * j
/-- TRL_SITE_QOCC, chapter 05. -/
def TRL_SITE_QOCC (i : Nat) (j : Nat) : Nat := 0x101000C + 0x100000 * i + 0x40 * j
/-- TRL_SCHED_CFG, chapter 06. -/
def TRL_SCHED_CFG (i : Nat) : Nat := 0x1000100 + 0x100000 * i
/-- TRL_STALL_CFG, chapter 06. -/
def TRL_STALL_CFG (i : Nat) : Nat := 0x1000104 + 0x100000 * i
/-- TRL_FAULT_CFG, chapter 06. -/
def TRL_FAULT_CFG (i : Nat) : Nat := 0x1000108 + 0x100000 * i
/-- TRL_FAULT_STAT, chapter 06. -/
def TRL_FAULT_STAT (i : Nat) : Nat := 0x100010C + 0x100000 * i
/-- TRL_FAULT_HEAD, chapter 06. -/
def TRL_FAULT_HEAD (i : Nat) : Nat := 0x1000110 + 0x100000 * i
/-- TRL_FAULT_TAIL, chapter 06. -/
def TRL_FAULT_TAIL (i : Nat) : Nat := 0x1000114 + 0x100000 * i
/-- TRL_SPILL_STAT, chapter 06. -/
def TRL_SPILL_STAT (i : Nat) : Nat := 0x1000118 + 0x100000 * i
/-- TRL_SCHED_LOG, chapter 06. -/
def TRL_SCHED_LOG (i : Nat) : Nat := 0x100011C + 0x100000 * i
/-- TRL_SPILL_LAST, chapter 06. -/
def TRL_SPILL_LAST (i : Nat) : Nat := 0x1000120 + 0x100000 * i
/-- TRL_FAULT_EVT, chapter 06. -/
def TRL_FAULT_EVT (i : Nat) : Nat := 0x1000124 + 0x100000 * i
/-- TRL_FSTAT_CLEAR, chapter 06. -/
def TRL_FSTAT_CLEAR (i : Nat) : Nat := 0x1000128 + 0x100000 * i
/-- TRL_FAULT_LOG, chapter 06. -/
def TRL_FAULT_LOG (i : Nat) (j : Nat) (k : Nat) : Nat := 0x1001000 + 0x100000 * i + 0x20 * j + 0x4 * k
/-- TRL_SITE_FSTAT, chapter 06. -/
def TRL_SITE_FSTAT (i : Nat) (j : Nat) : Nat := 0x1020000 + 0x100000 * i + 0x10 * j
/-- TRL_SITE_SPILL, chapter 06. -/
def TRL_SITE_SPILL (i : Nat) (j : Nat) : Nat := 0x1020004 + 0x100000 * i + 0x10 * j
/-- TRL_SITE_WAITMAX, chapter 06. -/
def TRL_SITE_WAITMAX (i : Nat) (j : Nat) : Nat := 0x1020008 + 0x100000 * i + 0x10 * j
/-- TRL_SITE_FCOUNT, chapter 06. -/
def TRL_SITE_FCOUNT (i : Nat) (j : Nat) : Nat := 0x102000C + 0x100000 * i + 0x10 * j
/-- HUB_IMG_ID, chapter 07. -/
def HUB_IMG_ID : Nat := 0x4000
/-- HUB_IMG_STAT, chapter 07. -/
def HUB_IMG_STAT : Nat := 0x4004
/-- HUB_IMG_ERRLOC, chapter 07. -/
def HUB_IMG_ERRLOC : Nat := 0x4008
/-- HUB_IMG_ERROFF, chapter 07. -/
def HUB_IMG_ERROFF : Nat := 0x400C
/-- HUB_IMG_DIGEST, chapter 07. -/
def HUB_IMG_DIGEST (i : Nat) : Nat := 0x4010 + 0x4 * i
/-- HUB_MENU_CUR, chapter 07. -/
def HUB_MENU_CUR : Nat := 0x4040
/-- HUB_MENU_SWITCH_LO, chapter 07. -/
def HUB_MENU_SWITCH_LO : Nat := 0x4048
/-- HUB_MENU_SWITCH_HI, chapter 07. -/
def HUB_MENU_SWITCH_HI : Nat := 0x404C
/-- HUB_MENU_INFO, chapter 07. -/
def HUB_MENU_INFO (i : Nat) : Nat := 0x4080 + 0x4 * i
/-- HUB_ID, chapter 15. -/
def HUB_ID : Nat := 0x0
/-- HUB_REV, chapter 15. -/
def HUB_REV : Nat := 0x4
/-- HUB_FW_VER, chapter 15. -/
def HUB_FW_VER : Nat := 0x8
/-- HUB_SERIAL_LO, chapter 15. -/
def HUB_SERIAL_LO : Nat := 0xC
/-- HUB_SERIAL_HI, chapter 15. -/
def HUB_SERIAL_HI : Nat := 0x10
/-- HUB_STATE, chapter 15. -/
def HUB_STATE : Nat := 0x20
/-- HUB_STATE_EVT, chapter 15. -/
def HUB_STATE_EVT : Nat := 0x24
/-- HUB_ACC_ERR, chapter 15. -/
def HUB_ACC_ERR : Nat := 0x28
/-- HUB_ACC_ADDR, chapter 15. -/
def HUB_ACC_ADDR : Nat := 0x2C
/-- HUB_ATLAS_BASE, chapter 15. -/
def HUB_ATLAS_BASE : Nat := 0x30
/-- HUB_INT_EN, chapter 15. -/
def HUB_INT_EN : Nat := 0x34
/-- HUB_SCRATCH, chapter 15. -/
def HUB_SCRATCH (i : Nat) : Nat := 0x40 + 0x4 * i
/-- HUB_QP_CFG, chapter 15. -/
def HUB_QP_CFG (i : Nat) : Nat := 0x1000 + 0x40 * i
/-- HUB_QP_STAT, chapter 15. -/
def HUB_QP_STAT (i : Nat) : Nat := 0x1004 + 0x40 * i
/-- HUB_QP_SQ_BASE_LO, chapter 15. -/
def HUB_QP_SQ_BASE_LO (i : Nat) : Nat := 0x1008 + 0x40 * i
/-- HUB_QP_SQ_BASE_HI, chapter 15. -/
def HUB_QP_SQ_BASE_HI (i : Nat) : Nat := 0x100C + 0x40 * i
/-- HUB_QP_CQ_BASE_LO, chapter 15. -/
def HUB_QP_CQ_BASE_LO (i : Nat) : Nat := 0x1010 + 0x40 * i
/-- HUB_QP_CQ_BASE_HI, chapter 15. -/
def HUB_QP_CQ_BASE_HI (i : Nat) : Nat := 0x1014 + 0x40 * i
/-- HUB_QP_CQ, chapter 15. -/
def HUB_QP_CQ (i : Nat) : Nat := 0x1018 + 0x40 * i
/-- HUB_QP_SQ_TAIL, chapter 15. -/
def HUB_QP_SQ_TAIL (i : Nat) : Nat := 0x101C + 0x40 * i
/-- HUB_QP_CANCEL, chapter 15. -/
def HUB_QP_CANCEL (i : Nat) : Nat := 0x1020 + 0x40 * i
/-- HUB_QP_COUNT, chapter 15. -/
def HUB_QP_COUNT (i : Nat) : Nat := 0x1024 + 0x40 * i
/-- HUB_QP_INFLIGHT, chapter 15. -/
def HUB_QP_INFLIGHT (i : Nat) : Nat := 0x1028 + 0x40 * i
/-- HUB_BOOT_STRAP, chapter 19. -/
def HUB_BOOT_STRAP : Nat := 0x5000
/-- HUB_BOOT_STAT, chapter 19. -/
def HUB_BOOT_STAT : Nat := 0x5004
/-- HUB_BOOT_COUNT, chapter 19. -/
def HUB_BOOT_COUNT : Nat := 0x5008
/-- HUB_RESET, chapter 19. -/
def HUB_RESET : Nat := 0x500C
/-- HUB_DIE_RESET, chapter 19. -/
def HUB_DIE_RESET : Nat := 0x5010
/-- HUB_WDT_CFG, chapter 19. -/
def HUB_WDT_CFG : Nat := 0x5014
/-- HUB_MEAS, chapter 19. -/
def HUB_MEAS (i : Nat) (j : Nat) : Nat := 0x5100 + 0x40 * i + 0x4 * j
/-- HUB_FUSE, chapter 19. -/
def HUB_FUSE (i : Nat) : Nat := 0x5400 + 0x4 * i
/-- DEC_INT_EN, chapter 08. -/
def DEC_INT_EN : Nat := 0xB00000
/-- DEC_VETO_CFG, chapter 08. -/
def DEC_VETO_CFG : Nat := 0xB00010
/-- DEC_VETO_STAT, chapter 08. -/
def DEC_VETO_STAT : Nat := 0xB00014
/-- DEC_VETO_COUNT, chapter 08. -/
def DEC_VETO_COUNT : Nat := 0xB00018
/-- DEC_SYNC_CFG, chapter 08. -/
def DEC_SYNC_CFG : Nat := 0xB00020
/-- DEC_SYNC_STAT, chapter 08. -/
def DEC_SYNC_STAT : Nat := 0xB00024
/-- DEC_SYNC_LAUNCH_LO, chapter 08. -/
def DEC_SYNC_LAUNCH_LO : Nat := 0xB00028
/-- DEC_SYNC_LAUNCH_HI, chapter 08. -/
def DEC_SYNC_LAUNCH_HI : Nat := 0xB0002C
/-- DEC_FAULTN_MASK, chapter 08. -/
def DEC_FAULTN_MASK : Nat := 0xB00030
/-- DEC_PINS, chapter 08. -/
def DEC_PINS : Nat := 0xB00034
/-- DEC_RESULT_ERR, chapter 08. -/
def DEC_RESULT_ERR : Nat := 0xB00038
/-- DEC_LANE_CFG, chapter 08. -/
def DEC_LANE_CFG (i : Nat) : Nat := 0xB00100 + 0x4 * i
/-- DEC_LANE_STAT, chapter 08. -/
def DEC_LANE_STAT (i : Nat) : Nat := 0xB00120 + 0x4 * i
/-- DEC_MENU_MAP, chapter 08. -/
def DEC_MENU_MAP (i : Nat) : Nat := 0xB00200 + 0x4 * i
/-- TTH_INT_EN, chapter 09. -/
def TTH_INT_EN : Nat := 0xC00000
/-- TTH_STATUS, chapter 09. -/
def TTH_STATUS : Nat := 0xC00004
/-- TTH_READ_CFG, chapter 09. -/
def TTH_READ_CFG : Nat := 0xC00008
/-- TTH_PE_HEAD, chapter 09. -/
def TTH_PE_HEAD : Nat := 0xC00010
/-- TTH_PE_TAIL, chapter 09. -/
def TTH_PE_TAIL : Nat := 0xC00014
/-- TTH_PE_STAT, chapter 09. -/
def TTH_PE_STAT : Nat := 0xC00018
/-- TTH_WIN_BASE, chapter 09. -/
def TTH_WIN_BASE (i : Nat) : Nat := 0xC00020 + 0x8 * i
/-- TTH_WIN_SIZE, chapter 09. -/
def TTH_WIN_SIZE (i : Nat) : Nat := 0xC00024 + 0x8 * i
/-- TTH_PE_RING, chapter 09. -/
def TTH_PE_RING (i : Nat) (j : Nat) : Nat := 0xC00400 + 0x10 * i + 0x4 * j
/-- TTH_PORT_CFG, chapter 09. -/
def TTH_PORT_CFG (i : Nat) : Nat := 0xC01000 + 0x40 * i
/-- TTH_PORT_STATE, chapter 09. -/
def TTH_PORT_STATE (i : Nat) : Nat := 0xC01004 + 0x40 * i
/-- TTH_PORT_EVT, chapter 09. -/
def TTH_PORT_EVT (i : Nat) : Nat := 0xC01008 + 0x40 * i
/-- TTH_PORT_HOP, chapter 09. -/
def TTH_PORT_HOP (i : Nat) : Nat := 0xC0100C + 0x40 * i
/-- TTH_PORT_ERR0, chapter 09. -/
def TTH_PORT_ERR0 (i : Nat) : Nat := 0xC01010 + 0x40 * i
/-- TTH_PORT_ERR1, chapter 09. -/
def TTH_PORT_ERR1 (i : Nat) : Nat := 0xC01014 + 0x40 * i
/-- TTH_PORT_ERR2, chapter 09. -/
def TTH_PORT_ERR2 (i : Nat) : Nat := 0xC01018 + 0x40 * i
/-- COL_SELF, chapter 10. -/
def COL_SELF : Nat := 0xD00000
/-- COL_TORUS, chapter 10. -/
def COL_TORUS : Nat := 0xD00004
/-- COL_SURVEY_CFG, chapter 10. -/
def COL_SURVEY_CFG : Nat := 0xD00008
/-- COL_SURVEY_STAT, chapter 10. -/
def COL_SURVEY_STAT : Nat := 0xD0000C
/-- COL_TOPO_GEN, chapter 10. -/
def COL_TOPO_GEN : Nat := 0xD00010
/-- COL_TOPO_COUNT, chapter 10. -/
def COL_TOPO_COUNT : Nat := 0xD00014
/-- COL_PORT_MISWIRE, chapter 10. -/
def COL_PORT_MISWIRE : Nat := 0xD00018
/-- COL_BRIDLE_EVT, chapter 10. -/
def COL_BRIDLE_EVT : Nat := 0xD0001C
/-- COL_INT_EN, chapter 10. -/
def COL_INT_EN : Nat := 0xD00020
/-- COL_VC, chapter 10. -/
def COL_VC (i : Nat) : Nat := 0xD00040 + 0x4 * i
/-- COL_TOPO, chapter 10. -/
def COL_TOPO (i : Nat) (j : Nat) : Nat := 0xD10000 + 0x20 * i + 0x4 * j
/-- COL_BRIDLE, chapter 10. -/
def COL_BRIDLE (i : Nat) (j : Nat) : Nat := 0xD20000 + 0x80 * i + 0x4 * j
/-- COL_ENG_INT_EN, chapter 11. -/
def COL_ENG_INT_EN : Nat := 0xD00080
/-- COL_ENG_EVT, chapter 11. -/
def COL_ENG_EVT : Nat := 0xD00084
/-- COL_CHUNK_STAT, chapter 11. -/
def COL_CHUNK_STAT : Nat := 0xD00088
/-- COL_DROP_STAT, chapter 11. -/
def COL_DROP_STAT : Nat := 0xD0008C
/-- COL_EARLY_STAT, chapter 11. -/
def COL_EARLY_STAT : Nat := 0xD00090
/-- COL_PILOT_STAT, chapter 11. -/
def COL_PILOT_STAT : Nat := 0xD00094
/-- COL_VC_INST, chapter 11. -/
def COL_VC_INST (i : Nat) : Nat := 0xD00400 + 0x20 * i
/-- COL_VC_PROG, chapter 11. -/
def COL_VC_PROG (i : Nat) : Nat := 0xD00404 + 0x20 * i
/-- COL_VC_HOLD, chapter 11. -/
def COL_VC_HOLD (i : Nat) : Nat := 0xD00408 + 0x20 * i
/-- COL_SCHED, chapter 11. -/
def COL_SCHED (i : Nat) (j : Nat) : Nat := 0xD30000 + 0x20 * i + 0x4 * j
/-- COL_ZONE, chapter 11. -/
def COL_ZONE (i : Nat) (j : Nat) : Nat := 0xD32000 + 0x10 * i + 0x4 * j
/-- COL_LZ_REL, chapter 11. -/
def COL_LZ_REL (i : Nat) : Nat := 0xD40000 + 0x10 * i
/-- COL_LZ_LANDED, chapter 11. -/
def COL_LZ_LANDED (i : Nat) : Nat := 0xD40004 + 0x10 * i
/-- COL_LZ_MARK, chapter 11. -/
def COL_LZ_MARK (i : Nat) : Nat := 0xD40008 + 0x10 * i
/-- COL_ABORT_CFG, chapter 12. -/
def COL_ABORT_CFG : Nat := 0xD000C0
/-- COL_ABORT_EVT, chapter 12. -/
def COL_ABORT_EVT : Nat := 0xD000C4
/-- COL_ABORT_INT_EN, chapter 12. -/
def COL_ABORT_INT_EN : Nat := 0xD000C8
/-- COL_ABORT_STAT, chapter 12. -/
def COL_ABORT_STAT : Nat := 0xD000CC
/-- COL_ABORT_STAT2, chapter 12. -/
def COL_ABORT_STAT2 : Nat := 0xD000D0
/-- COL_TRANSIT_MAP, chapter 12. -/
def COL_TRANSIT_MAP : Nat := 0xD000D4
/-- COL_TRANSIT_CFG, chapter 12. -/
def COL_TRANSIT_CFG : Nat := 0xD000D8
/-- COL_ABORT_HEAD, chapter 12. -/
def COL_ABORT_HEAD : Nat := 0xD000E0
/-- COL_ABORT_TAIL, chapter 12. -/
def COL_ABORT_TAIL : Nat := 0xD000E4
/-- COL_GRAFT_STAT, chapter 12. -/
def COL_GRAFT_STAT : Nat := 0xD000E8
/-- COL_GRAFT_CFG, chapter 12. -/
def COL_GRAFT_CFG : Nat := 0xD000EC
/-- COL_GROUP_W, chapter 12. -/
def COL_GROUP_W (i : Nat) : Nat := 0xD00600 + 0x4 * i
/-- COL_ABORT_LOG, chapter 12. -/
def COL_ABORT_LOG (i : Nat) (j : Nat) : Nat := 0xD00800 + 0x10 * i + 0x4 * j
/-- DET_CTRL, chapter 13. -/
def DET_CTRL : Nat := 0xF00000
/-- DET_STATUS, chapter 13. -/
def DET_STATUS : Nat := 0xF00004
/-- DET_DMAP_DIGEST, chapter 13. -/
def DET_DMAP_DIGEST : Nat := 0xF00008
/-- DET_FENCE, chapter 13. -/
def DET_FENCE : Nat := 0xF0000C
/-- DET_PRUNE_STAT, chapter 13. -/
def DET_PRUNE_STAT : Nat := 0xF00010
/-- DET_SHADOW_SEED_LO, chapter 13. -/
def DET_SHADOW_SEED_LO : Nat := 0xF00014
/-- DET_SHADOW_SEED_HI, chapter 13. -/
def DET_SHADOW_SEED_HI : Nat := 0xF00018
/-- DET_SHADOW_CFG, chapter 13. -/
def DET_SHADOW_CFG : Nat := 0xF0001C
/-- DET_ORBIT_SEQ, chapter 13. -/
def DET_ORBIT_SEQ : Nat := 0xF00020
/-- DET_TRACE_STAT, chapter 13. -/
def DET_TRACE_STAT : Nat := 0xF00024
/-- DET_ROW_MAP, chapter 13. -/
def DET_ROW_MAP (i : Nat) : Nat := 0xF00100 + 0x4 * i
/-- DET_ORBIT_INFO, chapter 13. -/
def DET_ORBIT_INFO (i : Nat) (j : Nat) : Nat := 0xF00800 + 0x10 * i + 0x4 * j
/-- DET_ORBIT_DIG_LO, chapter 13. -/
def DET_ORBIT_DIG_LO (i : Nat) (j : Nat) : Nat := 0xF01000 + 0x200 * i + 0x8 * j
/-- DET_ORBIT_DIG_HI, chapter 13. -/
def DET_ORBIT_DIG_HI (i : Nat) (j : Nat) : Nat := 0xF01004 + 0x200 * i + 0x8 * j
/-- CFM_INT_EN, chapter 14. -/
def CFM_INT_EN : Nat := 0xE00000
/-- CFM_EVT, chapter 14. -/
def CFM_EVT : Nat := 0xE00004
/-- CFM_CAP_CFG, chapter 14. -/
def CFM_CAP_CFG : Nat := 0xE00008
/-- CFM_CAP_TRIG, chapter 14. -/
def CFM_CAP_TRIG : Nat := 0xE0000C
/-- CFM_CAP_STAT, chapter 14. -/
def CFM_CAP_STAT : Nat := 0xE00010
/-- CFM_CAP_OLDEST_LO, chapter 14. -/
def CFM_CAP_OLDEST_LO : Nat := 0xE00014
/-- CFM_CAP_OLDEST_HI, chapter 14. -/
def CFM_CAP_OLDEST_HI : Nat := 0xE00018
/-- CFM_CAP_NEWEST_LO, chapter 14. -/
def CFM_CAP_NEWEST_LO : Nat := 0xE0001C
/-- CFM_CAP_NEWEST_HI, chapter 14. -/
def CFM_CAP_NEWEST_HI : Nat := 0xE00020
/-- CFM_CAP_TRIG_X_LO, chapter 14. -/
def CFM_CAP_TRIG_X_LO : Nat := 0xE00024
/-- CFM_CAP_TRIG_X_HI, chapter 14. -/
def CFM_CAP_TRIG_X_HI : Nat := 0xE00028
/-- CFM_ECC_STAT, chapter 14. -/
def CFM_ECC_STAT : Nat := 0xE0002C
/-- CFM_RPL_STAT, chapter 14. -/
def CFM_RPL_STAT : Nat := 0xE00030
/-- CFM_RPL_CFG, chapter 14. -/
def CFM_RPL_CFG : Nat := 0xE00034
/-- CFM_RPL_CUR_LO, chapter 14. -/
def CFM_RPL_CUR_LO : Nat := 0xE00038
/-- CFM_RPL_CUR_HI, chapter 14. -/
def CFM_RPL_CUR_HI : Nat := 0xE0003C
/-- CFM_SHD_CFG, chapter 14. -/
def CFM_SHD_CFG : Nat := 0xE00040
/-- CFM_SHD_QUEUE, chapter 14. -/
def CFM_SHD_QUEUE : Nat := 0xE00044
/-- CFM_SHD_COUNT, chapter 14. -/
def CFM_SHD_COUNT : Nat := 0xE00048
/-- CFM_SHD_SKIP, chapter 14. -/
def CFM_SHD_SKIP : Nat := 0xE0004C
/-- CFM_SHD_INVALID, chapter 14. -/
def CFM_SHD_INVALID : Nat := 0xE00050
/-- CFM_MM_HEAD, chapter 14. -/
def CFM_MM_HEAD : Nat := 0xE00058
/-- CFM_MM_TAIL, chapter 14. -/
def CFM_MM_TAIL : Nat := 0xE0005C
/-- CFM_MM_LOG, chapter 14. -/
def CFM_MM_LOG (i : Nat) (j : Nat) : Nat := 0xE00100 + 0x10 * i + 0x4 * j
/-- DAT_CFG, chapter 17. -/
def DAT_CFG : Nat := 0x300000
/-- DAT_STAT, chapter 17. -/
def DAT_STAT : Nat := 0x300004
/-- DAT_ROOT_LO, chapter 17. -/
def DAT_ROOT_LO : Nat := 0x300008
/-- DAT_ROOT_HI, chapter 17. -/
def DAT_ROOT_HI : Nat := 0x30000C
/-- DAT_HIT, chapter 17. -/
def DAT_HIT : Nat := 0x300010
/-- DAT_MISS, chapter 17. -/
def DAT_MISS : Nat := 0x300014
/-- DMA_INT_EN, chapter 17. -/
def DMA_INT_EN : Nat := 0x300020
/-- DMA_EVT, chapter 17. -/
def DMA_EVT : Nat := 0x300024
/-- DMA_FAULT_HEAD, chapter 17. -/
def DMA_FAULT_HEAD : Nat := 0x300028
/-- DMA_FAULT_TAIL, chapter 17. -/
def DMA_FAULT_TAIL : Nat := 0x30002C
/-- DMA_FAULT_STAT, chapter 17. -/
def DMA_FAULT_STAT : Nat := 0x300030
/-- DMA_TAG_NEXT, chapter 17. -/
def DMA_TAG_NEXT : Nat := 0x300034
/-- DMA_TAG_CFG, chapter 17. -/
def DMA_TAG_CFG : Nat := 0x300038
/-- DMA_WAIT_COUNT, chapter 17. -/
def DMA_WAIT_COUNT : Nat := 0x30003C
/-- DMA_ENG_STAT, chapter 17. -/
def DMA_ENG_STAT (i : Nat) : Nat := 0x300100 + 0x20 * i
/-- DMA_ENG_CMD, chapter 17. -/
def DMA_ENG_CMD (i : Nat) : Nat := 0x300104 + 0x20 * i
/-- DMA_ENG_DONE, chapter 17. -/
def DMA_ENG_DONE (i : Nat) : Nat := 0x300108 + 0x20 * i
/-- DMA_ENG_TOTAL, chapter 17. -/
def DMA_ENG_TOTAL (i : Nat) : Nat := 0x30010C + 0x20 * i
/-- DMA_FAULT_LOG, chapter 17. -/
def DMA_FAULT_LOG (i : Nat) (j : Nat) : Nat := 0x301000 + 0x20 * i + 0x4 * j
/-- INT_SRC_CFG, chapter 18. -/
def INT_SRC_CFG (i : Nat) : Nat := 0x100000 + 0x4 * i
/-- INT_PEND, chapter 18. -/
def INT_PEND (i : Nat) : Nat := 0x100400 + 0x4 * i
/-- INT_PEND_SET, chapter 18. -/
def INT_PEND_SET (i : Nat) : Nat := 0x100420 + 0x4 * i
/-- INT_ACTIVE, chapter 18. -/
def INT_ACTIVE (i : Nat) : Nat := 0x100440 + 0x4 * i
/-- INT_ORIGIN, chapter 18. -/
def INT_ORIGIN (i : Nat) : Nat := 0x100460 + 0x4 * i
/-- INT_RATE_HOLD, chapter 18. -/
def INT_RATE_HOLD (i : Nat) : Nat := 0x100480 + 0x4 * i
/-- INT_TGT_THRESH, chapter 18. -/
def INT_TGT_THRESH (i : Nat) : Nat := 0x100800 + 0x20 * i
/-- INT_TGT_CLAIM, chapter 18. -/
def INT_TGT_CLAIM (i : Nat) : Nat := 0x100804 + 0x20 * i
/-- INT_TGT_EOI, chapter 18. -/
def INT_TGT_EOI (i : Nat) : Nat := 0x100808 + 0x20 * i
/-- INT_TGT_PEEK, chapter 18. -/
def INT_TGT_PEEK (i : Nat) : Nat := 0x10080C + 0x20 * i
/-- INT_TGT_STAT, chapter 18. -/
def INT_TGT_STAT (i : Nat) : Nat := 0x100810 + 0x20 * i
/-- INT_TGT_VEC, chapter 18. -/
def INT_TGT_VEC (i : Nat) : Nat := 0x100814 + 0x20 * i
/-- PWR_INT_EN, chapter 20. -/
def PWR_INT_EN : Nat := 0x400000
/-- PWR_EVT, chapter 20. -/
def PWR_EVT : Nat := 0x400004
/-- PWR_CFG, chapter 20. -/
def PWR_CFG : Nat := 0x400008
/-- PWR_DOM_CTRL, chapter 20. -/
def PWR_DOM_CTRL : Nat := 0x40000C
/-- PWR_DOM_STAT, chapter 20. -/
def PWR_DOM_STAT : Nat := 0x400010
/-- PWR_SUPPLY_STAT, chapter 20. -/
def PWR_SUPPLY_STAT : Nat := 0x400014
/-- PWR_FAIL_STAT, chapter 20. -/
def PWR_FAIL_STAT : Nat := 0x400018
/-- PWR_AVS_CFG, chapter 20. -/
def PWR_AVS_CFG : Nat := 0x400020
/-- PWR_AVS_STAT, chapter 20. -/
def PWR_AVS_STAT : Nat := 0x400024
/-- PWR_AVS_READ, chapter 20. -/
def PWR_AVS_READ (i : Nat) : Nat := 0x400040 + 0x4 * i
/-- PWR_THERM_CFG, chapter 20. -/
def PWR_THERM_CFG : Nat := 0x400060
/-- PWR_THERM_LIMIT, chapter 20. -/
def PWR_THERM_LIMIT : Nat := 0x400064
/-- PWR_THERM_STAT, chapter 20. -/
def PWR_THERM_STAT : Nat := 0x400068
/-- PWR_TEMP, chapter 20. -/
def PWR_TEMP (i : Nat) : Nat := 0x400080 + 0x4 * i
/-- PWR_BAL_CFG, chapter 20. -/
def PWR_BAL_CFG : Nat := 0x400100
/-- PWR_BAL_C, chapter 20. -/
def PWR_BAL_C : Nat := 0x400104
/-- PWR_BAL_VMIN, chapter 20. -/
def PWR_BAL_VMIN : Nat := 0x400108
/-- PWR_BAL_MODEL, chapter 20. -/
def PWR_BAL_MODEL : Nat := 0x40010C
/-- PWR_BAL_PHOLD, chapter 20. -/
def PWR_BAL_PHOLD : Nat := 0x400110
/-- PWR_BAL_LAST, chapter 20. -/
def PWR_BAL_LAST : Nat := 0x400114
/-- PWR_BAL_NEED, chapter 20. -/
def PWR_BAL_NEED : Nat := 0x400118
/-- PWR_BAL_SENSE, chapter 20. -/
def PWR_BAL_SENSE : Nat := 0x40011C
/-- PWR_LDG_SEQ, chapter 20. -/
def PWR_LDG_SEQ : Nat := 0x400120
/-- PWR_LDG_CNT, chapter 20. -/
def PWR_LDG_CNT : Nat := 0x400124
/-- PWR_LDG_SEL, chapter 20. -/
def PWR_LDG_SEL : Nat := 0x400128
/-- PWR_LDG_DATA, chapter 20. -/
def PWR_LDG_DATA (i : Nat) : Nat := 0x400200 + 0x4 * i
/-- MGT_INT_EN, chapter 21. -/
def MGT_INT_EN : Nat := 0x500000
/-- MGT_EVT, chapter 21. -/
def MGT_EVT : Nat := 0x500004
/-- MGT_SMB_CFG, chapter 21. -/
def MGT_SMB_CFG : Nat := 0x500010
/-- MGT_SMB_STAT, chapter 21. -/
def MGT_SMB_STAT : Nat := 0x500014
/-- MGT_SMB_WADDR, chapter 21. -/
def MGT_SMB_WADDR : Nat := 0x500018
/-- MGT_MCTP_STAT, chapter 21. -/
def MGT_MCTP_STAT : Nat := 0x50001C
/-- MGT_MOD_CFG, chapter 21. -/
def MGT_MOD_CFG : Nat := 0x500030
/-- MGT_MOD_CTRL, chapter 21. -/
def MGT_MOD_CTRL : Nat := 0x500034
/-- MGT_MOD_STAT, chapter 21. -/
def MGT_MOD_STAT : Nat := 0x500038
/-- MGT_MOD_CNT, chapter 21. -/
def MGT_MOD_CNT : Nat := 0x50003C
/-- SEC_STAT, chapter 21. -/
def SEC_STAT : Nat := 0x600000
/-- SEC_CHAIN_LEN, chapter 21. -/
def SEC_CHAIN_LEN : Nat := 0x600004
/-- SEC_COUNT, chapter 21. -/
def SEC_COUNT : Nat := 0x600008
/-- HUB_MSIX_ADDR_LO, chapter 15. -/
def HUB_MSIX_ADDR_LO (i : Nat) : Nat := 0x8000 + 0x10 * i
/-- HUB_MSIX_ADDR_HI, chapter 15. -/
def HUB_MSIX_ADDR_HI (i : Nat) : Nat := 0x8004 + 0x10 * i
/-- HUB_MSIX_DATA, chapter 15. -/
def HUB_MSIX_DATA (i : Nat) : Nat := 0x8008 + 0x10 * i
/-- HUB_MSIX_CTRL, chapter 15. -/
def HUB_MSIX_CTRL (i : Nat) : Nat := 0x800C + 0x10 * i
/-- HUB_MSIX_PBA, chapter 15. -/
def HUB_MSIX_PBA (i : Nat) : Nat := 0x9000 + 0x4 * i

end Reg

namespace F

/-- TIM_CTRL.orbit_en, RW. -/
def TIM_CTRL.orbit_en : Fld := ⟨Reg.TIM_CTRL, 0, 1⟩
/-- TIM_CTRL.resync_on_orbit, RW. -/
def TIM_CTRL.resync_on_orbit : Fld := ⟨Reg.TIM_CTRL, 1, 1⟩
/-- TIM_CTRL.align_on_pps, RW. -/
def TIM_CTRL.align_on_pps : Fld := ⟨Reg.TIM_CTRL, 2, 1⟩
/-- TIM_CTRL.sync_preset_en, RW. -/
def TIM_CTRL.sync_preset_en : Fld := ⟨Reg.TIM_CTRL, 3, 1⟩
/-- TIM_CTRL.gov_en, RW. -/
def TIM_CTRL.gov_en : Fld := ⟨Reg.TIM_CTRL, 4, 8⟩
/-- TIM_STATUS.pll_lock, RO. -/
def TIM_STATUS.pll_lock : Fld := ⟨Reg.TIM_STATUS, 0, 1⟩
/-- TIM_STATUS.mclk_loss, W1C. -/
def TIM_STATUS.mclk_loss : Fld := ⟨Reg.TIM_STATUS, 1, 1⟩
/-- TIM_STATUS.orbit_slip, W1C. -/
def TIM_STATUS.orbit_slip : Fld := ⟨Reg.TIM_STATUS, 2, 1⟩
/-- TIM_STATUS.orbit_missing, W1C. -/
def TIM_STATUS.orbit_missing : Fld := ⟨Reg.TIM_STATUS, 3, 1⟩
/-- TIM_STATUS.orbit_resync, W1C. -/
def TIM_STATUS.orbit_resync : Fld := ⟨Reg.TIM_STATUS, 4, 1⟩
/-- TIM_STATUS.orbit_wrap, W1C. -/
def TIM_STATUS.orbit_wrap : Fld := ⟨Reg.TIM_STATUS, 5, 1⟩
/-- TIM_STATUS.pps_missing, RO. -/
def TIM_STATUS.pps_missing : Fld := ⟨Reg.TIM_STATUS, 6, 1⟩
/-- TIM_STATUS.pps_missing_seen, W1C. -/
def TIM_STATUS.pps_missing_seen : Fld := ⟨Reg.TIM_STATUS, 7, 1⟩
/-- TIM_STATUS.wall_set_pending, RO. -/
def TIM_STATUS.wall_set_pending : Fld := ⟨Reg.TIM_STATUS, 8, 1⟩
/-- TIM_STATUS.launch_pending, RO. -/
def TIM_STATUS.launch_pending : Fld := ⟨Reg.TIM_STATUS, 9, 1⟩
/-- TIM_STATUS.align_pending, RO. -/
def TIM_STATUS.align_pending : Fld := ⟨Reg.TIM_STATUS, 10, 1⟩
/-- TIM_MCLK_FREQ.khz, RO. -/
def TIM_MCLK_FREQ.khz : Fld := ⟨Reg.TIM_MCLK_FREQ, 0, 16⟩
/-- TIM_SPOOL_LO.count, RO. -/
def TIM_SPOOL_LO.count : Fld := ⟨Reg.TIM_SPOOL_LO, 0, 32⟩
/-- TIM_SPOOL_HI.count, RO. -/
def TIM_SPOOL_HI.count : Fld := ⟨Reg.TIM_SPOOL_HI, 0, 32⟩
/-- TIM_XING.crossing, RO. -/
def TIM_XING.crossing : Fld := ⟨Reg.TIM_XING, 0, 16⟩
/-- TIM_XING.tick, RO. -/
def TIM_XING.tick : Fld := ⟨Reg.TIM_XING, 16, 5⟩
/-- TIM_ORBIT.orbit, RO. -/
def TIM_ORBIT.orbit : Fld := ⟨Reg.TIM_ORBIT, 0, 32⟩
/-- TIM_ORBIT_LEN.len, RW. -/
def TIM_ORBIT_LEN.len : Fld := ⟨Reg.TIM_ORBIT_LEN, 0, 16⟩
/-- TIM_ORBIT_SLIP.slip_crossing, RO. -/
def TIM_ORBIT_SLIP.slip_crossing : Fld := ⟨Reg.TIM_ORBIT_SLIP, 0, 16⟩
/-- TIM_ORBIT_SLIP.slip_count, RO. -/
def TIM_ORBIT_SLIP.slip_count : Fld := ⟨Reg.TIM_ORBIT_SLIP, 16, 16⟩
/-- TIM_ORBIT_MISS.count, RO. -/
def TIM_ORBIT_MISS.count : Fld := ⟨Reg.TIM_ORBIT_MISS, 0, 32⟩
/-- TIM_PPS_CAPTURE_LO.spool, RO. -/
def TIM_PPS_CAPTURE_LO.spool : Fld := ⟨Reg.TIM_PPS_CAPTURE_LO, 0, 32⟩
/-- TIM_PPS_CAPTURE_HI.spool, RO. -/
def TIM_PPS_CAPTURE_HI.spool : Fld := ⟨Reg.TIM_PPS_CAPTURE_HI, 0, 32⟩
/-- TIM_PPS_STAT.early_count, RO. -/
def TIM_PPS_STAT.early_count : Fld := ⟨Reg.TIM_PPS_STAT, 0, 16⟩
/-- TIM_PPS_STAT.narrow_count, RO. -/
def TIM_PPS_STAT.narrow_count : Fld := ⟨Reg.TIM_PPS_STAT, 16, 16⟩
/-- TIM_PPS_WALL_FRAC.frac, RO. -/
def TIM_PPS_WALL_FRAC.frac : Fld := ⟨Reg.TIM_PPS_WALL_FRAC, 0, 32⟩
/-- TIM_WALL_FRAC.frac, RO. -/
def TIM_WALL_FRAC.frac : Fld := ⟨Reg.TIM_WALL_FRAC, 0, 32⟩
/-- TIM_WALL_SEC_LO.sec, RO. -/
def TIM_WALL_SEC_LO.sec : Fld := ⟨Reg.TIM_WALL_SEC_LO, 0, 32⟩
/-- TIM_WALL_SEC_HI.sec, RO. -/
def TIM_WALL_SEC_HI.sec : Fld := ⟨Reg.TIM_WALL_SEC_HI, 0, 16⟩
/-- TIM_WALL_SET_LO.sec, WL. -/
def TIM_WALL_SET_LO.sec : Fld := ⟨Reg.TIM_WALL_SET_LO, 0, 32⟩
/-- TIM_WALL_SET_HI.sec, WL. -/
def TIM_WALL_SET_HI.sec : Fld := ⟨Reg.TIM_WALL_SET_HI, 0, 16⟩
/-- TIM_WALL_RATE_LO.rate, RW. -/
def TIM_WALL_RATE_LO.rate : Fld := ⟨Reg.TIM_WALL_RATE_LO, 0, 32⟩
/-- TIM_WALL_RATE_HI.rate, RW. -/
def TIM_WALL_RATE_HI.rate : Fld := ⟨Reg.TIM_WALL_RATE_HI, 0, 32⟩
/-- TIM_SYNC_PRESET_LO.preset, RW. -/
def TIM_SYNC_PRESET_LO.preset : Fld := ⟨Reg.TIM_SYNC_PRESET_LO, 0, 32⟩
/-- TIM_SYNC_PRESET_HI.preset, RW. -/
def TIM_SYNC_PRESET_HI.preset : Fld := ⟨Reg.TIM_SYNC_PRESET_HI, 0, 32⟩
/-- TIM_LAUNCH_COUNT_LO.count, RO. -/
def TIM_LAUNCH_COUNT_LO.count : Fld := ⟨Reg.TIM_LAUNCH_COUNT_LO, 0, 32⟩
/-- TIM_LAUNCH_COUNT_HI.count, RO. -/
def TIM_LAUNCH_COUNT_HI.count : Fld := ⟨Reg.TIM_LAUNCH_COUNT_HI, 0, 32⟩
/-- TIM_LATE_STAT.discarded, RO. -/
def TIM_LATE_STAT.discarded : Fld := ⟨Reg.TIM_LATE_STAT, 0, 32⟩
/-- TIM_HIST_CLEAR.tags, WL. -/
def TIM_HIST_CLEAR.tags : Fld := ⟨Reg.TIM_HIST_CLEAR, 0, 8⟩
/-- TIM_HIST_CLEAR.gov, WL. -/
def TIM_HIST_CLEAR.gov : Fld := ⟨Reg.TIM_HIST_CLEAR, 8, 1⟩
/-- TIM_HIST_CLEAR.time, WL. -/
def TIM_HIST_CLEAR.time : Fld := ⟨Reg.TIM_HIST_CLEAR, 9, 1⟩
/-- TIM_MENU_LATE.dlat_x, RO. -/
def TIM_MENU_LATE.dlat_x (i : Nat) : Fld := ⟨Reg.TIM_MENU_LATE i, 0, 7⟩
/-- TIM_MENU_LATE.late_policy, RO. -/
def TIM_MENU_LATE.late_policy (i : Nat) : Fld := ⟨Reg.TIM_MENU_LATE i, 8, 1⟩
/-- TIM_MENU_LATE.menu, RO. -/
def TIM_MENU_LATE.menu (i : Nat) : Fld := ⟨Reg.TIM_MENU_LATE i, 12, 4⟩
/-- TIM_MENU_MASK_LO.mask, RO. -/
def TIM_MENU_MASK_LO.mask (i : Nat) : Fld := ⟨Reg.TIM_MENU_MASK_LO i, 0, 32⟩
/-- TIM_MENU_MASK_HI.mask, RO. -/
def TIM_MENU_MASK_HI.mask (i : Nat) : Fld := ⟨Reg.TIM_MENU_MASK_HI i, 0, 32⟩
/-- TIM_MENU_LATE_COUNT.count, RO. -/
def TIM_MENU_LATE_COUNT.count (i : Nat) : Fld := ⟨Reg.TIM_MENU_LATE_COUNT i, 0, 32⟩
/-- TIM_DSLACK_HIST.count, RO. -/
def TIM_DSLACK_HIST.count (i : Nat) (j : Nat) : Fld := ⟨Reg.TIM_DSLACK_HIST i j, 0, 32⟩
/-- TIM_GOV_CFG.margin, RW. -/
def TIM_GOV_CFG.margin (i : Nat) : Fld := ⟨Reg.TIM_GOV_CFG i, 0, 10⟩
/-- TIM_GOV_CFG.hyst, RW. -/
def TIM_GOV_CFG.hyst (i : Nat) : Fld := ⟨Reg.TIM_GOV_CFG i, 10, 8⟩
/-- TIM_GOV_CFG.down_periods, RW. -/
def TIM_GOV_CFG.down_periods (i : Nat) : Fld := ⟨Reg.TIM_GOV_CFG i, 18, 4⟩
/-- TIM_GOV_CFG.up, RW. -/
def TIM_GOV_CFG.up (i : Nat) : Fld := ⟨Reg.TIM_GOV_CFG i, 22, 4⟩
/-- TIM_GOV_CFG.down, RW. -/
def TIM_GOV_CFG.down (i : Nat) : Fld := ⟨Reg.TIM_GOV_CFG i, 26, 4⟩
/-- TIM_GOV_LIMIT.vmin, RW. -/
def TIM_GOV_LIMIT.vmin (i : Nat) : Fld := ⟨Reg.TIM_GOV_LIMIT i, 0, 10⟩
/-- TIM_GOV_LIMIT.vmax, RW. -/
def TIM_GOV_LIMIT.vmax (i : Nat) : Fld := ⟨Reg.TIM_GOV_LIMIT i, 16, 10⟩
/-- TIM_GOV_LIMIT.period_us, RW. -/
def TIM_GOV_LIMIT.period_us (i : Nat) : Fld := ⟨Reg.TIM_GOV_LIMIT i, 26, 6⟩
/-- TIM_GOV_STAT.vset, RO. -/
def TIM_GOV_STAT.vset (i : Nat) : Fld := ⟨Reg.TIM_GOV_STAT i, 0, 10⟩
/-- TIM_GOV_STAT.slack, RO. -/
def TIM_GOV_STAT.slack (i : Nat) : Fld := ⟨Reg.TIM_GOV_STAT i, 10, 1⟩
/-- TIM_GOV_STAT.worst_slack, RO. -/
def TIM_GOV_STAT.worst_slack (i : Nat) : Fld := ⟨Reg.TIM_GOV_STAT i, 16, 13⟩
/-- TIM_GOV_STAT.at_vmax, RO. -/
def TIM_GOV_STAT.at_vmax (i : Nat) : Fld := ⟨Reg.TIM_GOV_STAT i, 29, 1⟩
/-- TIM_GOV_STAT.avs_err, W1C. -/
def TIM_GOV_STAT.avs_err (i : Nat) : Fld := ⟨Reg.TIM_GOV_STAT i, 30, 1⟩
/-- TIM_GOV_STAT.sensor_fail, W1C. -/
def TIM_GOV_STAT.sensor_fail (i : Nat) : Fld := ⟨Reg.TIM_GOV_STAT i, 31, 1⟩
/-- TIM_GOV_MINSLACK.minslack, RO. -/
def TIM_GOV_MINSLACK.minslack (i : Nat) : Fld := ⟨Reg.TIM_GOV_MINSLACK i, 0, 16⟩
/-- TIM_WINDSOCK.delay, RO. -/
def TIM_WINDSOCK.delay (i : Nat) (j : Nat) : Fld := ⟨Reg.TIM_WINDSOCK i j, 0, 12⟩
/-- TIM_WINDSOCK.valid, RO. -/
def TIM_WINDSOCK.valid (i : Nat) (j : Nat) : Fld := ⟨Reg.TIM_WINDSOCK i j, 31, 1⟩
/-- INL_XOFFSET.xoffset, RW. -/
def INL_XOFFSET.xoffset (i : Nat) : Fld := ⟨Reg.INL_XOFFSET i, 0, 12⟩
/-- INL_EXPECT_LO.expect, RO. -/
def INL_EXPECT_LO.expect (i : Nat) : Fld := ⟨Reg.INL_EXPECT_LO i, 0, 32⟩
/-- INL_EXPECT_HI.expect, RO. -/
def INL_EXPECT_HI.expect (i : Nat) : Fld := ⟨Reg.INL_EXPECT_HI i, 0, 16⟩
/-- INL_LOCK_LO.locked, RO. -/
def INL_LOCK_LO.locked (i : Nat) : Fld := ⟨Reg.INL_LOCK_LO i, 0, 32⟩
/-- INL_LOCK_HI.locked, RO. -/
def INL_LOCK_HI.locked (i : Nat) : Fld := ⟨Reg.INL_LOCK_HI i, 0, 16⟩
/-- INL_CNT_CLEAR.all, WL. -/
def INL_CNT_CLEAR.all (i : Nat) : Fld := ⟨Reg.INL_CNT_CLEAR i, 0, 1⟩
/-- INL_LANE_CFG.en, RW. -/
def INL_LANE_CFG.en (i : Nat) (j : Nat) : Fld := ⟨Reg.INL_LANE_CFG i j, 0, 1⟩
/-- INL_LANE_CFG.mode, RW. -/
def INL_LANE_CFG.mode (i : Nat) (j : Nat) : Fld := ⟨Reg.INL_LANE_CFG i j, 1, 1⟩
/-- INL_LANE_CFG.rx_invert, RW. -/
def INL_LANE_CFG.rx_invert (i : Nat) (j : Nat) : Fld := ⟨Reg.INL_LANE_CFG i j, 2, 1⟩
/-- INL_LANE_CFG.join_at_orbit, RW. -/
def INL_LANE_CFG.join_at_orbit (i : Nat) (j : Nat) : Fld := ⟨Reg.INL_LANE_CFG i j, 3, 1⟩
/-- INL_LANE_CFG.evt_en, RW. -/
def INL_LANE_CFG.evt_en (i : Nat) (j : Nat) : Fld := ⟨Reg.INL_LANE_CFG i j, 4, 5⟩
/-- INL_LANE_ALIGN.depth, RW. -/
def INL_LANE_ALIGN.depth (i : Nat) (j : Nat) : Fld := ⟨Reg.INL_LANE_ALIGN i j, 0, 6⟩
/-- INL_LANE_ALIGN.win, RW. -/
def INL_LANE_ALIGN.win (i : Nat) (j : Nat) : Fld := ⟨Reg.INL_LANE_ALIGN i j, 8, 2⟩
/-- INL_LANE_MARKER.marker, RW. -/
def INL_LANE_MARKER.marker (i : Nat) (j : Nat) : Fld := ⟨Reg.INL_LANE_MARKER i j, 0, 32⟩
/-- INL_LANE_STATE.state, RO. -/
def INL_LANE_STATE.state (i : Nat) (j : Nat) : Fld := ⟨Reg.INL_LANE_STATE i j, 0, 3⟩
/-- INL_LANE_STATE.crc_fail_64, RO. -/
def INL_LANE_STATE.crc_fail_64 (i : Nat) (j : Nat) : Fld := ⟨Reg.INL_LANE_STATE i j, 4, 7⟩
/-- INL_LANE_STATE.cand_count, RO. -/
def INL_LANE_STATE.cand_count (i : Nat) (j : Nat) : Fld := ⟨Reg.INL_LANE_STATE i j, 12, 3⟩
/-- INL_LANE_STATE.miss_run, RO. -/
def INL_LANE_STATE.miss_run (i : Nat) (j : Nat) : Fld := ⟨Reg.INL_LANE_STATE i j, 16, 3⟩
/-- INL_LANE_EVT.lock_gained, W1C. -/
def INL_LANE_EVT.lock_gained (i : Nat) (j : Nat) : Fld := ⟨Reg.INL_LANE_EVT i j, 0, 1⟩
/-- INL_LANE_EVT.lock_lost, W1C. -/
def INL_LANE_EVT.lock_lost (i : Nat) (j : Nat) : Fld := ⟨Reg.INL_LANE_EVT i j, 1, 1⟩
/-- INL_LANE_EVT.crc_burst, W1C. -/
def INL_LANE_EVT.crc_burst (i : Nat) (j : Nat) : Fld := ⟨Reg.INL_LANE_EVT i j, 2, 1⟩
/-- INL_LANE_EVT.cfg_err, W1C. -/
def INL_LANE_EVT.cfg_err (i : Nat) (j : Nat) : Fld := ⟨Reg.INL_LANE_EVT i j, 3, 1⟩
/-- INL_LANE_EVT.rate_err, W1C. -/
def INL_LANE_EVT.rate_err (i : Nat) (j : Nat) : Fld := ⟨Reg.INL_LANE_EVT i j, 4, 1⟩
/-- INL_LANE_ERR0.sync_err, RO. -/
def INL_LANE_ERR0.sync_err (i : Nat) (j : Nat) : Fld := ⟨Reg.INL_LANE_ERR0 i j, 0, 16⟩
/-- INL_LANE_ERR0.crc_err, RO. -/
def INL_LANE_ERR0.crc_err (i : Nat) (j : Nat) : Fld := ⟨Reg.INL_LANE_ERR0 i j, 16, 16⟩
/-- INL_LANE_ERR1.len_err, RO. -/
def INL_LANE_ERR1.len_err (i : Nat) (j : Nat) : Fld := ⟨Reg.INL_LANE_ERR1 i j, 0, 16⟩
/-- INL_LANE_ERR1.form_err, RO. -/
def INL_LANE_ERR1.form_err (i : Nat) (j : Nat) : Fld := ⟨Reg.INL_LANE_ERR1 i j, 16, 16⟩
/-- INL_LANE_ERR2.win_err, RO. -/
def INL_LANE_ERR2.win_err (i : Nat) (j : Nat) : Fld := ⟨Reg.INL_LANE_ERR2 i j, 0, 16⟩
/-- INL_LANE_ERR2.dup, RO. -/
def INL_LANE_ERR2.dup (i : Nat) (j : Nat) : Fld := ⟨Reg.INL_LANE_ERR2 i j, 16, 16⟩
/-- INL_LANE_ERR3.missing, RO. -/
def INL_LANE_ERR3.missing (i : Nat) (j : Nat) : Fld := ⟨Reg.INL_LANE_ERR3 i j, 0, 16⟩
/-- INL_LANE_ERR3.bad, RO. -/
def INL_LANE_ERR3.bad (i : Nat) (j : Nat) : Fld := ⟨Reg.INL_LANE_ERR3 i j, 16, 16⟩
/-- INL_LANE_ERR4.blk_loss, RO. -/
def INL_LANE_ERR4.blk_loss (i : Nat) (j : Nat) : Fld := ⟨Reg.INL_LANE_ERR4 i j, 0, 16⟩
/-- INL_LANE_ERR4.frm_loss, RO. -/
def INL_LANE_ERR4.frm_loss (i : Nat) (j : Nat) : Fld := ⟨Reg.INL_LANE_ERR4 i j, 16, 16⟩
/-- INL_LANE_CAND.cand_drop_crc, RO. -/
def INL_LANE_CAND.cand_drop_crc (i : Nat) (j : Nat) : Fld := ⟨Reg.INL_LANE_CAND i j, 0, 16⟩
/-- INL_LANE_CAND.cand_overflow, RO. -/
def INL_LANE_CAND.cand_overflow (i : Nat) (j : Nat) : Fld := ⟨Reg.INL_LANE_CAND i j, 16, 16⟩
/-- INL_LANE_HDR.xing_lo, RO. -/
def INL_LANE_HDR.xing_lo (i : Nat) (j : Nat) : Fld := ⟨Reg.INL_LANE_HDR i j, 0, 12⟩
/-- INL_LANE_HDR.plen, RO. -/
def INL_LANE_HDR.plen (i : Nat) (j : Nat) : Fld := ⟨Reg.INL_LANE_HDR i j, 12, 7⟩
/-- INL_LANE_HDR.fe_flags, RO. -/
def INL_LANE_HDR.fe_flags (i : Nat) (j : Nat) : Fld := ⟨Reg.INL_LANE_HDR i j, 19, 8⟩
/-- INL_LANE_SRC.source_id, RO. -/
def INL_LANE_SRC.source_id (i : Nat) (j : Nat) : Fld := ⟨Reg.INL_LANE_SRC i j, 0, 16⟩
/-- RDL_STATUS.cfg_err, W1C. -/
def RDL_STATUS.cfg_err : Fld := ⟨Reg.RDL_STATUS, 0, 1⟩
/-- RDL_STATUS.clamp_seen, W1C. -/
def RDL_STATUS.clamp_seen : Fld := ⟨Reg.RDL_STATUS, 1, 1⟩
/-- RDL_STATUS.hold_seen, W1C. -/
def RDL_STATUS.hold_seen : Fld := ⟨Reg.RDL_STATUS, 2, 1⟩
/-- RDL_STATUS.mse_sat_seen, W1C. -/
def RDL_STATUS.mse_sat_seen : Fld := ⟨Reg.RDL_STATUS, 3, 1⟩
/-- RDL_INT_EN.en, RW. -/
def RDL_INT_EN.en : Fld := ⟨Reg.RDL_INT_EN, 0, 4⟩
/-- RDL_CLAMP_COUNT.count, RO. -/
def RDL_CLAMP_COUNT.count : Fld := ⟨Reg.RDL_CLAMP_COUNT, 0, 32⟩
/-- RDL_HOLD_COUNT.count, RO. -/
def RDL_HOLD_COUNT.count : Fld := ⟨Reg.RDL_HOLD_COUNT, 0, 32⟩
/-- RDL_MENU_SSEL.scale_set, RW. -/
def RDL_MENU_SSEL.scale_set (i : Nat) : Fld := ⟨Reg.RDL_MENU_SSEL i, 0, 1⟩
/-- RDL_CH_FIELD.bit_off, RW. -/
def RDL_CH_FIELD.bit_off (i : Nat) : Fld := ⟨Reg.RDL_CH_FIELD i, 0, 10⟩
/-- RDL_CH_FIELD.width_m1, RW. -/
def RDL_CH_FIELD.width_m1 (i : Nat) : Fld := ⟨Reg.RDL_CH_FIELD i, 10, 5⟩
/-- RDL_CH_FIELD.signed, RW. -/
def RDL_CH_FIELD.signed (i : Nat) : Fld := ⟨Reg.RDL_CH_FIELD i, 15, 1⟩
/-- RDL_CH_FIELD.src, RW. -/
def RDL_CH_FIELD.src (i : Nat) : Fld := ⟨Reg.RDL_CH_FIELD i, 16, 1⟩
/-- RDL_CH_FIELD.fmt, RW. -/
def RDL_CH_FIELD.fmt (i : Nat) : Fld := ⟨Reg.RDL_CH_FIELD i, 17, 2⟩
/-- RDL_CH_FIELD.sat, RW. -/
def RDL_CH_FIELD.sat (i : Nat) : Fld := ⟨Reg.RDL_CH_FIELD i, 19, 1⟩
/-- RDL_CH_FIELD.track, RW. -/
def RDL_CH_FIELD.track (i : Nat) : Fld := ⟨Reg.RDL_CH_FIELD i, 20, 2⟩
/-- RDL_CH_FIELD.en, RW. -/
def RDL_CH_FIELD.en (i : Nat) : Fld := ⟨Reg.RDL_CH_FIELD i, 31, 1⟩
/-- RDL_CH_SCALE0.m, RW. -/
def RDL_CH_SCALE0.m (i : Nat) : Fld := ⟨Reg.RDL_CH_SCALE0 i, 0, 10⟩
/-- RDL_CH_SCALE0.e, RW. -/
def RDL_CH_SCALE0.e (i : Nat) : Fld := ⟨Reg.RDL_CH_SCALE0 i, 10, 6⟩
/-- RDL_CH_SCALE0.zp, RW. -/
def RDL_CH_SCALE0.zp (i : Nat) : Fld := ⟨Reg.RDL_CH_SCALE0 i, 16, 16⟩
/-- RDL_CH_SCALE1.m, RW. -/
def RDL_CH_SCALE1.m (i : Nat) : Fld := ⟨Reg.RDL_CH_SCALE1 i, 0, 10⟩
/-- RDL_CH_SCALE1.e, RW. -/
def RDL_CH_SCALE1.e (i : Nat) : Fld := ⟨Reg.RDL_CH_SCALE1 i, 10, 6⟩
/-- RDL_CH_SCALE1.zp, RW. -/
def RDL_CH_SCALE1.zp (i : Nat) : Fld := ⟨Reg.RDL_CH_SCALE1 i, 16, 16⟩
/-- RDL_CH_FILL.fill, RW. -/
def RDL_CH_FILL.fill (i : Nat) : Fld := ⟨Reg.RDL_CH_FILL i, 0, 16⟩
/-- RDL_CH_LIMIT.scale_min, RW. -/
def RDL_CH_LIMIT.scale_min (i : Nat) : Fld := ⟨Reg.RDL_CH_LIMIT i, 0, 16⟩
/-- RDL_CH_LIMIT.scale_max, RW. -/
def RDL_CH_LIMIT.scale_max (i : Nat) : Fld := ⟨Reg.RDL_CH_LIMIT i, 16, 16⟩
/-- RDL_CH_TRACK.target, RW. -/
def RDL_CH_TRACK.target (i : Nat) : Fld := ⟨Reg.RDL_CH_TRACK i, 0, 15⟩
/-- RDL_CH_TRACK.clamped, RO. -/
def RDL_CH_TRACK.clamped (i : Nat) : Fld := ⟨Reg.RDL_CH_TRACK i, 16, 1⟩
/-- RDL_CH_TRACK.held, RO. -/
def RDL_CH_TRACK.held (i : Nat) : Fld := ⟨Reg.RDL_CH_TRACK i, 17, 1⟩
/-- RDL_CH_TMAX.max, RO. -/
def RDL_CH_TMAX.max (i : Nat) : Fld := ⟨Reg.RDL_CH_TMAX i, 0, 32⟩
/-- RDL_CH_MSE_LO.sum, RO. -/
def RDL_CH_MSE_LO.sum (i : Nat) : Fld := ⟨Reg.RDL_CH_MSE_LO i, 0, 32⟩
/-- RDL_CH_MSE_HI.sum, RO. -/
def RDL_CH_MSE_HI.sum (i : Nat) : Fld := ⟨Reg.RDL_CH_MSE_HI i, 0, 16⟩
/-- RDL_CH_MSE_HI.sat, RO. -/
def RDL_CH_MSE_HI.sat (i : Nat) : Fld := ⟨Reg.RDL_CH_MSE_HI i, 31, 1⟩
/-- RDL_CH_CNT.count, RO. -/
def RDL_CH_CNT.count (i : Nat) : Fld := ⟨Reg.RDL_CH_CNT i, 0, 32⟩
/-- RDL_CH_STAT.sat_count, RO. -/
def RDL_CH_STAT.sat_count (i : Nat) : Fld := ⟨Reg.RDL_CH_STAT i, 0, 16⟩
/-- RDL_CH_STAT.geom_err, RO. -/
def RDL_CH_STAT.geom_err (i : Nat) : Fld := ⟨Reg.RDL_CH_STAT i, 16, 16⟩
/-- TRL_DIE_INFO.die, RO. -/
def TRL_DIE_INFO.die (i : Nat) : Fld := ⟨Reg.TRL_DIE_INFO i, 0, 4⟩
/-- TRL_DIE_INFO.die_row, RO. -/
def TRL_DIE_INFO.die_row (i : Nat) : Fld := ⟨Reg.TRL_DIE_INFO i, 4, 2⟩
/-- TRL_DIE_INFO.die_col, RO. -/
def TRL_DIE_INFO.die_col (i : Nat) : Fld := ⟨Reg.TRL_DIE_INFO i, 6, 2⟩
/-- TRL_DIE_INFO.grade_m, RO. -/
def TRL_DIE_INFO.grade_m (i : Nat) : Fld := ⟨Reg.TRL_DIE_INFO i, 8, 1⟩
/-- TRL_DIE_INFO.stepping, RO. -/
def TRL_DIE_INFO.stepping (i : Nat) : Fld := ⟨Reg.TRL_DIE_INFO i, 12, 4⟩
/-- TRL_CU_MAP0.map, RO. -/
def TRL_CU_MAP0.map (i : Nat) : Fld := ⟨Reg.TRL_CU_MAP0 i, 0, 32⟩
/-- TRL_CU_MAP1.map, RO. -/
def TRL_CU_MAP1.map (i : Nat) : Fld := ⟨Reg.TRL_CU_MAP1 i, 0, 32⟩
/-- TRL_CU_MAP2.map, RO. -/
def TRL_CU_MAP2.map (i : Nat) : Fld := ⟨Reg.TRL_CU_MAP2 i, 0, 8⟩
/-- TRL_OVF_COUNT.count, RO. -/
def TRL_OVF_COUNT.count (i : Nat) : Fld := ⟨Reg.TRL_OVF_COUNT i, 0, 32⟩
/-- TRL_ECC_CORR.count, RO. -/
def TRL_ECC_CORR.count (i : Nat) : Fld := ⟨Reg.TRL_ECC_CORR i, 0, 32⟩
/-- TRL_BRIDGE_RETRY.count, RO. -/
def TRL_BRIDGE_RETRY.count (i : Nat) : Fld := ⟨Reg.TRL_BRIDGE_RETRY i, 0, 16⟩
/-- TRL_CNT_CLEAR.all, WL. -/
def TRL_CNT_CLEAR.all (i : Nat) : Fld := ⟨Reg.TRL_CNT_CLEAR i, 0, 1⟩
/-- TRL_SITE_CUR.slot, RO. -/
def TRL_SITE_CUR.slot (i : Nat) (j : Nat) : Fld := ⟨Reg.TRL_SITE_CUR i j, 0, 4⟩
/-- TRL_SITE_CUR.tag, RO. -/
def TRL_SITE_CUR.tag (i : Nat) (j : Nat) : Fld := ⟨Reg.TRL_SITE_CUR i j, 4, 3⟩
/-- TRL_SITE_CUR.context, RO. -/
def TRL_SITE_CUR.context (i : Nat) (j : Nat) : Fld := ⟨Reg.TRL_SITE_CUR i j, 7, 4⟩
/-- TRL_SITE_CUR.busy, RO. -/
def TRL_SITE_CUR.busy (i : Nat) (j : Nat) : Fld := ⟨Reg.TRL_SITE_CUR i j, 11, 1⟩
/-- TRL_SITE_CUR.kind, RO. -/
def TRL_SITE_CUR.kind (i : Nat) (j : Nat) : Fld := ⟨Reg.TRL_SITE_CUR i j, 12, 1⟩
/-- TRL_SITE_CNT01.cnt0, RO. -/
def TRL_SITE_CNT01.cnt0 (i : Nat) (j : Nat) : Fld := ⟨Reg.TRL_SITE_CNT01 i j, 0, 16⟩
/-- TRL_SITE_CNT01.cnt1, RO. -/
def TRL_SITE_CNT01.cnt1 (i : Nat) (j : Nat) : Fld := ⟨Reg.TRL_SITE_CNT01 i j, 16, 16⟩
/-- TRL_SITE_CNT23.cnt2, RO. -/
def TRL_SITE_CNT23.cnt2 (i : Nat) (j : Nat) : Fld := ⟨Reg.TRL_SITE_CNT23 i j, 0, 16⟩
/-- TRL_SITE_CNT23.cnt3, RO. -/
def TRL_SITE_CNT23.cnt3 (i : Nat) (j : Nat) : Fld := ⟨Reg.TRL_SITE_CNT23 i j, 16, 16⟩
/-- TRL_SITE_QOCC.occ, RO. -/
def TRL_SITE_QOCC.occ (i : Nat) (j : Nat) : Fld := ⟨Reg.TRL_SITE_QOCC i j, 0, 24⟩
/-- TRL_SCHED_CFG.margin_pct, RW. -/
def TRL_SCHED_CFG.margin_pct (i : Nat) : Fld := ⟨Reg.TRL_SCHED_CFG i, 0, 8⟩
/-- TRL_SCHED_CFG.sched_en, RW. -/
def TRL_SCHED_CFG.sched_en (i : Nat) : Fld := ⟨Reg.TRL_SCHED_CFG i, 8, 1⟩
/-- TRL_STALL_CFG.stall_ticks, RW. -/
def TRL_STALL_CFG.stall_ticks (i : Nat) : Fld := ⟨Reg.TRL_STALL_CFG i, 0, 12⟩
/-- TRL_FAULT_CFG.auto_prune, RW. -/
def TRL_FAULT_CFG.auto_prune (i : Nat) : Fld := ⟨Reg.TRL_FAULT_CFG i, 0, 1⟩
/-- TRL_FAULT_CFG.fault_int, RW. -/
def TRL_FAULT_CFG.fault_int (i : Nat) : Fld := ⟨Reg.TRL_FAULT_CFG i, 1, 1⟩
/-- TRL_FAULT_CFG.spill_int, RW. -/
def TRL_FAULT_CFG.spill_int (i : Nat) : Fld := ⟨Reg.TRL_FAULT_CFG i, 2, 1⟩
/-- TRL_FAULT_STAT.suppressed, RO. -/
def TRL_FAULT_STAT.suppressed (i : Nat) : Fld := ⟨Reg.TRL_FAULT_STAT i, 0, 16⟩
/-- TRL_FAULT_STAT.dropped, RO. -/
def TRL_FAULT_STAT.dropped (i : Nat) : Fld := ⟨Reg.TRL_FAULT_STAT i, 16, 16⟩
/-- TRL_FAULT_HEAD.head, RO. -/
def TRL_FAULT_HEAD.head (i : Nat) : Fld := ⟨Reg.TRL_FAULT_HEAD i, 0, 16⟩
/-- TRL_FAULT_TAIL.tail, RW. -/
def TRL_FAULT_TAIL.tail (i : Nat) : Fld := ⟨Reg.TRL_FAULT_TAIL i, 0, 16⟩
/-- TRL_SPILL_STAT.spills, RO. -/
def TRL_SPILL_STAT.spills (i : Nat) : Fld := ⟨Reg.TRL_SPILL_STAT i, 0, 16⟩
/-- TRL_SPILL_STAT.interlock, RO. -/
def TRL_SPILL_STAT.interlock (i : Nat) : Fld := ⟨Reg.TRL_SPILL_STAT i, 16, 16⟩
/-- TRL_SCHED_LOG.over_bound, RO. -/
def TRL_SCHED_LOG.over_bound (i : Nat) : Fld := ⟨Reg.TRL_SCHED_LOG i, 0, 32⟩
/-- TRL_SPILL_LAST.unit, RO. -/
def TRL_SPILL_LAST.unit (i : Nat) : Fld := ⟨Reg.TRL_SPILL_LAST i, 0, 11⟩
/-- TRL_SPILL_LAST.queue, RO. -/
def TRL_SPILL_LAST.queue (i : Nat) : Fld := ⟨Reg.TRL_SPILL_LAST i, 11, 3⟩
/-- TRL_SPILL_LAST.tokens, RO. -/
def TRL_SPILL_LAST.tokens (i : Nat) : Fld := ⟨Reg.TRL_SPILL_LAST i, 14, 4⟩
/-- TRL_SPILL_LAST.mu_col, RO. -/
def TRL_SPILL_LAST.mu_col (i : Nat) : Fld := ⟨Reg.TRL_SPILL_LAST i, 18, 4⟩
/-- TRL_FAULT_EVT.fault, W1C. -/
def TRL_FAULT_EVT.fault (i : Nat) : Fld := ⟨Reg.TRL_FAULT_EVT i, 0, 1⟩
/-- TRL_FAULT_EVT.spill, W1C. -/
def TRL_FAULT_EVT.spill (i : Nat) : Fld := ⟨Reg.TRL_FAULT_EVT i, 1, 1⟩
/-- TRL_FSTAT_CLEAR.all, WL. -/
def TRL_FSTAT_CLEAR.all (i : Nat) : Fld := ⟨Reg.TRL_FSTAT_CLEAR i, 0, 1⟩
/-- TRL_FAULT_LOG.word, RO. -/
def TRL_FAULT_LOG.word (i : Nat) (j : Nat) (k : Nat) : Fld := ⟨Reg.TRL_FAULT_LOG i j k, 0, 32⟩
/-- TRL_SITE_FSTAT.recent, RO. -/
def TRL_SITE_FSTAT.recent (i : Nat) (j : Nat) : Fld := ⟨Reg.TRL_SITE_FSTAT i j, 0, 2⟩
/-- TRL_SITE_FSTAT.quarantined, RO. -/
def TRL_SITE_FSTAT.quarantined (i : Nat) (j : Nat) : Fld := ⟨Reg.TRL_SITE_FSTAT i j, 2, 1⟩
/-- TRL_SITE_FSTAT.prune_pending, RO. -/
def TRL_SITE_FSTAT.prune_pending (i : Nat) (j : Nat) : Fld := ⟨Reg.TRL_SITE_FSTAT i j, 3, 1⟩
/-- TRL_SITE_FSTAT.last_code, RO. -/
def TRL_SITE_FSTAT.last_code (i : Nat) (j : Nat) : Fld := ⟨Reg.TRL_SITE_FSTAT i j, 8, 8⟩
/-- TRL_SITE_SPILL.used, RO. -/
def TRL_SITE_SPILL.used (i : Nat) (j : Nat) : Fld := ⟨Reg.TRL_SITE_SPILL i j, 0, 7⟩
/-- TRL_SITE_SPILL.high_water, RO. -/
def TRL_SITE_SPILL.high_water (i : Nat) (j : Nat) : Fld := ⟨Reg.TRL_SITE_SPILL i j, 8, 7⟩
/-- TRL_SITE_WAITMAX.max, RO. -/
def TRL_SITE_WAITMAX.max (i : Nat) (j : Nat) : Fld := ⟨Reg.TRL_SITE_WAITMAX i j, 0, 16⟩
/-- TRL_SITE_FCOUNT.count, RO. -/
def TRL_SITE_FCOUNT.count (i : Nat) (j : Nat) : Fld := ⟨Reg.TRL_SITE_FCOUNT i j, 0, 32⟩
/-- HUB_IMG_ID.id, RO. -/
def HUB_IMG_ID.id : Fld := ⟨Reg.HUB_IMG_ID, 0, 32⟩
/-- HUB_IMG_STAT.valid, RO. -/
def HUB_IMG_STAT.valid : Fld := ⟨Reg.HUB_IMG_STAT, 0, 1⟩
/-- HUB_IMG_STAT.unfit, RO. -/
def HUB_IMG_STAT.unfit : Fld := ⟨Reg.HUB_IMG_STAT, 1, 1⟩
/-- HUB_IMG_STAT.fill_busy, RO. -/
def HUB_IMG_STAT.fill_busy : Fld := ⟨Reg.HUB_IMG_STAT, 2, 1⟩
/-- HUB_IMG_STAT.fill_bank, RO. -/
def HUB_IMG_STAT.fill_bank : Fld := ⟨Reg.HUB_IMG_STAT, 3, 1⟩
/-- HUB_IMG_STAT.fill_set, RO. -/
def HUB_IMG_STAT.fill_set : Fld := ⟨Reg.HUB_IMG_STAT, 4, 3⟩
/-- HUB_IMG_STAT.fallow_busy, RO. -/
def HUB_IMG_STAT.fallow_busy : Fld := ⟨Reg.HUB_IMG_STAT, 7, 1⟩
/-- HUB_IMG_STAT.load_status, RO. -/
def HUB_IMG_STAT.load_status : Fld := ⟨Reg.HUB_IMG_STAT, 8, 8⟩
/-- HUB_IMG_STAT.bank0_set, RO. -/
def HUB_IMG_STAT.bank0_set : Fld := ⟨Reg.HUB_IMG_STAT, 16, 3⟩
/-- HUB_IMG_STAT.bank1_set, RO. -/
def HUB_IMG_STAT.bank1_set : Fld := ⟨Reg.HUB_IMG_STAT, 20, 3⟩
/-- HUB_IMG_STAT.bank1_valid, RO. -/
def HUB_IMG_STAT.bank1_valid : Fld := ⟨Reg.HUB_IMG_STAT, 23, 1⟩
/-- HUB_IMG_ERRLOC.step, RO. -/
def HUB_IMG_ERRLOC.step : Fld := ⟨Reg.HUB_IMG_ERRLOC, 0, 4⟩
/-- HUB_IMG_ERRLOC.section, RO. -/
def HUB_IMG_ERRLOC.section : Fld := ⟨Reg.HUB_IMG_ERRLOC, 8, 8⟩
/-- HUB_IMG_ERRLOC.unit, RO. -/
def HUB_IMG_ERRLOC.unit : Fld := ⟨Reg.HUB_IMG_ERRLOC, 16, 11⟩
/-- HUB_IMG_ERROFF.offset, RO. -/
def HUB_IMG_ERROFF.offset : Fld := ⟨Reg.HUB_IMG_ERROFF, 0, 32⟩
/-- HUB_IMG_DIGEST.digest, RO. -/
def HUB_IMG_DIGEST.digest (i : Nat) : Fld := ⟨Reg.HUB_IMG_DIGEST i, 0, 32⟩
/-- HUB_MENU_CUR.cur_tag, RO. -/
def HUB_MENU_CUR.cur_tag : Fld := ⟨Reg.HUB_MENU_CUR, 0, 3⟩
/-- HUB_MENU_CUR.pend_tag, RO. -/
def HUB_MENU_CUR.pend_tag : Fld := ⟨Reg.HUB_MENU_CUR, 4, 3⟩
/-- HUB_MENU_CUR.pend_valid, RO. -/
def HUB_MENU_CUR.pend_valid : Fld := ⟨Reg.HUB_MENU_CUR, 7, 1⟩
/-- HUB_MENU_SWITCH_LO.xing, RO. -/
def HUB_MENU_SWITCH_LO.xing : Fld := ⟨Reg.HUB_MENU_SWITCH_LO, 0, 32⟩
/-- HUB_MENU_SWITCH_HI.xing, RO. -/
def HUB_MENU_SWITCH_HI.xing : Fld := ⟨Reg.HUB_MENU_SWITCH_HI, 0, 27⟩
/-- HUB_MENU_INFO.slots_ready, RO. -/
def HUB_MENU_INFO.slots_ready (i : Nat) : Fld := ⟨Reg.HUB_MENU_INFO i, 0, 1⟩
/-- HUB_MENU_INFO.weights_ready, RO. -/
def HUB_MENU_INFO.weights_ready (i : Nat) : Fld := ⟨Reg.HUB_MENU_INFO i, 1, 1⟩
/-- HUB_MENU_INFO.resident, RO. -/
def HUB_MENU_INFO.resident (i : Nat) : Fld := ⟨Reg.HUB_MENU_INFO i, 2, 1⟩
/-- HUB_MENU_INFO.in_use, RO. -/
def HUB_MENU_INFO.in_use (i : Nat) : Fld := ⟨Reg.HUB_MENU_INFO i, 3, 1⟩
/-- HUB_MENU_INFO.bank, RO. -/
def HUB_MENU_INFO.bank (i : Nat) : Fld := ⟨Reg.HUB_MENU_INFO i, 4, 1⟩
/-- HUB_MENU_INFO.fold, RO. -/
def HUB_MENU_INFO.fold (i : Nat) : Fld := ⟨Reg.HUB_MENU_INFO i, 5, 4⟩
/-- HUB_MENU_INFO.menu, RO. -/
def HUB_MENU_INFO.menu (i : Nat) : Fld := ⟨Reg.HUB_MENU_INFO i, 12, 4⟩
/-- HUB_MENU_INFO.unfit, RO. -/
def HUB_MENU_INFO.unfit (i : Nat) : Fld := ⟨Reg.HUB_MENU_INFO i, 16, 1⟩
/-- HUB_ID.vendor, RO. -/
def HUB_ID.vendor : Fld := ⟨Reg.HUB_ID, 0, 16⟩
/-- HUB_ID.device, RO. -/
def HUB_ID.device : Fld := ⟨Reg.HUB_ID, 16, 16⟩
/-- HUB_REV.stepping, RO. -/
def HUB_REV.stepping : Fld := ⟨Reg.HUB_REV, 0, 4⟩
/-- HUB_REV.grade_m, RO. -/
def HUB_REV.grade_m : Fld := ⟨Reg.HUB_REV, 4, 1⟩
/-- HUB_FW_VER.patch, RO. -/
def HUB_FW_VER.patch : Fld := ⟨Reg.HUB_FW_VER, 0, 8⟩
/-- HUB_FW_VER.minor, RO. -/
def HUB_FW_VER.minor : Fld := ⟨Reg.HUB_FW_VER, 8, 8⟩
/-- HUB_FW_VER.major, RO. -/
def HUB_FW_VER.major : Fld := ⟨Reg.HUB_FW_VER, 16, 8⟩
/-- HUB_SERIAL_LO.serial, RO. -/
def HUB_SERIAL_LO.serial : Fld := ⟨Reg.HUB_SERIAL_LO, 0, 32⟩
/-- HUB_SERIAL_HI.serial, RO. -/
def HUB_SERIAL_HI.serial : Fld := ⟨Reg.HUB_SERIAL_HI, 0, 32⟩
/-- HUB_STATE.state, RO. -/
def HUB_STATE.state : Fld := ⟨Reg.HUB_STATE, 0, 4⟩
/-- HUB_STATE.prev, RO. -/
def HUB_STATE.prev : Fld := ⟨Reg.HUB_STATE, 4, 4⟩
/-- HUB_STATE.fault_cause, RO. -/
def HUB_STATE.fault_cause : Fld := ⟨Reg.HUB_STATE, 8, 8⟩
/-- HUB_STATE.changes, RO. -/
def HUB_STATE.changes : Fld := ⟨Reg.HUB_STATE, 16, 16⟩
/-- HUB_STATE_EVT.change, W1C. -/
def HUB_STATE_EVT.change : Fld := ⟨Reg.HUB_STATE_EVT, 0, 1⟩
/-- HUB_ACC_ERR.count, RO. -/
def HUB_ACC_ERR.count : Fld := ⟨Reg.HUB_ACC_ERR, 0, 16⟩
/-- HUB_ACC_ERR.seen, W1C. -/
def HUB_ACC_ERR.seen : Fld := ⟨Reg.HUB_ACC_ERR, 16, 1⟩
/-- HUB_ACC_ADDR.offset, RO. -/
def HUB_ACC_ADDR.offset : Fld := ⟨Reg.HUB_ACC_ADDR, 0, 32⟩
/-- HUB_ATLAS_BASE.base, RW. -/
def HUB_ATLAS_BASE.base : Fld := ⟨Reg.HUB_ATLAS_BASE, 0, 15⟩
/-- HUB_INT_EN.en, RW. -/
def HUB_INT_EN.en : Fld := ⟨Reg.HUB_INT_EN, 0, 7⟩
/-- HUB_SCRATCH.value, RW. -/
def HUB_SCRATCH.value (i : Nat) : Fld := ⟨Reg.HUB_SCRATCH i, 0, 32⟩
/-- HUB_QP_CFG.en, RW. -/
def HUB_QP_CFG.en (i : Nat) : Fld := ⟨Reg.HUB_QP_CFG i, 0, 1⟩
/-- HUB_QP_CFG.prio, RW. -/
def HUB_QP_CFG.prio (i : Nat) : Fld := ⟨Reg.HUB_QP_CFG i, 1, 2⟩
/-- HUB_QP_CFG.phys, RW. -/
def HUB_QP_CFG.phys (i : Nat) : Fld := ⟨Reg.HUB_QP_CFG i, 3, 1⟩
/-- HUB_QP_CFG.int_sel, RW. -/
def HUB_QP_CFG.int_sel (i : Nat) : Fld := ⟨Reg.HUB_QP_CFG i, 4, 2⟩
/-- HUB_QP_CFG.notify_all, RW. -/
def HUB_QP_CFG.notify_all (i : Nat) : Fld := ⟨Reg.HUB_QP_CFG i, 6, 1⟩
/-- HUB_QP_CFG.depth_m1, RW. -/
def HUB_QP_CFG.depth_m1 (i : Nat) : Fld := ⟨Reg.HUB_QP_CFG i, 16, 12⟩
/-- HUB_QP_STAT.sq_head, RO. -/
def HUB_QP_STAT.sq_head (i : Nat) : Fld := ⟨Reg.HUB_QP_STAT i, 0, 12⟩
/-- HUB_QP_STAT.running, RO. -/
def HUB_QP_STAT.running (i : Nat) : Fld := ⟨Reg.HUB_QP_STAT i, 16, 1⟩
/-- HUB_QP_STAT.halted, RO. -/
def HUB_QP_STAT.halted (i : Nat) : Fld := ⟨Reg.HUB_QP_STAT i, 17, 1⟩
/-- HUB_QP_STAT.db_err, W1C. -/
def HUB_QP_STAT.db_err (i : Nat) : Fld := ⟨Reg.HUB_QP_STAT i, 18, 1⟩
/-- HUB_QP_STAT.ring_fault, W1C. -/
def HUB_QP_STAT.ring_fault (i : Nat) : Fld := ⟨Reg.HUB_QP_STAT i, 19, 1⟩
/-- HUB_QP_STAT.cfg_err, W1C. -/
def HUB_QP_STAT.cfg_err (i : Nat) : Fld := ⟨Reg.HUB_QP_STAT i, 20, 1⟩
/-- HUB_QP_SQ_BASE_LO.base, RW. -/
def HUB_QP_SQ_BASE_LO.base (i : Nat) : Fld := ⟨Reg.HUB_QP_SQ_BASE_LO i, 0, 32⟩
/-- HUB_QP_SQ_BASE_HI.base, RW. -/
def HUB_QP_SQ_BASE_HI.base (i : Nat) : Fld := ⟨Reg.HUB_QP_SQ_BASE_HI i, 0, 32⟩
/-- HUB_QP_CQ_BASE_LO.base, RW. -/
def HUB_QP_CQ_BASE_LO.base (i : Nat) : Fld := ⟨Reg.HUB_QP_CQ_BASE_LO i, 0, 32⟩
/-- HUB_QP_CQ_BASE_HI.base, RW. -/
def HUB_QP_CQ_BASE_HI.base (i : Nat) : Fld := ⟨Reg.HUB_QP_CQ_BASE_HI i, 0, 32⟩
/-- HUB_QP_CQ.tail, RO. -/
def HUB_QP_CQ.tail (i : Nat) : Fld := ⟨Reg.HUB_QP_CQ i, 0, 12⟩
/-- HUB_QP_CQ.phase, RO. -/
def HUB_QP_CQ.phase (i : Nat) : Fld := ⟨Reg.HUB_QP_CQ i, 12, 1⟩
/-- HUB_QP_CQ.head, RO. -/
def HUB_QP_CQ.head (i : Nat) : Fld := ⟨Reg.HUB_QP_CQ i, 16, 12⟩
/-- HUB_QP_SQ_TAIL.tail, RO. -/
def HUB_QP_SQ_TAIL.tail (i : Nat) : Fld := ⟨Reg.HUB_QP_SQ_TAIL i, 0, 12⟩
/-- HUB_QP_CANCEL.seq, WL. -/
def HUB_QP_CANCEL.seq (i : Nat) : Fld := ⟨Reg.HUB_QP_CANCEL i, 0, 16⟩
/-- HUB_QP_CANCEL.all, WL. -/
def HUB_QP_CANCEL.all (i : Nat) : Fld := ⟨Reg.HUB_QP_CANCEL i, 16, 1⟩
/-- HUB_QP_COUNT.duplicates, RO. -/
def HUB_QP_COUNT.duplicates (i : Nat) : Fld := ⟨Reg.HUB_QP_COUNT i, 0, 16⟩
/-- HUB_QP_COUNT.conflicts, RO. -/
def HUB_QP_COUNT.conflicts (i : Nat) : Fld := ⟨Reg.HUB_QP_COUNT i, 16, 8⟩
/-- HUB_QP_COUNT.cancel_miss, RO. -/
def HUB_QP_COUNT.cancel_miss (i : Nat) : Fld := ⟨Reg.HUB_QP_COUNT i, 24, 8⟩
/-- HUB_QP_INFLIGHT.seq, RO. -/
def HUB_QP_INFLIGHT.seq (i : Nat) : Fld := ⟨Reg.HUB_QP_INFLIGHT i, 0, 16⟩
/-- HUB_QP_INFLIGHT.opcode, RO. -/
def HUB_QP_INFLIGHT.opcode (i : Nat) : Fld := ⟨Reg.HUB_QP_INFLIGHT i, 16, 8⟩
/-- HUB_QP_INFLIGHT.stage, RO. -/
def HUB_QP_INFLIGHT.stage (i : Nat) : Fld := ⟨Reg.HUB_QP_INFLIGHT i, 24, 4⟩
/-- HUB_BOOT_STRAP.boot_sel, RO. -/
def HUB_BOOT_STRAP.boot_sel : Fld := ⟨Reg.HUB_BOOT_STRAP, 0, 2⟩
/-- HUB_BOOT_STRAP.id, RO. -/
def HUB_BOOT_STRAP.id : Fld := ⟨Reg.HUB_BOOT_STRAP, 16, 9⟩
/-- HUB_BOOT_STAT.slot, RO. -/
def HUB_BOOT_STAT.slot : Fld := ⟨Reg.HUB_BOOT_STAT, 0, 1⟩
/-- HUB_BOOT_STAT.fallback, RO. -/
def HUB_BOOT_STAT.fallback : Fld := ⟨Reg.HUB_BOOT_STAT, 1, 1⟩
/-- HUB_BOOT_STAT.by_sequence, RO. -/
def HUB_BOOT_STAT.by_sequence : Fld := ⟨Reg.HUB_BOOT_STAT, 2, 1⟩
/-- HUB_BOOT_STAT.slot_a, RO. -/
def HUB_BOOT_STAT.slot_a : Fld := ⟨Reg.HUB_BOOT_STAT, 4, 2⟩
/-- HUB_BOOT_STAT.slot_b, RO. -/
def HUB_BOOT_STAT.slot_b : Fld := ⟨Reg.HUB_BOOT_STAT, 6, 2⟩
/-- HUB_BOOT_STAT.rom_version, RO. -/
def HUB_BOOT_STAT.rom_version : Fld := ⟨Reg.HUB_BOOT_STAT, 8, 8⟩
/-- HUB_BOOT_STAT.meas_lock, RO. -/
def HUB_BOOT_STAT.meas_lock : Fld := ⟨Reg.HUB_BOOT_STAT, 16, 1⟩
/-- HUB_BOOT_STAT.recovery, RO. -/
def HUB_BOOT_STAT.recovery : Fld := ⟨Reg.HUB_BOOT_STAT, 17, 1⟩
/-- HUB_BOOT_STAT.die_busy, RO. -/
def HUB_BOOT_STAT.die_busy : Fld := ⟨Reg.HUB_BOOT_STAT, 18, 1⟩
/-- HUB_BOOT_STAT.reset_refused, W1C. -/
def HUB_BOOT_STAT.reset_refused : Fld := ⟨Reg.HUB_BOOT_STAT, 19, 1⟩
/-- HUB_BOOT_STAT.reset_cause, RO. -/
def HUB_BOOT_STAT.reset_cause : Fld := ⟨Reg.HUB_BOOT_STAT, 24, 4⟩
/-- HUB_BOOT_COUNT.count, RO. -/
def HUB_BOOT_COUNT.count : Fld := ⟨Reg.HUB_BOOT_COUNT, 0, 32⟩
/-- HUB_RESET.warm, WL. -/
def HUB_RESET.warm : Fld := ⟨Reg.HUB_RESET, 0, 1⟩
/-- HUB_RESET.key, WL. -/
def HUB_RESET.key : Fld := ⟨Reg.HUB_RESET, 24, 8⟩
/-- HUB_DIE_RESET.dies, WL. -/
def HUB_DIE_RESET.dies : Fld := ⟨Reg.HUB_DIE_RESET, 0, 16⟩
/-- HUB_DIE_RESET.key, WL. -/
def HUB_DIE_RESET.key : Fld := ⟨Reg.HUB_DIE_RESET, 24, 8⟩
/-- HUB_WDT_CFG.timeout_ms, RW. -/
def HUB_WDT_CFG.timeout_ms : Fld := ⟨Reg.HUB_WDT_CFG, 0, 16⟩
/-- HUB_WDT_CFG.en, RW. -/
def HUB_WDT_CFG.en : Fld := ⟨Reg.HUB_WDT_CFG, 16, 1⟩
/-- HUB_WDT_CFG.reset_on_expiry, RW. -/
def HUB_WDT_CFG.reset_on_expiry : Fld := ⟨Reg.HUB_WDT_CFG, 17, 1⟩
/-- HUB_MEAS.word, RO. -/
def HUB_MEAS.word (i : Nat) (j : Nat) : Fld := ⟨Reg.HUB_MEAS i j, 0, 32⟩
/-- HUB_FUSE.word, RO. -/
def HUB_FUSE.word (i : Nat) : Fld := ⟨Reg.HUB_FUSE i, 0, 32⟩
/-- DEC_INT_EN.en, RW. -/
def DEC_INT_EN.en : Fld := ⟨Reg.DEC_INT_EN, 0, 6⟩
/-- DEC_VETO_CFG.latch, RW. -/
def DEC_VETO_CFG.latch : Fld := ⟨Reg.DEC_VETO_CFG, 0, 1⟩
/-- DEC_VETO_CFG.warn_ms, RW. -/
def DEC_VETO_CFG.warn_ms : Fld := ⟨Reg.DEC_VETO_CFG, 8, 24⟩
/-- DEC_VETO_STAT.level, RO. -/
def DEC_VETO_STAT.level : Fld := ⟨Reg.DEC_VETO_STAT, 0, 1⟩
/-- DEC_VETO_STAT.warn, W1C. -/
def DEC_VETO_STAT.warn : Fld := ⟨Reg.DEC_VETO_STAT, 1, 1⟩
/-- DEC_VETO_STAT.glitch, RO. -/
def DEC_VETO_STAT.glitch : Fld := ⟨Reg.DEC_VETO_STAT, 16, 16⟩
/-- DEC_VETO_COUNT.count, RO. -/
def DEC_VETO_COUNT.count : Fld := ⟨Reg.DEC_VETO_COUNT, 0, 32⟩
/-- DEC_SYNC_CFG.mode, RW. -/
def DEC_SYNC_CFG.mode : Fld := ⟨Reg.DEC_SYNC_CFG, 0, 2⟩
/-- DEC_SYNC_CFG.timeout_us, RW. -/
def DEC_SYNC_CFG.timeout_us : Fld := ⟨Reg.DEC_SYNC_CFG, 8, 24⟩
/-- DEC_SYNC_STAT.state, RO. -/
def DEC_SYNC_STAT.state : Fld := ⟨Reg.DEC_SYNC_STAT, 0, 3⟩
/-- DEC_SYNC_STAT.line, RO. -/
def DEC_SYNC_STAT.line : Fld := ⟨Reg.DEC_SYNC_STAT, 3, 1⟩
/-- DEC_SYNC_STAT.stuck, W1C. -/
def DEC_SYNC_STAT.stuck : Fld := ⟨Reg.DEC_SYNC_STAT, 4, 1⟩
/-- DEC_SYNC_STAT.launched, W1C. -/
def DEC_SYNC_STAT.launched : Fld := ⟨Reg.DEC_SYNC_STAT, 5, 1⟩
/-- DEC_SYNC_STAT.cancel_count, RO. -/
def DEC_SYNC_STAT.cancel_count : Fld := ⟨Reg.DEC_SYNC_STAT, 16, 16⟩
/-- DEC_SYNC_LAUNCH_LO.spool, RO. -/
def DEC_SYNC_LAUNCH_LO.spool : Fld := ⟨Reg.DEC_SYNC_LAUNCH_LO, 0, 32⟩
/-- DEC_SYNC_LAUNCH_HI.spool, RO. -/
def DEC_SYNC_LAUNCH_HI.spool : Fld := ⟨Reg.DEC_SYNC_LAUNCH_HI, 0, 32⟩
/-- DEC_FAULTN_MASK.thermal, RW. -/
def DEC_FAULTN_MASK.thermal : Fld := ⟨Reg.DEC_FAULTN_MASK, 0, 1⟩
/-- DEC_FAULTN_MASK.mclk, RW. -/
def DEC_FAULTN_MASK.mclk : Fld := ⟨Reg.DEC_FAULTN_MASK, 1, 1⟩
/-- DEC_FAULTN_MASK.sync, RW. -/
def DEC_FAULTN_MASK.sync : Fld := ⟨Reg.DEC_FAULTN_MASK, 2, 1⟩
/-- DEC_PINS.levels, RO. -/
def DEC_PINS.levels : Fld := ⟨Reg.DEC_PINS, 0, 4⟩
/-- DEC_RESULT_ERR.count, RO. -/
def DEC_RESULT_ERR.count : Fld := ⟨Reg.DEC_RESULT_ERR, 0, 32⟩
/-- DEC_LANE_CFG.en, RW. -/
def DEC_LANE_CFG.en (i : Nat) : Fld := ⟨Reg.DEC_LANE_CFG i, 0, 1⟩
/-- DEC_LANE_CFG.tx_invert, RW. -/
def DEC_LANE_CFG.tx_invert (i : Nat) : Fld := ⟨Reg.DEC_LANE_CFG i, 1, 1⟩
/-- DEC_LANE_CFG.kind, RO. -/
def DEC_LANE_CFG.kind (i : Nat) : Fld := ⟨Reg.DEC_LANE_CFG i, 2, 1⟩
/-- DEC_LANE_CFG.tags, RO. -/
def DEC_LANE_CFG.tags (i : Nat) : Fld := ⟨Reg.DEC_LANE_CFG i, 8, 8⟩
/-- DEC_LANE_STAT.rate_err, W1C. -/
def DEC_LANE_STAT.rate_err (i : Nat) : Fld := ⟨Reg.DEC_LANE_STAT i, 0, 1⟩
/-- DEC_LANE_STAT.events, RO. -/
def DEC_LANE_STAT.events (i : Nat) : Fld := ⟨Reg.DEC_LANE_STAT i, 8, 24⟩
/-- DEC_MENU_MAP.r_m1, RO. -/
def DEC_MENU_MAP.r_m1 (i : Nat) : Fld := ⟨Reg.DEC_MENU_MAP i, 0, 2⟩
/-- DEC_MENU_MAP.die, RO. -/
def DEC_MENU_MAP.die (i : Nat) : Fld := ⟨Reg.DEC_MENU_MAP i, 2, 1⟩
/-- DEC_MENU_MAP.lanes, RO. -/
def DEC_MENU_MAP.lanes (i : Nat) : Fld := ⟨Reg.DEC_MENU_MAP i, 8, 8⟩
/-- TTH_INT_EN.en, RW. -/
def TTH_INT_EN.en : Fld := ⟨Reg.TTH_INT_EN, 0, 9⟩
/-- TTH_STATUS.pe_pending, RO. -/
def TTH_STATUS.pe_pending : Fld := ⟨Reg.TTH_STATUS, 0, 1⟩
/-- TTH_STATUS.pe_overflow, W1C. -/
def TTH_STATUS.pe_overflow : Fld := ⟨Reg.TTH_STATUS, 1, 1⟩
/-- TTH_STATUS.read_timeout, W1C. -/
def TTH_STATUS.read_timeout : Fld := ⟨Reg.TTH_STATUS, 2, 1⟩
/-- TTH_READ_CFG.timeout_us, RW. -/
def TTH_READ_CFG.timeout_us : Fld := ⟨Reg.TTH_READ_CFG, 0, 16⟩
/-- TTH_PE_HEAD.head, RO. -/
def TTH_PE_HEAD.head : Fld := ⟨Reg.TTH_PE_HEAD, 0, 16⟩
/-- TTH_PE_TAIL.tail, RW. -/
def TTH_PE_TAIL.tail : Fld := ⟨Reg.TTH_PE_TAIL, 0, 16⟩
/-- TTH_PE_STAT.overflow, RO. -/
def TTH_PE_STAT.overflow : Fld := ⟨Reg.TTH_PE_STAT, 0, 16⟩
/-- TTH_PE_STAT.lost, RO. -/
def TTH_PE_STAT.lost : Fld := ⟨Reg.TTH_PE_STAT, 16, 16⟩
/-- TTH_WIN_BASE.base, RW. -/
def TTH_WIN_BASE.base (i : Nat) : Fld := ⟨Reg.TTH_WIN_BASE i, 0, 32⟩
/-- TTH_WIN_SIZE.size, RW. -/
def TTH_WIN_SIZE.size (i : Nat) : Fld := ⟨Reg.TTH_WIN_SIZE i, 0, 24⟩
/-- TTH_PE_RING.word, RO. -/
def TTH_PE_RING.word (i : Nat) (j : Nat) : Fld := ⟨Reg.TTH_PE_RING i j, 0, 32⟩
/-- TTH_PORT_CFG.en, RW. -/
def TTH_PORT_CFG.en (i : Nat) : Fld := ⟨Reg.TTH_PORT_CFG i, 0, 1⟩
/-- TTH_PORT_CFG.mode, RW. -/
def TTH_PORT_CFG.mode (i : Nat) : Fld := ⟨Reg.TTH_PORT_CFG i, 1, 1⟩
/-- TTH_PORT_CFG.retrain, W1S. -/
def TTH_PORT_CFG.retrain (i : Nat) : Fld := ⟨Reg.TTH_PORT_CFG i, 2, 1⟩
/-- TTH_PORT_CFG.ack_flits, RW. -/
def TTH_PORT_CFG.ack_flits (i : Nat) : Fld := ⟨Reg.TTH_PORT_CFG i, 4, 5⟩
/-- TTH_PORT_CFG.replay_ns, RW. -/
def TTH_PORT_CFG.replay_ns (i : Nat) : Fld := ⟨Reg.TTH_PORT_CFG i, 12, 16⟩
/-- TTH_PORT_STATE.state, RO. -/
def TTH_PORT_STATE.state (i : Nat) : Fld := ⟨Reg.TTH_PORT_STATE i, 0, 3⟩
/-- TTH_PORT_STATE.lane_lock, RO. -/
def TTH_PORT_STATE.lane_lock (i : Nat) : Fld := ⟨Reg.TTH_PORT_STATE i, 3, 4⟩
/-- TTH_PORT_STATE.outstanding, RO. -/
def TTH_PORT_STATE.outstanding (i : Nat) : Fld := ⟨Reg.TTH_PORT_STATE i, 8, 8⟩
/-- TTH_PORT_STATE.changes, RO. -/
def TTH_PORT_STATE.changes (i : Nat) : Fld := ⟨Reg.TTH_PORT_STATE i, 16, 16⟩
/-- TTH_PORT_EVT.up, W1C. -/
def TTH_PORT_EVT.up (i : Nat) : Fld := ⟨Reg.TTH_PORT_EVT i, 0, 1⟩
/-- TTH_PORT_EVT.down, W1C. -/
def TTH_PORT_EVT.down (i : Nat) : Fld := ⟨Reg.TTH_PORT_EVT i, 1, 1⟩
/-- TTH_PORT_EVT.mode_mismatch, W1C. -/
def TTH_PORT_EVT.mode_mismatch (i : Nat) : Fld := ⟨Reg.TTH_PORT_EVT i, 2, 1⟩
/-- TTH_PORT_HOP.hop, RO. -/
def TTH_PORT_HOP.hop (i : Nat) : Fld := ⟨Reg.TTH_PORT_HOP i, 0, 12⟩
/-- TTH_PORT_ERR0.crc_fail, RO. -/
def TTH_PORT_ERR0.crc_fail (i : Nat) : Fld := ⟨Reg.TTH_PORT_ERR0 i, 0, 16⟩
/-- TTH_PORT_ERR0.dup_discard, RO. -/
def TTH_PORT_ERR0.dup_discard (i : Nat) : Fld := ⟨Reg.TTH_PORT_ERR0 i, 16, 16⟩
/-- TTH_PORT_ERR1.pilot_dup, RO. -/
def TTH_PORT_ERR1.pilot_dup (i : Nat) : Fld := ⟨Reg.TTH_PORT_ERR1 i, 0, 16⟩
/-- TTH_PORT_ERR1.pilot_stale, RO. -/
def TTH_PORT_ERR1.pilot_stale (i : Nat) : Fld := ⟨Reg.TTH_PORT_ERR1 i, 16, 16⟩
/-- TTH_PORT_ERR2.seq_err, RO. -/
def TTH_PORT_ERR2.seq_err (i : Nat) : Fld := ⟨Reg.TTH_PORT_ERR2 i, 0, 8⟩
/-- TTH_PORT_ERR2.train_fail, RO. -/
def TTH_PORT_ERR2.train_fail (i : Nat) : Fld := ⟨Reg.TTH_PORT_ERR2 i, 8, 8⟩
/-- TTH_PORT_ERR2.down, RO. -/
def TTH_PORT_ERR2.down (i : Nat) : Fld := ⟨Reg.TTH_PORT_ERR2 i, 16, 8⟩
/-- TTH_PORT_ERR2.late_resp, RO. -/
def TTH_PORT_ERR2.late_resp (i : Nat) : Fld := ⟨Reg.TTH_PORT_ERR2 i, 24, 8⟩
/-- COL_SELF.id, RW. -/
def COL_SELF.id : Fld := ⟨Reg.COL_SELF, 0, 9⟩
/-- COL_TORUS.dim_x, RW. -/
def COL_TORUS.dim_x : Fld := ⟨Reg.COL_TORUS, 0, 3⟩
/-- COL_TORUS.dim_y, RW. -/
def COL_TORUS.dim_y : Fld := ⟨Reg.COL_TORUS, 3, 3⟩
/-- COL_TORUS.dim_z, RW. -/
def COL_TORUS.dim_z : Fld := ⟨Reg.COL_TORUS, 6, 3⟩
/-- COL_SURVEY_CFG.auto, RW. -/
def COL_SURVEY_CFG.auto : Fld := ⟨Reg.COL_SURVEY_CFG, 0, 1⟩
/-- COL_SURVEY_CFG.settle_ms, RW. -/
def COL_SURVEY_CFG.settle_ms : Fld := ⟨Reg.COL_SURVEY_CFG, 4, 8⟩
/-- COL_SURVEY_CFG.holdoff_us, RW. -/
def COL_SURVEY_CFG.holdoff_us : Fld := ⟨Reg.COL_SURVEY_CFG, 16, 12⟩
/-- COL_SURVEY_STAT.gen, RO. -/
def COL_SURVEY_STAT.gen : Fld := ⟨Reg.COL_SURVEY_STAT, 0, 16⟩
/-- COL_SURVEY_STAT.running, RO. -/
def COL_SURVEY_STAT.running : Fld := ⟨Reg.COL_SURVEY_STAT, 16, 1⟩
/-- COL_SURVEY_STAT.unstable_run, RO. -/
def COL_SURVEY_STAT.unstable_run : Fld := ⟨Reg.COL_SURVEY_STAT, 17, 4⟩
/-- COL_SURVEY_STAT.published, W1C. -/
def COL_SURVEY_STAT.published : Fld := ⟨Reg.COL_SURVEY_STAT, 24, 1⟩
/-- COL_SURVEY_STAT.unstable, W1C. -/
def COL_SURVEY_STAT.unstable : Fld := ⟨Reg.COL_SURVEY_STAT, 25, 1⟩
/-- COL_SURVEY_STAT.miswire, W1C. -/
def COL_SURVEY_STAT.miswire : Fld := ⟨Reg.COL_SURVEY_STAT, 26, 1⟩
/-- COL_SURVEY_STAT.cfg_err, W1C. -/
def COL_SURVEY_STAT.cfg_err : Fld := ⟨Reg.COL_SURVEY_STAT, 27, 1⟩
/-- COL_TOPO_GEN.gen, RO. -/
def COL_TOPO_GEN.gen : Fld := ⟨Reg.COL_TOPO_GEN, 0, 16⟩
/-- COL_TOPO_GEN.valid, RO. -/
def COL_TOPO_GEN.valid : Fld := ⟨Reg.COL_TOPO_GEN, 16, 1⟩
/-- COL_TOPO_COUNT.present, RO. -/
def COL_TOPO_COUNT.present : Fld := ⟨Reg.COL_TOPO_COUNT, 0, 10⟩
/-- COL_TOPO_COUNT.reachable, RO. -/
def COL_TOPO_COUNT.reachable : Fld := ⟨Reg.COL_TOPO_COUNT, 16, 10⟩
/-- COL_PORT_MISWIRE.mask, RO. -/
def COL_PORT_MISWIRE.mask : Fld := ⟨Reg.COL_PORT_MISWIRE, 0, 6⟩
/-- COL_BRIDLE_EVT.change, W1C. -/
def COL_BRIDLE_EVT.change : Fld := ⟨Reg.COL_BRIDLE_EVT, 0, 1⟩
/-- COL_INT_EN.en, RW. -/
def COL_INT_EN.en : Fld := ⟨Reg.COL_INT_EN, 0, 4⟩
/-- COL_VC.group, RO. -/
def COL_VC.group (i : Nat) : Fld := ⟨Reg.COL_VC i, 0, 6⟩
/-- COL_VC.held, RO. -/
def COL_VC.held (i : Nat) : Fld := ⟨Reg.COL_VC i, 31, 1⟩
/-- COL_TOPO.word, RO. -/
def COL_TOPO.word (i : Nat) (j : Nat) : Fld := ⟨Reg.COL_TOPO i j, 0, 32⟩
/-- COL_BRIDLE.word, RO. -/
def COL_BRIDLE.word (i : Nat) (j : Nat) : Fld := ⟨Reg.COL_BRIDLE i j, 0, 32⟩
/-- COL_ENG_INT_EN.en, RW. -/
def COL_ENG_INT_EN.en : Fld := ⟨Reg.COL_ENG_INT_EN, 0, 3⟩
/-- COL_ENG_EVT.chunk_err, W1C. -/
def COL_ENG_EVT.chunk_err : Fld := ⟨Reg.COL_ENG_EVT, 0, 1⟩
/-- COL_ENG_EVT.drop, W1C. -/
def COL_ENG_EVT.drop : Fld := ⟨Reg.COL_ENG_EVT, 1, 1⟩
/-- COL_ENG_EVT.order_err, W1C. -/
def COL_ENG_EVT.order_err : Fld := ⟨Reg.COL_ENG_EVT, 2, 1⟩
/-- COL_CHUNK_STAT.chunk_fail, RO. -/
def COL_CHUNK_STAT.chunk_fail : Fld := ⟨Reg.COL_CHUNK_STAT, 0, 16⟩
/-- COL_CHUNK_STAT.chunk_dup, RO. -/
def COL_CHUNK_STAT.chunk_dup : Fld := ⟨Reg.COL_CHUNK_STAT, 16, 16⟩
/-- COL_DROP_STAT.dropped, RO. -/
def COL_DROP_STAT.dropped : Fld := ⟨Reg.COL_DROP_STAT, 0, 32⟩
/-- COL_EARLY_STAT.held, RO. -/
def COL_EARLY_STAT.held : Fld := ⟨Reg.COL_EARLY_STAT, 0, 16⟩
/-- COL_EARLY_STAT.overflow, RO. -/
def COL_EARLY_STAT.overflow : Fld := ⟨Reg.COL_EARLY_STAT, 16, 16⟩
/-- COL_PILOT_STAT.far, RO. -/
def COL_PILOT_STAT.far : Fld := ⟨Reg.COL_PILOT_STAT, 0, 16⟩
/-- COL_VC_INST.ordinal, RO. -/
def COL_VC_INST.ordinal (i : Nat) : Fld := ⟨Reg.COL_VC_INST i, 0, 16⟩
/-- COL_VC_INST.entry, RO. -/
def COL_VC_INST.entry (i : Nat) : Fld := ⟨Reg.COL_VC_INST i, 16, 8⟩
/-- COL_VC_INST.op, RO. -/
def COL_VC_INST.op (i : Nat) : Fld := ⟨Reg.COL_VC_INST i, 24, 3⟩
/-- COL_VC_INST.axis, RO. -/
def COL_VC_INST.axis (i : Nat) : Fld := ⟨Reg.COL_VC_INST i, 27, 2⟩
/-- COL_VC_INST.broadcast, RO. -/
def COL_VC_INST.broadcast (i : Nat) : Fld := ⟨Reg.COL_VC_INST i, 29, 1⟩
/-- COL_VC_INST.active, RO. -/
def COL_VC_INST.active (i : Nat) : Fld := ⟨Reg.COL_VC_INST i, 31, 1⟩
/-- COL_VC_PROG.sent, RO. -/
def COL_VC_PROG.sent (i : Nat) : Fld := ⟨Reg.COL_VC_PROG i, 0, 16⟩
/-- COL_VC_PROG.landed, RO. -/
def COL_VC_PROG.landed (i : Nat) : Fld := ⟨Reg.COL_VC_PROG i, 16, 16⟩
/-- COL_VC_HOLD.early, RO. -/
def COL_VC_HOLD.early (i : Nat) : Fld := ⟨Reg.COL_VC_HOLD i, 0, 5⟩
/-- COL_VC_HOLD.items, RO. -/
def COL_VC_HOLD.items (i : Nat) : Fld := ⟨Reg.COL_VC_HOLD i, 8, 5⟩
/-- COL_SCHED.word, RO. -/
def COL_SCHED.word (i : Nat) (j : Nat) : Fld := ⟨Reg.COL_SCHED i j, 0, 32⟩
/-- COL_ZONE.word, RO. -/
def COL_ZONE.word (i : Nat) (j : Nat) : Fld := ⟨Reg.COL_ZONE i j, 0, 32⟩
/-- COL_LZ_REL.rz, RO. -/
def COL_LZ_REL.rz (i : Nat) : Fld := ⟨Reg.COL_LZ_REL i, 0, 16⟩
/-- COL_LZ_LANDED.buf0, RO. -/
def COL_LZ_LANDED.buf0 (i : Nat) : Fld := ⟨Reg.COL_LZ_LANDED i, 0, 12⟩
/-- COL_LZ_LANDED.buf1, RO. -/
def COL_LZ_LANDED.buf1 (i : Nat) : Fld := ⟨Reg.COL_LZ_LANDED i, 16, 12⟩
/-- COL_LZ_MARK.err0, RO. -/
def COL_LZ_MARK.err0 (i : Nat) : Fld := ⟨Reg.COL_LZ_MARK i, 0, 1⟩
/-- COL_LZ_MARK.err1, RO. -/
def COL_LZ_MARK.err1 (i : Nat) : Fld := ⟨Reg.COL_LZ_MARK i, 1, 1⟩
/-- COL_ABORT_CFG.hop_bound, RW. -/
def COL_ABORT_CFG.hop_bound : Fld := ⟨Reg.COL_ABORT_CFG, 0, 12⟩
/-- COL_ABORT_EVT.abort, W1C. -/
def COL_ABORT_EVT.abort : Fld := ⟨Reg.COL_ABORT_EVT, 0, 1⟩
/-- COL_ABORT_EVT.late, W1C. -/
def COL_ABORT_EVT.late : Fld := ⟨Reg.COL_ABORT_EVT, 1, 1⟩
/-- COL_ABORT_EVT.vc_exhausted, W1C. -/
def COL_ABORT_EVT.vc_exhausted : Fld := ⟨Reg.COL_ABORT_EVT, 2, 1⟩
/-- COL_ABORT_EVT.group_aborted, W1C. -/
def COL_ABORT_EVT.group_aborted : Fld := ⟨Reg.COL_ABORT_EVT, 3, 1⟩
/-- COL_ABORT_EVT.graft, W1C. -/
def COL_ABORT_EVT.graft : Fld := ⟨Reg.COL_ABORT_EVT, 4, 1⟩
/-- COL_ABORT_EVT.retry, W1C. -/
def COL_ABORT_EVT.retry : Fld := ⟨Reg.COL_ABORT_EVT, 5, 1⟩
/-- COL_ABORT_INT_EN.en, RW. -/
def COL_ABORT_INT_EN.en : Fld := ⟨Reg.COL_ABORT_INT_EN, 0, 6⟩
/-- COL_ABORT_STAT.aborts, RO. -/
def COL_ABORT_STAT.aborts : Fld := ⟨Reg.COL_ABORT_STAT, 0, 16⟩
/-- COL_ABORT_STAT.extra, RO. -/
def COL_ABORT_STAT.extra : Fld := ⟨Reg.COL_ABORT_STAT, 16, 16⟩
/-- COL_ABORT_STAT2.late, RO. -/
def COL_ABORT_STAT2.late : Fld := ⟨Reg.COL_ABORT_STAT2, 0, 16⟩
/-- COL_ABORT_STAT2.retries, RO. -/
def COL_ABORT_STAT2.retries : Fld := ⟨Reg.COL_ABORT_STAT2, 16, 16⟩
/-- COL_TRANSIT_MAP.transit, RO. -/
def COL_TRANSIT_MAP.transit : Fld := ⟨Reg.COL_TRANSIT_MAP, 0, 16⟩
/-- COL_TRANSIT_CFG.idle_us, RW. -/
def COL_TRANSIT_CFG.idle_us : Fld := ⟨Reg.COL_TRANSIT_CFG, 0, 16⟩
/-- COL_ABORT_HEAD.head, RO. -/
def COL_ABORT_HEAD.head : Fld := ⟨Reg.COL_ABORT_HEAD, 0, 16⟩
/-- COL_ABORT_TAIL.tail, RW. -/
def COL_ABORT_TAIL.tail : Fld := ⟨Reg.COL_ABORT_TAIL, 0, 16⟩
/-- COL_GRAFT_STAT.group, RO. -/
def COL_GRAFT_STAT.group : Fld := ⟨Reg.COL_GRAFT_STAT, 0, 6⟩
/-- COL_GRAFT_STAT.omitted, RO. -/
def COL_GRAFT_STAT.omitted : Fld := ⟨Reg.COL_GRAFT_STAT, 6, 9⟩
/-- COL_GRAFT_STAT.pending, RO. -/
def COL_GRAFT_STAT.pending : Fld := ⟨Reg.COL_GRAFT_STAT, 15, 1⟩
/-- COL_GRAFT_STAT.orbit, RO. -/
def COL_GRAFT_STAT.orbit : Fld := ⟨Reg.COL_GRAFT_STAT, 16, 16⟩
/-- COL_GRAFT_CFG.margin_x, RW. -/
def COL_GRAFT_CFG.margin_x : Fld := ⟨Reg.COL_GRAFT_CFG, 0, 16⟩
/-- COL_GROUP_W.w, RO. -/
def COL_GROUP_W.w (i : Nat) : Fld := ⟨Reg.COL_GROUP_W i, 0, 16⟩
/-- COL_ABORT_LOG.word, RO. -/
def COL_ABORT_LOG.word (i : Nat) (j : Nat) : Fld := ⟨Reg.COL_ABORT_LOG i j, 0, 32⟩
/-- DET_CTRL.trace_fold, RW. -/
def DET_CTRL.trace_fold : Fld := ⟨Reg.DET_CTRL, 0, 1⟩
/-- DET_CTRL.spill_replay, RW. -/
def DET_CTRL.spill_replay : Fld := ⟨Reg.DET_CTRL, 1, 1⟩
/-- DET_CTRL.int_en, RW. -/
def DET_CTRL.int_en : Fld := ⟨Reg.DET_CTRL, 4, 4⟩
/-- DET_STATUS.orbit_ready, W1C. -/
def DET_STATUS.orbit_ready : Fld := ⟨Reg.DET_STATUS, 0, 1⟩
/-- DET_STATUS.shadow_mismatch, W1C. -/
def DET_STATUS.shadow_mismatch : Fld := ⟨Reg.DET_STATUS, 1, 1⟩
/-- DET_STATUS.prune_applied, W1C. -/
def DET_STATUS.prune_applied : Fld := ⟨Reg.DET_STATUS, 2, 1⟩
/-- DET_STATUS.die_fenced, W1C. -/
def DET_STATUS.die_fenced : Fld := ⟨Reg.DET_STATUS, 3, 1⟩
/-- DET_STATUS.pause, RO. -/
def DET_STATUS.pause : Fld := ⟨Reg.DET_STATUS, 4, 1⟩
/-- DET_STATUS.prune_pending, RO. -/
def DET_STATUS.prune_pending : Fld := ⟨Reg.DET_STATUS, 5, 1⟩
/-- DET_DMAP_DIGEST.digest, RO. -/
def DET_DMAP_DIGEST.digest : Fld := ⟨Reg.DET_DMAP_DIGEST, 0, 32⟩
/-- DET_FENCE.dies, RO. -/
def DET_FENCE.dies : Fld := ⟨Reg.DET_FENCE, 0, 16⟩
/-- DET_PRUNE_STAT.unit, RO. -/
def DET_PRUNE_STAT.unit : Fld := ⟨Reg.DET_PRUNE_STAT, 0, 11⟩
/-- DET_PRUNE_STAT.orbit, RO. -/
def DET_PRUNE_STAT.orbit : Fld := ⟨Reg.DET_PRUNE_STAT, 16, 16⟩
/-- DET_SHADOW_SEED_LO.seed, RO. -/
def DET_SHADOW_SEED_LO.seed : Fld := ⟨Reg.DET_SHADOW_SEED_LO, 0, 32⟩
/-- DET_SHADOW_SEED_HI.seed, RO. -/
def DET_SHADOW_SEED_HI.seed : Fld := ⟨Reg.DET_SHADOW_SEED_HI, 0, 32⟩
/-- DET_SHADOW_CFG.k, RO. -/
def DET_SHADOW_CFG.k : Fld := ⟨Reg.DET_SHADOW_CFG, 0, 5⟩
/-- DET_SHADOW_CFG.dies, RO. -/
def DET_SHADOW_CFG.dies : Fld := ⟨Reg.DET_SHADOW_CFG, 16, 16⟩
/-- DET_ORBIT_SEQ.seq, RO. -/
def DET_ORBIT_SEQ.seq : Fld := ⟨Reg.DET_ORBIT_SEQ, 0, 16⟩
/-- DET_TRACE_STAT.extra, RO. -/
def DET_TRACE_STAT.extra : Fld := ⟨Reg.DET_TRACE_STAT, 0, 16⟩
/-- DET_ROW_MAP.fused, RO. -/
def DET_ROW_MAP.fused (i : Nat) : Fld := ⟨Reg.DET_ROW_MAP i, 0, 9⟩
/-- DET_ROW_MAP.pruned, RO. -/
def DET_ROW_MAP.pruned (i : Nat) : Fld := ⟨Reg.DET_ROW_MAP i, 16, 9⟩
/-- DET_ORBIT_INFO.word, RO. -/
def DET_ORBIT_INFO.word (i : Nat) (j : Nat) : Fld := ⟨Reg.DET_ORBIT_INFO i j, 0, 32⟩
/-- DET_ORBIT_DIG_LO.fold, RO. -/
def DET_ORBIT_DIG_LO.fold (i : Nat) (j : Nat) : Fld := ⟨Reg.DET_ORBIT_DIG_LO i j, 0, 32⟩
/-- DET_ORBIT_DIG_HI.fold, RO. -/
def DET_ORBIT_DIG_HI.fold (i : Nat) (j : Nat) : Fld := ⟨Reg.DET_ORBIT_DIG_HI i j, 0, 32⟩
/-- CFM_INT_EN.en, RW. -/
def CFM_INT_EN.en : Fld := ⟨Reg.CFM_INT_EN, 0, 6⟩
/-- CFM_EVT.frozen, W1C. -/
def CFM_EVT.frozen : Fld := ⟨Reg.CFM_EVT, 0, 1⟩
/-- CFM_EVT.side_overflow, W1C. -/
def CFM_EVT.side_overflow : Fld := ⟨Reg.CFM_EVT, 1, 1⟩
/-- CFM_EVT.ecc_uncorr, W1C. -/
def CFM_EVT.ecc_uncorr : Fld := ⟨Reg.CFM_EVT, 2, 1⟩
/-- CFM_EVT.replay_stall, W1C. -/
def CFM_EVT.replay_stall : Fld := ⟨Reg.CFM_EVT, 3, 1⟩
/-- CFM_EVT.shadow_backlog, W1C. -/
def CFM_EVT.shadow_backlog : Fld := ⟨Reg.CFM_EVT, 4, 1⟩
/-- CFM_EVT.bar4_reject, W1C. -/
def CFM_EVT.bar4_reject : Fld := ⟨Reg.CFM_EVT, 5, 1⟩
/-- CFM_CAP_CFG.size_k, RO. -/
def CFM_CAP_CFG.size_k : Fld := ⟨Reg.CFM_CAP_CFG, 0, 9⟩
/-- CFM_CAP_CFG.post_x, RO. -/
def CFM_CAP_CFG.post_x : Fld := ⟨Reg.CFM_CAP_CFG, 12, 20⟩
/-- CFM_CAP_TRIG.flags, RO. -/
def CFM_CAP_TRIG.flags : Fld := ⟨Reg.CFM_CAP_TRIG, 0, 10⟩
/-- CFM_CAP_TRIG.on_mismatch, RO. -/
def CFM_CAP_TRIG.on_mismatch : Fld := ⟨Reg.CFM_CAP_TRIG, 16, 1⟩
/-- CFM_CAP_TRIG.on_fault, RO. -/
def CFM_CAP_TRIG.on_fault : Fld := ⟨Reg.CFM_CAP_TRIG, 17, 1⟩
/-- CFM_CAP_STAT.state, RO. -/
def CFM_CAP_STAT.state : Fld := ⟨Reg.CFM_CAP_STAT, 0, 2⟩
/-- CFM_CAP_STAT.side_overflow, RO. -/
def CFM_CAP_STAT.side_overflow : Fld := ⟨Reg.CFM_CAP_STAT, 2, 1⟩
/-- CFM_CAP_STAT.extra_triggers, RO. -/
def CFM_CAP_STAT.extra_triggers : Fld := ⟨Reg.CFM_CAP_STAT, 16, 16⟩
/-- CFM_CAP_OLDEST_LO.index, RO. -/
def CFM_CAP_OLDEST_LO.index : Fld := ⟨Reg.CFM_CAP_OLDEST_LO, 0, 32⟩
/-- CFM_CAP_OLDEST_HI.index, RO. -/
def CFM_CAP_OLDEST_HI.index : Fld := ⟨Reg.CFM_CAP_OLDEST_HI, 0, 32⟩
/-- CFM_CAP_NEWEST_LO.index, RO. -/
def CFM_CAP_NEWEST_LO.index : Fld := ⟨Reg.CFM_CAP_NEWEST_LO, 0, 32⟩
/-- CFM_CAP_NEWEST_HI.index, RO. -/
def CFM_CAP_NEWEST_HI.index : Fld := ⟨Reg.CFM_CAP_NEWEST_HI, 0, 32⟩
/-- CFM_CAP_TRIG_X_LO.index, RO. -/
def CFM_CAP_TRIG_X_LO.index : Fld := ⟨Reg.CFM_CAP_TRIG_X_LO, 0, 32⟩
/-- CFM_CAP_TRIG_X_HI.index, RO. -/
def CFM_CAP_TRIG_X_HI.index : Fld := ⟨Reg.CFM_CAP_TRIG_X_HI, 0, 32⟩
/-- CFM_ECC_STAT.corr, RO. -/
def CFM_ECC_STAT.corr : Fld := ⟨Reg.CFM_ECC_STAT, 0, 12⟩
/-- CFM_ECC_STAT.uncorr, RO. -/
def CFM_ECC_STAT.uncorr : Fld := ⟨Reg.CFM_ECC_STAT, 12, 12⟩
/-- CFM_ECC_STAT.bar4_reject, RO. -/
def CFM_ECC_STAT.bar4_reject : Fld := ⟨Reg.CFM_ECC_STAT, 24, 8⟩
/-- CFM_RPL_STAT.records, RO. -/
def CFM_RPL_STAT.records : Fld := ⟨Reg.CFM_RPL_STAT, 0, 32⟩
/-- CFM_RPL_CFG.stall_warn_us, RW. -/
def CFM_RPL_CFG.stall_warn_us : Fld := ⟨Reg.CFM_RPL_CFG, 0, 16⟩
/-- CFM_RPL_CUR_LO.index, RO. -/
def CFM_RPL_CUR_LO.index : Fld := ⟨Reg.CFM_RPL_CUR_LO, 0, 32⟩
/-- CFM_RPL_CUR_HI.index, RO. -/
def CFM_RPL_CUR_HI.index : Fld := ⟨Reg.CFM_RPL_CUR_HI, 0, 32⟩
/-- CFM_SHD_CFG.dies, RO. -/
def CFM_SHD_CFG.dies : Fld := ⟨Reg.CFM_SHD_CFG, 0, 16⟩
/-- CFM_SHD_CFG.delta, RO. -/
def CFM_SHD_CFG.delta : Fld := ⟨Reg.CFM_SHD_CFG, 16, 2⟩
/-- CFM_SHD_CFG.ready, RO. -/
def CFM_SHD_CFG.ready : Fld := ⟨Reg.CFM_SHD_CFG, 24, 8⟩
/-- CFM_SHD_QUEUE.entries, RO. -/
def CFM_SHD_QUEUE.entries : Fld := ⟨Reg.CFM_SHD_QUEUE, 0, 13⟩
/-- CFM_SHD_QUEUE.high_water, RO. -/
def CFM_SHD_QUEUE.high_water : Fld := ⟨Reg.CFM_SHD_QUEUE, 16, 13⟩
/-- CFM_SHD_COUNT.verified, RO. -/
def CFM_SHD_COUNT.verified : Fld := ⟨Reg.CFM_SHD_COUNT, 0, 32⟩
/-- CFM_SHD_SKIP.backlog, RO. -/
def CFM_SHD_SKIP.backlog : Fld := ⟨Reg.CFM_SHD_SKIP, 0, 16⟩
/-- CFM_SHD_SKIP.unshadowable, RO. -/
def CFM_SHD_SKIP.unshadowable : Fld := ⟨Reg.CFM_SHD_SKIP, 16, 16⟩
/-- CFM_SHD_INVALID.taps, RO. -/
def CFM_SHD_INVALID.taps : Fld := ⟨Reg.CFM_SHD_INVALID, 0, 32⟩
/-- CFM_MM_HEAD.head, RO. -/
def CFM_MM_HEAD.head : Fld := ⟨Reg.CFM_MM_HEAD, 0, 16⟩
/-- CFM_MM_TAIL.tail, RW. -/
def CFM_MM_TAIL.tail : Fld := ⟨Reg.CFM_MM_TAIL, 0, 16⟩
/-- CFM_MM_LOG.word, RO. -/
def CFM_MM_LOG.word (i : Nat) (j : Nat) : Fld := ⟨Reg.CFM_MM_LOG i j, 0, 32⟩
/-- DAT_CFG.en, RW. -/
def DAT_CFG.en : Fld := ⟨Reg.DAT_CFG, 0, 1⟩
/-- DAT_STAT.cfg_err, W1C. -/
def DAT_STAT.cfg_err : Fld := ⟨Reg.DAT_STAT, 0, 1⟩
/-- DAT_ROOT_LO.root, RW. -/
def DAT_ROOT_LO.root : Fld := ⟨Reg.DAT_ROOT_LO, 12, 20⟩
/-- DAT_ROOT_HI.root, RW. -/
def DAT_ROOT_HI.root : Fld := ⟨Reg.DAT_ROOT_HI, 0, 20⟩
/-- DAT_HIT.count, RO. -/
def DAT_HIT.count : Fld := ⟨Reg.DAT_HIT, 0, 32⟩
/-- DAT_MISS.count, RO. -/
def DAT_MISS.count : Fld := ⟨Reg.DAT_MISS, 0, 32⟩
/-- DMA_INT_EN.en, RW. -/
def DMA_INT_EN.en : Fld := ⟨Reg.DMA_INT_EN, 0, 3⟩
/-- DMA_EVT.fault, W1C. -/
def DMA_EVT.fault : Fld := ⟨Reg.DMA_EVT, 0, 1⟩
/-- DMA_EVT.overflow, W1C. -/
def DMA_EVT.overflow : Fld := ⟨Reg.DMA_EVT, 1, 1⟩
/-- DMA_EVT.wait, W1C. -/
def DMA_EVT.wait : Fld := ⟨Reg.DMA_EVT, 2, 1⟩
/-- DMA_FAULT_HEAD.head, RO. -/
def DMA_FAULT_HEAD.head : Fld := ⟨Reg.DMA_FAULT_HEAD, 0, 16⟩
/-- DMA_FAULT_TAIL.tail, RW. -/
def DMA_FAULT_TAIL.tail : Fld := ⟨Reg.DMA_FAULT_TAIL, 0, 16⟩
/-- DMA_FAULT_STAT.overflow, RO. -/
def DMA_FAULT_STAT.overflow : Fld := ⟨Reg.DMA_FAULT_STAT, 0, 16⟩
/-- DMA_TAG_NEXT.tag, RO. -/
def DMA_TAG_NEXT.tag : Fld := ⟨Reg.DMA_TAG_NEXT, 0, 12⟩
/-- DMA_TAG_CFG.hold_us, RW. -/
def DMA_TAG_CFG.hold_us : Fld := ⟨Reg.DMA_TAG_CFG, 0, 16⟩
/-- DMA_WAIT_COUNT.count, RO. -/
def DMA_WAIT_COUNT.count : Fld := ⟨Reg.DMA_WAIT_COUNT, 0, 32⟩
/-- DMA_ENG_STAT.word, RO. -/
def DMA_ENG_STAT.word (i : Nat) : Fld := ⟨Reg.DMA_ENG_STAT i, 0, 13⟩
/-- DMA_ENG_CMD.word, RO. -/
def DMA_ENG_CMD.word (i : Nat) : Fld := ⟨Reg.DMA_ENG_CMD i, 0, 28⟩
/-- DMA_ENG_DONE.bytes, RO. -/
def DMA_ENG_DONE.bytes (i : Nat) : Fld := ⟨Reg.DMA_ENG_DONE i, 0, 32⟩
/-- DMA_ENG_TOTAL.bytes, RO. -/
def DMA_ENG_TOTAL.bytes (i : Nat) : Fld := ⟨Reg.DMA_ENG_TOTAL i, 0, 32⟩
/-- DMA_FAULT_LOG.word, RO. -/
def DMA_FAULT_LOG.word (i : Nat) (j : Nat) : Fld := ⟨Reg.DMA_FAULT_LOG i j, 0, 32⟩
/-- INT_SRC_CFG.prio, RW. -/
def INT_SRC_CFG.prio (i : Nat) : Fld := ⟨Reg.INT_SRC_CFG i, 0, 4⟩
/-- INT_SRC_CFG.edge, RW. -/
def INT_SRC_CFG.edge (i : Nat) : Fld := ⟨Reg.INT_SRC_CFG i, 4, 1⟩
/-- INT_SRC_CFG.en, RW. -/
def INT_SRC_CFG.en (i : Nat) : Fld := ⟨Reg.INT_SRC_CFG i, 5, 1⟩
/-- INT_SRC_CFG.target, RW. -/
def INT_SRC_CFG.target (i : Nat) : Fld := ⟨Reg.INT_SRC_CFG i, 6, 2⟩
/-- INT_SRC_CFG.rate_us, RW. -/
def INT_SRC_CFG.rate_us (i : Nat) : Fld := ⟨Reg.INT_SRC_CFG i, 8, 16⟩
/-- INT_PEND.pend, W1C. -/
def INT_PEND.pend (i : Nat) : Fld := ⟨Reg.INT_PEND i, 0, 32⟩
/-- INT_PEND_SET.pend, W1S. -/
def INT_PEND_SET.pend (i : Nat) : Fld := ⟨Reg.INT_PEND_SET i, 0, 32⟩
/-- INT_ACTIVE.active, RO. -/
def INT_ACTIVE.active (i : Nat) : Fld := ⟨Reg.INT_ACTIVE i, 0, 32⟩
/-- INT_ORIGIN.origin, RO. -/
def INT_ORIGIN.origin (i : Nat) : Fld := ⟨Reg.INT_ORIGIN i, 0, 32⟩
/-- INT_RATE_HOLD.held, RO. -/
def INT_RATE_HOLD.held (i : Nat) : Fld := ⟨Reg.INT_RATE_HOLD i, 0, 32⟩
/-- INT_TGT_THRESH.thresh, RW. -/
def INT_TGT_THRESH.thresh (i : Nat) : Fld := ⟨Reg.INT_TGT_THRESH i, 0, 4⟩
/-- INT_TGT_CLAIM.source, RO. -/
def INT_TGT_CLAIM.source (i : Nat) : Fld := ⟨Reg.INT_TGT_CLAIM i, 0, 8⟩
/-- INT_TGT_CLAIM.prio, RO. -/
def INT_TGT_CLAIM.prio (i : Nat) : Fld := ⟨Reg.INT_TGT_CLAIM i, 8, 4⟩
/-- INT_TGT_EOI.source, WL. -/
def INT_TGT_EOI.source (i : Nat) : Fld := ⟨Reg.INT_TGT_EOI i, 0, 8⟩
/-- INT_TGT_PEEK.source, RO. -/
def INT_TGT_PEEK.source (i : Nat) : Fld := ⟨Reg.INT_TGT_PEEK i, 0, 8⟩
/-- INT_TGT_PEEK.prio, RO. -/
def INT_TGT_PEEK.prio (i : Nat) : Fld := ⟨Reg.INT_TGT_PEEK i, 8, 4⟩
/-- INT_TGT_STAT.depth, RO. -/
def INT_TGT_STAT.depth (i : Nat) : Fld := ⟨Reg.INT_TGT_STAT i, 0, 4⟩
/-- INT_TGT_STAT.running, RO. -/
def INT_TGT_STAT.running (i : Nat) : Fld := ⟨Reg.INT_TGT_STAT i, 4, 4⟩
/-- INT_TGT_STAT.eoi_mismatch, W1C. -/
def INT_TGT_STAT.eoi_mismatch (i : Nat) : Fld := ⟨Reg.INT_TGT_STAT i, 8, 1⟩
/-- INT_TGT_STAT.cfg_err, W1C. -/
def INT_TGT_STAT.cfg_err (i : Nat) : Fld := ⟨Reg.INT_TGT_STAT i, 9, 1⟩
/-- INT_TGT_STAT.claim_full, RO. -/
def INT_TGT_STAT.claim_full (i : Nat) : Fld := ⟨Reg.INT_TGT_STAT i, 16, 8⟩
/-- INT_TGT_STAT.eoi_mismatch_count, RO. -/
def INT_TGT_STAT.eoi_mismatch_count (i : Nat) : Fld := ⟨Reg.INT_TGT_STAT i, 24, 8⟩
/-- INT_TGT_VEC.base, RW. -/
def INT_TGT_VEC.base (i : Nat) : Fld := ⟨Reg.INT_TGT_VEC i, 0, 6⟩
/-- INT_TGT_VEC.count, RW. -/
def INT_TGT_VEC.count (i : Nat) : Fld := ⟨Reg.INT_TGT_VEC i, 8, 4⟩
/-- PWR_INT_EN.en, RW. -/
def PWR_INT_EN.en : Fld := ⟨Reg.PWR_INT_EN, 0, 6⟩
/-- PWR_EVT.thermal_warn, W1C. -/
def PWR_EVT.thermal_warn : Fld := ⟨Reg.PWR_EVT, 0, 1⟩
/-- PWR_EVT.thermal_trip, W1C. -/
def PWR_EVT.thermal_trip : Fld := ⟨Reg.PWR_EVT, 1, 1⟩
/-- PWR_EVT.pwr_fail, W1C. -/
def PWR_EVT.pwr_fail : Fld := ⟨Reg.PWR_EVT, 2, 1⟩
/-- PWR_EVT.ballast_low, W1C. -/
def PWR_EVT.ballast_low : Fld := ⟨Reg.PWR_EVT, 3, 1⟩
/-- PWR_EVT.supply_fault, W1C. -/
def PWR_EVT.supply_fault : Fld := ⟨Reg.PWR_EVT, 4, 1⟩
/-- PWR_EVT.domain_change, W1C. -/
def PWR_EVT.domain_change : Fld := ⟨Reg.PWR_EVT, 5, 1⟩
/-- PWR_EVT.cfg_err, W1C. -/
def PWR_EVT.cfg_err : Fld := ⟨Reg.PWR_EVT, 6, 1⟩
/-- PWR_CFG.shed_on_fail, RW. -/
def PWR_CFG.shed_on_fail : Fld := ⟨Reg.PWR_CFG, 0, 1⟩
/-- PWR_CFG.cb_applied, RO. -/
def PWR_CFG.cb_applied : Fld := ⟨Reg.PWR_CFG, 8, 1⟩
/-- PWR_CFG.cb_invalid, RO. -/
def PWR_CFG.cb_invalid : Fld := ⟨Reg.PWR_CFG, 9, 1⟩
/-- PWR_DOM_CTRL.on, RW. -/
def PWR_DOM_CTRL.on : Fld := ⟨Reg.PWR_DOM_CTRL, 0, 24⟩
/-- PWR_DOM_STAT.on, RO. -/
def PWR_DOM_STAT.on : Fld := ⟨Reg.PWR_DOM_STAT, 0, 24⟩
/-- PWR_SUPPLY_STAT.now, RO. -/
def PWR_SUPPLY_STAT.now : Fld := ⟨Reg.PWR_SUPPLY_STAT, 0, 16⟩
/-- PWR_SUPPLY_STAT.seen, W1C. -/
def PWR_SUPPLY_STAT.seen : Fld := ⟨Reg.PWR_SUPPLY_STAT, 16, 16⟩
/-- PWR_FAIL_STAT.pwr_fail, RO. -/
def PWR_FAIL_STAT.pwr_fail : Fld := ⟨Reg.PWR_FAIL_STAT, 0, 1⟩
/-- PWR_FAIL_STAT.pin, RO. -/
def PWR_FAIL_STAT.pin : Fld := ⟨Reg.PWR_FAIL_STAT, 1, 1⟩
/-- PWR_FAIL_STAT.glitch, RO. -/
def PWR_FAIL_STAT.glitch : Fld := ⟨Reg.PWR_FAIL_STAT, 16, 16⟩
/-- PWR_AVS_CFG.clk_mhz, RW. -/
def PWR_AVS_CFG.clk_mhz : Fld := ⟨Reg.PWR_AVS_CFG, 0, 6⟩
/-- PWR_AVS_CFG.settle_us, RW. -/
def PWR_AVS_CFG.settle_us : Fld := ⟨Reg.PWR_AVS_CFG, 16, 16⟩
/-- PWR_AVS_STAT.errors, RO. -/
def PWR_AVS_STAT.errors : Fld := ⟨Reg.PWR_AVS_STAT, 0, 16⟩
/-- PWR_AVS_READ.mv, RO. -/
def PWR_AVS_READ.mv (i : Nat) : Fld := ⟨Reg.PWR_AVS_READ i, 0, 16⟩
/-- PWR_AVS_READ.current, RO. -/
def PWR_AVS_READ.current (i : Nat) : Fld := ⟨Reg.PWR_AVS_READ i, 16, 16⟩
/-- PWR_THERM_CFG.warn_c, RW. -/
def PWR_THERM_CFG.warn_c : Fld := ⟨Reg.PWR_THERM_CFG, 0, 8⟩
/-- PWR_THERM_CFG.limit_c, RW. -/
def PWR_THERM_CFG.limit_c : Fld := ⟨Reg.PWR_THERM_CFG, 8, 8⟩
/-- PWR_THERM_CFG.release_c, RW. -/
def PWR_THERM_CFG.release_c : Fld := ⟨Reg.PWR_THERM_CFG, 16, 8⟩
/-- PWR_THERM_CFG.limit_en, RW. -/
def PWR_THERM_CFG.limit_en : Fld := ⟨Reg.PWR_THERM_CFG, 24, 1⟩
/-- PWR_THERM_LIMIT.vmax_hot, RW. -/
def PWR_THERM_LIMIT.vmax_hot : Fld := ⟨Reg.PWR_THERM_LIMIT, 0, 10⟩
/-- PWR_THERM_STAT.tmax, RO. -/
def PWR_THERM_STAT.tmax : Fld := ⟨Reg.PWR_THERM_STAT, 0, 12⟩
/-- PWR_THERM_STAT.warn, RO. -/
def PWR_THERM_STAT.warn : Fld := ⟨Reg.PWR_THERM_STAT, 16, 1⟩
/-- PWR_THERM_STAT.trip, RO. -/
def PWR_THERM_STAT.trip : Fld := ⟨Reg.PWR_THERM_STAT, 17, 1⟩
/-- PWR_THERM_STAT.sensor_fail, W1C. -/
def PWR_THERM_STAT.sensor_fail : Fld := ⟨Reg.PWR_THERM_STAT, 18, 1⟩
/-- PWR_THERM_STAT.limiting, RO. -/
def PWR_THERM_STAT.limiting : Fld := ⟨Reg.PWR_THERM_STAT, 24, 8⟩
/-- PWR_TEMP.temp, RO. -/
def PWR_TEMP.temp (i : Nat) : Fld := ⟨Reg.PWR_TEMP i, 0, 12⟩
/-- PWR_TEMP.valid, RO. -/
def PWR_TEMP.valid (i : Nat) : Fld := ⟨Reg.PWR_TEMP i, 31, 1⟩
/-- PWR_BAL_CFG.src, RW. -/
def PWR_BAL_CFG.src : Fld := ⟨Reg.PWR_BAL_CFG, 0, 1⟩
/-- PWR_BAL_CFG.gauge_addr, RW. -/
def PWR_BAL_CFG.gauge_addr : Fld := ⟨Reg.PWR_BAL_CFG, 1, 7⟩
/-- PWR_BAL_CFG.gauge_cmd, RW. -/
def PWR_BAL_CFG.gauge_cmd : Fld := ⟨Reg.PWR_BAL_CFG, 8, 8⟩
/-- PWR_BAL_CFG.div_x100, RW. -/
def PWR_BAL_CFG.div_x100 : Fld := ⟨Reg.PWR_BAL_CFG, 16, 16⟩
/-- PWR_BAL_C.c_uf, RW. -/
def PWR_BAL_C.c_uf : Fld := ⟨Reg.PWR_BAL_C, 0, 32⟩
/-- PWR_BAL_VMIN.vmin_mv, RW. -/
def PWR_BAL_VMIN.vmin_mv : Fld := ⟨Reg.PWR_BAL_VMIN, 0, 16⟩
/-- PWR_BAL_VMIN.margin_pct, RW. -/
def PWR_BAL_VMIN.margin_pct : Fld := ⟨Reg.PWR_BAL_VMIN, 16, 8⟩
/-- PWR_BAL_MODEL.t_page_us, RW. -/
def PWR_BAL_MODEL.t_page_us : Fld := ⟨Reg.PWR_BAL_MODEL, 0, 12⟩
/-- PWR_BAL_MODEL.t_sector_ms, RW. -/
def PWR_BAL_MODEL.t_sector_ms : Fld := ⟨Reg.PWR_BAL_MODEL, 12, 12⟩
/-- PWR_BAL_PHOLD.p_hold_mw, RW. -/
def PWR_BAL_PHOLD.p_hold_mw : Fld := ⟨Reg.PWR_BAL_PHOLD, 0, 16⟩
/-- PWR_BAL_PHOLD.gauge_lsb_mj, RW. -/
def PWR_BAL_PHOLD.gauge_lsb_mj : Fld := ⟨Reg.PWR_BAL_PHOLD, 16, 16⟩
/-- PWR_BAL_LAST.mj, RO. -/
def PWR_BAL_LAST.mj : Fld := ⟨Reg.PWR_BAL_LAST, 0, 32⟩
/-- PWR_BAL_NEED.mj, RO. -/
def PWR_BAL_NEED.mj : Fld := ⟨Reg.PWR_BAL_NEED, 0, 32⟩
/-- PWR_BAL_SENSE.mv, RO. -/
def PWR_BAL_SENSE.mv : Fld := ⟨Reg.PWR_BAL_SENSE, 0, 12⟩
/-- PWR_LDG_SEQ.seq, RO. -/
def PWR_LDG_SEQ.seq : Fld := ⟨Reg.PWR_LDG_SEQ, 0, 32⟩
/-- PWR_LDG_CNT.valid, RO. -/
def PWR_LDG_CNT.valid : Fld := ⟨Reg.PWR_LDG_CNT, 0, 12⟩
/-- PWR_LDG_CNT.torn, RO. -/
def PWR_LDG_CNT.torn : Fld := ⟨Reg.PWR_LDG_CNT, 16, 16⟩
/-- PWR_LDG_SEL.index, RW. -/
def PWR_LDG_SEL.index : Fld := ⟨Reg.PWR_LDG_SEL, 0, 11⟩
/-- PWR_LDG_DATA.word, RO. -/
def PWR_LDG_DATA.word (i : Nat) : Fld := ⟨Reg.PWR_LDG_DATA i, 0, 32⟩
/-- MGT_INT_EN.en, RW. -/
def MGT_INT_EN.en : Fld := ⟨Reg.MGT_INT_EN, 0, 6⟩
/-- MGT_EVT.smb_timeout, W1C. -/
def MGT_EVT.smb_timeout : Fld := ⟨Reg.MGT_EVT, 0, 1⟩
/-- MGT_EVT.smb_pec_err, W1C. -/
def MGT_EVT.smb_pec_err : Fld := ⟨Reg.MGT_EVT, 1, 1⟩
/-- MGT_EVT.mctp_rx, W1C. -/
def MGT_EVT.mctp_rx : Fld := ⟨Reg.MGT_EVT, 2, 1⟩
/-- MGT_EVT.mod_arb_lost, W1C. -/
def MGT_EVT.mod_arb_lost : Fld := ⟨Reg.MGT_EVT, 3, 1⟩
/-- MGT_EVT.mod_bus_stuck, W1C. -/
def MGT_EVT.mod_bus_stuck : Fld := ⟨Reg.MGT_EVT, 4, 1⟩
/-- MGT_EVT.spdm_rx, W1C. -/
def MGT_EVT.spdm_rx : Fld := ⟨Reg.MGT_EVT, 5, 1⟩
/-- MGT_SMB_CFG.addr, RW. -/
def MGT_SMB_CFG.addr : Fld := ⟨Reg.MGT_SMB_CFG, 0, 7⟩
/-- MGT_SMB_CFG.pec_req, RW. -/
def MGT_SMB_CFG.pec_req : Fld := ⟨Reg.MGT_SMB_CFG, 8, 1⟩
/-- MGT_SMB_CFG.mctp_en, RW. -/
def MGT_SMB_CFG.mctp_en : Fld := ⟨Reg.MGT_SMB_CFG, 9, 1⟩
/-- MGT_SMB_STAT.timeouts, RO. -/
def MGT_SMB_STAT.timeouts : Fld := ⟨Reg.MGT_SMB_STAT, 0, 16⟩
/-- MGT_SMB_STAT.pec_errs, RO. -/
def MGT_SMB_STAT.pec_errs : Fld := ⟨Reg.MGT_SMB_STAT, 16, 16⟩
/-- MGT_SMB_WADDR.offset, RO. -/
def MGT_SMB_WADDR.offset : Fld := ⟨Reg.MGT_SMB_WADDR, 0, 26⟩
/-- MGT_MCTP_STAT.eid, RO. -/
def MGT_MCTP_STAT.eid : Fld := ⟨Reg.MGT_MCTP_STAT, 0, 8⟩
/-- MGT_MCTP_STAT.received, RO. -/
def MGT_MCTP_STAT.received : Fld := ⟨Reg.MGT_MCTP_STAT, 8, 16⟩
/-- MGT_MCTP_STAT.dropped, RO. -/
def MGT_MCTP_STAT.dropped : Fld := ⟨Reg.MGT_MCTP_STAT, 24, 8⟩
/-- MGT_MOD_CFG.en, RW. -/
def MGT_MOD_CFG.en : Fld := ⟨Reg.MGT_MOD_CFG, 0, 1⟩
/-- MGT_MOD_CFG.speed, RW. -/
def MGT_MOD_CFG.speed : Fld := ⟨Reg.MGT_MOD_CFG, 1, 2⟩
/-- MGT_MOD_CFG.reset_on_stuck, RW. -/
def MGT_MOD_CFG.reset_on_stuck : Fld := ⟨Reg.MGT_MOD_CFG, 3, 1⟩
/-- MGT_MOD_CFG.idle_us, RW. -/
def MGT_MOD_CFG.idle_us : Fld := ⟨Reg.MGT_MOD_CFG, 8, 8⟩
/-- MGT_MOD_CFG.arb_retries, RW. -/
def MGT_MOD_CFG.arb_retries : Fld := ⟨Reg.MGT_MOD_CFG, 16, 8⟩
/-- MGT_MOD_CFG.reset_x10us, RW. -/
def MGT_MOD_CFG.reset_x10us : Fld := ⟨Reg.MGT_MOD_CFG, 24, 8⟩
/-- MGT_MOD_CTRL.mod_reset, RW. -/
def MGT_MOD_CTRL.mod_reset : Fld := ⟨Reg.MGT_MOD_CTRL, 0, 1⟩
/-- MGT_MOD_CTRL.clear, W1S. -/
def MGT_MOD_CTRL.clear : Fld := ⟨Reg.MGT_MOD_CTRL, 1, 1⟩
/-- MGT_MOD_CTRL.reset, W1S. -/
def MGT_MOD_CTRL.reset : Fld := ⟨Reg.MGT_MOD_CTRL, 2, 1⟩
/-- MGT_MOD_STAT.busy, RO. -/
def MGT_MOD_STAT.busy : Fld := ⟨Reg.MGT_MOD_STAT, 0, 1⟩
/-- MGT_MOD_STAT.own, RO. -/
def MGT_MOD_STAT.own : Fld := ⟨Reg.MGT_MOD_STAT, 1, 1⟩
/-- MGT_MOD_STAT.stuck, RO. -/
def MGT_MOD_STAT.stuck : Fld := ⟨Reg.MGT_MOD_STAT, 2, 1⟩
/-- MGT_MOD_STAT.sda, RO. -/
def MGT_MOD_STAT.sda : Fld := ⟨Reg.MGT_MOD_STAT, 3, 1⟩
/-- MGT_MOD_STAT.scl, RO. -/
def MGT_MOD_STAT.scl : Fld := ⟨Reg.MGT_MOD_STAT, 4, 1⟩
/-- MGT_MOD_CNT.arb_lost, RO. -/
def MGT_MOD_CNT.arb_lost : Fld := ⟨Reg.MGT_MOD_CNT, 0, 16⟩
/-- MGT_MOD_CNT.clears, RO. -/
def MGT_MOD_CNT.clears : Fld := ⟨Reg.MGT_MOD_CNT, 16, 8⟩
/-- MGT_MOD_CNT.clear_fail, RO. -/
def MGT_MOD_CNT.clear_fail : Fld := ⟨Reg.MGT_MOD_CNT, 24, 8⟩
/-- SEC_STAT.key_valid, RO. -/
def SEC_STAT.key_valid : Fld := ⟨Reg.SEC_STAT, 0, 1⟩
/-- SEC_STAT.chain_valid, RO. -/
def SEC_STAT.chain_valid : Fld := ⟨Reg.SEC_STAT, 1, 1⟩
/-- SEC_STAT.doe_state, RO. -/
def SEC_STAT.doe_state : Fld := ⟨Reg.SEC_STAT, 4, 3⟩
/-- SEC_STAT.mctp_state, RO. -/
def SEC_STAT.mctp_state : Fld := ⟨Reg.SEC_STAT, 8, 3⟩
/-- SEC_CHAIN_LEN.len, RO. -/
def SEC_CHAIN_LEN.len : Fld := ⟨Reg.SEC_CHAIN_LEN, 0, 17⟩
/-- SEC_COUNT.requests, RO. -/
def SEC_COUNT.requests : Fld := ⟨Reg.SEC_COUNT, 0, 16⟩
/-- SEC_COUNT.errors, RO. -/
def SEC_COUNT.errors : Fld := ⟨Reg.SEC_COUNT, 16, 16⟩
/-- HUB_MSIX_ADDR_LO.addr, RW. -/
def HUB_MSIX_ADDR_LO.addr (i : Nat) : Fld := ⟨Reg.HUB_MSIX_ADDR_LO i, 2, 30⟩
/-- HUB_MSIX_ADDR_HI.addr, RW. -/
def HUB_MSIX_ADDR_HI.addr (i : Nat) : Fld := ⟨Reg.HUB_MSIX_ADDR_HI i, 0, 32⟩
/-- HUB_MSIX_DATA.data, RW. -/
def HUB_MSIX_DATA.data (i : Nat) : Fld := ⟨Reg.HUB_MSIX_DATA i, 0, 32⟩
/-- HUB_MSIX_CTRL.mask, RW. -/
def HUB_MSIX_CTRL.mask (i : Nat) : Fld := ⟨Reg.HUB_MSIX_CTRL i, 0, 1⟩
/-- HUB_MSIX_PBA.pend, RO. -/
def HUB_MSIX_PBA.pend (i : Nat) : Fld := ⟨Reg.HUB_MSIX_PBA i, 0, 32⟩

end F

namespace RegMap

/-- The registers of BAR0 block hub (R408). The MSI-X address LO and HI, the two PBA words and the words of HUB_IMG_DIGEST are registers of 32
bits each, read and written word by word: no value of R9 (log 128). -/
def hub : List RegDesc := [
  ⟨0x4000, [], 0x0, 0x0, 0x0, 0x0, 0x0, 0, 0⟩,  -- HUB_IMG_ID
  ⟨0x4004, [], 0x0, 0x0, 0x0, 0x0, 0x0, 0, 0⟩,  -- HUB_IMG_STAT
  ⟨0x4008, [], 0x0, 0x0, 0x0, 0x0, 0x0, 0, 0⟩,  -- HUB_IMG_ERRLOC
  ⟨0x400C, [], 0x0, 0x0, 0x0, 0x0, 0x0, 0, 0⟩,  -- HUB_IMG_ERROFF
  ⟨0x4010, [(12, 0x4)], 0x0, 0x0, 0x0, 0x0, 0x0, 0, 0⟩,  -- HUB_IMG_DIGEST
  ⟨0x4040, [], 0x0, 0x0, 0x0, 0x0, 0x0, 0, 0⟩,  -- HUB_MENU_CUR
  ⟨0x4048, [], 0x0, 0x0, 0x0, 0x0, 0x0, 0, 2⟩,  -- HUB_MENU_SWITCH_LO
  ⟨0x404C, [], 0x0, 0x0, 0x0, 0x0, 0x0, 4, 2⟩,  -- HUB_MENU_SWITCH_HI
  ⟨0x4080, [(8, 0x4)], 0x0, 0x0, 0x0, 0x0, 0x0, 0, 0⟩,  -- HUB_MENU_INFO
  ⟨0x0, [], 0x0, 0x0, 0x0, 0x0, 0xE7A3, 0, 0⟩,  -- HUB_ID
  ⟨0x4, [], 0x0, 0x0, 0x0, 0x0, 0xB, 0, 0⟩,  -- HUB_REV
  ⟨0x8, [], 0x0, 0x0, 0x0, 0x0, 0x0, 0, 0⟩,  -- HUB_FW_VER
  ⟨0xC, [], 0x0, 0x0, 0x0, 0x0, 0x0, 0, 2⟩,  -- HUB_SERIAL_LO
  ⟨0x10, [], 0x0, 0x0, 0x0, 0x0, 0x0, 4, 2⟩,  -- HUB_SERIAL_HI
  ⟨0x20, [], 0x0, 0x0, 0x0, 0x0, 0x1, 0, 0⟩,  -- HUB_STATE
  ⟨0x24, [], 0x0, 0x1, 0x0, 0x0, 0x0, 0, 0⟩,  -- HUB_STATE_EVT
  ⟨0x28, [], 0x0, 0x10000, 0x0, 0x0, 0x0, 0, 0⟩,  -- HUB_ACC_ERR
  ⟨0x2C, [], 0x0, 0x0, 0x0, 0x0, 0x0, 0, 0⟩,  -- HUB_ACC_ADDR
  ⟨0x30, [], 0x7FFF, 0x0, 0x0, 0x0, 0x0, 0, 0⟩,  -- HUB_ATLAS_BASE
  ⟨0x34, [], 0x7F, 0x0, 0x0, 0x0, 0x0, 0, 0⟩,  -- HUB_INT_EN
  ⟨0x40, [(8, 0x4)], 0xFFFFFFFF, 0x0, 0x0, 0x0, 0x0, 0, 0⟩,  -- HUB_SCRATCH
  ⟨0x1000, [(16, 0x40)], 0xFFF007F, 0x0, 0x0, 0x0, 0xFF0000, 0, 0⟩,  -- HUB_QP_CFG
  ⟨0x1004, [(16, 0x40)], 0x0, 0x1C0000, 0x0, 0x0, 0x0, 0, 0⟩,  -- HUB_QP_STAT
  ⟨0x1008, [(16, 0x40)], 0xFFFFFFFF, 0x0, 0x0, 0x0, 0x0, 0, 2⟩,  -- HUB_QP_SQ_BASE_LO
  ⟨0x100C, [(16, 0x40)], 0xFFFFFFFF, 0x0, 0x0, 0x0, 0x0, 4, 2⟩,  -- HUB_QP_SQ_BASE_HI
  ⟨0x1010, [(16, 0x40)], 0xFFFFFFFF, 0x0, 0x0, 0x0, 0x0, 0, 2⟩,  -- HUB_QP_CQ_BASE_LO
  ⟨0x1014, [(16, 0x40)], 0xFFFFFFFF, 0x0, 0x0, 0x0, 0x0, 4, 2⟩,  -- HUB_QP_CQ_BASE_HI
  ⟨0x1018, [(16, 0x40)], 0x0, 0x0, 0x0, 0x0, 0x1000, 0, 0⟩,  -- HUB_QP_CQ
  ⟨0x101C, [(16, 0x40)], 0x0, 0x0, 0x0, 0x0, 0x0, 0, 0⟩,  -- HUB_QP_SQ_TAIL
  ⟨0x1020, [(16, 0x40)], 0x0, 0x0, 0x0, 0x1FFFF, 0x0, 0, 0⟩,  -- HUB_QP_CANCEL
  ⟨0x1024, [(16, 0x40)], 0x0, 0x0, 0x0, 0x0, 0x0, 0, 0⟩,  -- HUB_QP_COUNT
  ⟨0x1028, [(16, 0x40)], 0x0, 0x0, 0x0, 0x0, 0x0, 0, 0⟩,  -- HUB_QP_INFLIGHT
  ⟨0x5000, [], 0x0, 0x0, 0x0, 0x0, 0x0, 0, 0⟩,  -- HUB_BOOT_STRAP
  ⟨0x5004, [], 0x0, 0x80000, 0x0, 0x0, 0x1000000, 0, 0⟩,  -- HUB_BOOT_STAT
  ⟨0x5008, [], 0x0, 0x0, 0x0, 0x0, 0x1, 0, 0⟩,  -- HUB_BOOT_COUNT
  ⟨0x500C, [], 0x0, 0x0, 0x0, 0xFF000001, 0x0, 0, 0⟩,  -- HUB_RESET
  ⟨0x5010, [], 0x0, 0x0, 0x0, 0xFF00FFFF, 0x0, 0, 0⟩,  -- HUB_DIE_RESET
  ⟨0x5014, [], 0x3FFFF, 0x0, 0x0, 0x0, 0x203E8, 0, 0⟩,  -- HUB_WDT_CFG
  ⟨0x5100, [(5, 0x40), (16, 0x4)], 0x0, 0x0, 0x0, 0x0, 0x0, 0, 0⟩,  -- HUB_MEAS
  ⟨0x5400, [(64, 0x4)], 0x0, 0x0, 0x0, 0x0, 0x0, 0, 0⟩,  -- HUB_FUSE
  ⟨0x8000, [(64, 0x10)], 0xFFFFFFFC, 0x0, 0x0, 0x0, 0x0, 0, 0⟩,  -- HUB_MSIX_ADDR_LO
  ⟨0x8004, [(64, 0x10)], 0xFFFFFFFF, 0x0, 0x0, 0x0, 0x0, 0, 0⟩,  -- HUB_MSIX_ADDR_HI
  ⟨0x8008, [(64, 0x10)], 0xFFFFFFFF, 0x0, 0x0, 0x0, 0x0, 0, 0⟩,  -- HUB_MSIX_DATA
  ⟨0x800C, [(64, 0x10)], 0x1, 0x0, 0x0, 0x0, 0x1, 0, 0⟩,  -- HUB_MSIX_CTRL
  ⟨0x9000, [(2, 0x4)], 0x0, 0x0, 0x0, 0x0, 0x0, 0, 0⟩  -- HUB_MSIX_PBA
]

/-- The registers of BAR0 block int (R408). -/
def int : List RegDesc := [
  ⟨0x100000, [(256, 0x4)], 0xFFFFFF, 0x0, 0x0, 0x0, 0x0, 0, 0⟩,  -- INT_SRC_CFG
  ⟨0x100400, [(8, 0x4)], 0x0, 0xFFFFFFFF, 0x0, 0x0, 0x0, 0, 0⟩,  -- INT_PEND
  ⟨0x100420, [(8, 0x4)], 0x0, 0x0, 0xFFFFFFFF, 0x0, 0x0, 0, 0⟩,  -- INT_PEND_SET
  ⟨0x100440, [(8, 0x4)], 0x0, 0x0, 0x0, 0x0, 0x0, 0, 0⟩,  -- INT_ACTIVE
  ⟨0x100460, [(8, 0x4)], 0x0, 0x0, 0x0, 0x0, 0x0, 0, 0⟩,  -- INT_ORIGIN
  ⟨0x100480, [(8, 0x4)], 0x0, 0x0, 0x0, 0x0, 0x0, 0, 0⟩,  -- INT_RATE_HOLD
  ⟨0x100800, [(4, 0x20)], 0xF, 0x0, 0x0, 0x0, 0x0, 0, 0⟩,  -- INT_TGT_THRESH
  ⟨0x100804, [(4, 0x20)], 0x0, 0x0, 0x0, 0x0, 0x0, 0, 0⟩,  -- INT_TGT_CLAIM
  ⟨0x100808, [(4, 0x20)], 0x0, 0x0, 0x0, 0xFF, 0x0, 0, 0⟩,  -- INT_TGT_EOI
  ⟨0x10080C, [(4, 0x20)], 0x0, 0x0, 0x0, 0x0, 0x0, 0, 0⟩,  -- INT_TGT_PEEK
  ⟨0x100810, [(4, 0x20)], 0x0, 0x300, 0x0, 0x0, 0x0, 0, 0⟩,  -- INT_TGT_STAT
  ⟨0x100814, [(4, 0x20)], 0xF3F, 0x0, 0x0, 0x0, 0x100, 0, 0⟩  -- INT_TGT_VEC
]

/-- The registers of BAR0 block tim (R408). -/
def tim : List RegDesc := [
  ⟨0x200000, [], 0xFFF, 0x0, 0x0, 0x0, 0x1, 0, 0⟩,  -- TIM_CTRL
  ⟨0x200004, [], 0x0, 0xBE, 0x0, 0x0, 0x0, 0, 0⟩,  -- TIM_STATUS
  ⟨0x200008, [], 0x0, 0x0, 0x0, 0x0, 0x0, 0, 0⟩,  -- TIM_MCLK_FREQ
  ⟨0x200010, [], 0x0, 0x0, 0x0, 0x0, 0x0, 0, 4⟩,  -- TIM_SPOOL_LO
  ⟨0x200014, [], 0x0, 0x0, 0x0, 0x0, 0x0, 4, 4⟩,  -- TIM_SPOOL_HI
  ⟨0x200018, [], 0x0, 0x0, 0x0, 0x0, 0x0, 8, 4⟩,  -- TIM_XING
  ⟨0x20001C, [], 0x0, 0x0, 0x0, 0x0, 0x0, 12, 4⟩,  -- TIM_ORBIT
  ⟨0x200020, [], 0xFFFF, 0x0, 0x0, 0x0, 0xC35, 0, 0⟩,  -- TIM_ORBIT_LEN
  ⟨0x200024, [], 0x0, 0x0, 0x0, 0x0, 0x0, 0, 0⟩,  -- TIM_ORBIT_SLIP
  ⟨0x200028, [], 0x0, 0x0, 0x0, 0x0, 0x0, 0, 0⟩,  -- TIM_ORBIT_MISS
  ⟨0x200030, [], 0x0, 0x0, 0x0, 0x0, 0x0, 0, 2⟩,  -- TIM_PPS_CAPTURE_LO
  ⟨0x200034, [], 0x0, 0x0, 0x0, 0x0, 0x0, 4, 2⟩,  -- TIM_PPS_CAPTURE_HI
  ⟨0x200038, [], 0x0, 0x0, 0x0, 0x0, 0x0, 0, 0⟩,  -- TIM_PPS_STAT
  ⟨0x20003C, [], 0x0, 0x0, 0x0, 0x0, 0x0, 0, 0⟩,  -- TIM_PPS_WALL_FRAC
  ⟨0x200040, [], 0x0, 0x0, 0x0, 0x0, 0x0, 0, 3⟩,  -- TIM_WALL_FRAC
  ⟨0x200044, [], 0x0, 0x0, 0x0, 0x0, 0x0, 4, 3⟩,  -- TIM_WALL_SEC_LO
  ⟨0x200048, [], 0x0, 0x0, 0x0, 0x0, 0x0, 8, 3⟩,  -- TIM_WALL_SEC_HI
  ⟨0x200050, [], 0x0, 0x0, 0x0, 0xFFFFFFFF, 0x0, 0, 2⟩,  -- TIM_WALL_SET_LO
  ⟨0x200054, [], 0x0, 0x0, 0x0, 0xFFFF, 0x0, 4, 2⟩,  -- TIM_WALL_SET_HI
  ⟨0x200058, [], 0xFFFFFFFF, 0x0, 0x0, 0x0, 0x4B82FA0A, 0, 2⟩,  -- TIM_WALL_RATE_LO
  ⟨0x20005C, [], 0xFFFFFFFF, 0x0, 0x0, 0x0, 0x4, 4, 2⟩,  -- TIM_WALL_RATE_HI
  ⟨0x200060, [], 0xFFFFFFFF, 0x0, 0x0, 0x0, 0x0, 0, 2⟩,  -- TIM_SYNC_PRESET_LO
  ⟨0x200064, [], 0xFFFFFFFF, 0x0, 0x0, 0x0, 0x0, 4, 2⟩,  -- TIM_SYNC_PRESET_HI
  ⟨0x200068, [], 0x0, 0x0, 0x0, 0x0, 0x0, 0, 2⟩,  -- TIM_LAUNCH_COUNT_LO
  ⟨0x20006C, [], 0x0, 0x0, 0x0, 0x0, 0x0, 4, 2⟩,  -- TIM_LAUNCH_COUNT_HI
  ⟨0x200070, [], 0x0, 0x0, 0x0, 0x0, 0x0, 0, 0⟩,  -- TIM_LATE_STAT
  ⟨0x200074, [], 0x0, 0x0, 0x0, 0x3FF, 0x0, 0, 0⟩,  -- TIM_HIST_CLEAR
  ⟨0x200100, [(8, 0x10)], 0x0, 0x0, 0x0, 0x0, 0x0, 0, 0⟩,  -- TIM_MENU_LATE
  ⟨0x200104, [(8, 0x10)], 0x0, 0x0, 0x0, 0x0, 0x0, 0, 2⟩,  -- TIM_MENU_MASK_LO
  ⟨0x200108, [(8, 0x10)], 0x0, 0x0, 0x0, 0x0, 0x0, 4, 2⟩,  -- TIM_MENU_MASK_HI
  ⟨0x20010C, [(8, 0x10)], 0x0, 0x0, 0x0, 0x0, 0x0, 0, 0⟩,  -- TIM_MENU_LATE_COUNT
  ⟨0x200200, [(8, 0x40), (16, 0x4)], 0x0, 0x0, 0x0, 0x0, 0x0, 0, 0⟩,  -- TIM_DSLACK_HIST
  ⟨0x200400, [(8, 0x20)], 0x3FFFFFFF, 0x0, 0x0, 0x0, 0x16A0C864, 0, 0⟩,  -- TIM_GOV_CFG
  ⟨0x200404, [(8, 0x20)], 0xFFFF03FF, 0x0, 0x0, 0x0, 0x2B84026C, 0, 0⟩,  -- TIM_GOV_LIMIT
  ⟨0x200408, [(8, 0x20)], 0x0, 0xC0000000, 0x0, 0x0, 0x0, 0, 0⟩,  -- TIM_GOV_STAT
  ⟨0x20040C, [(8, 0x20)], 0x0, 0x0, 0x0, 0x0, 0x7FFF, 0, 0⟩,  -- TIM_GOV_MINSLACK
  ⟨0x200800, [(16, 0x20), (8, 0x4)], 0x0, 0x0, 0x0, 0x0, 0x0, 0, 0⟩  -- TIM_WINDSOCK
]

/-- The registers of BAR0 block dma (R408). -/
def dma : List RegDesc := [
  ⟨0x300000, [], 0x1, 0x0, 0x0, 0x0, 0x0, 0, 0⟩,  -- DAT_CFG
  ⟨0x300004, [], 0x0, 0x1, 0x0, 0x0, 0x0, 0, 0⟩,  -- DAT_STAT
  ⟨0x300008, [], 0xFFFFF000, 0x0, 0x0, 0x0, 0x0, 0, 2⟩,  -- DAT_ROOT_LO
  ⟨0x30000C, [], 0xFFFFF, 0x0, 0x0, 0x0, 0x0, 4, 2⟩,  -- DAT_ROOT_HI
  ⟨0x300010, [], 0x0, 0x0, 0x0, 0x0, 0x0, 0, 0⟩,  -- DAT_HIT
  ⟨0x300014, [], 0x0, 0x0, 0x0, 0x0, 0x0, 0, 0⟩,  -- DAT_MISS
  ⟨0x300020, [], 0x7, 0x0, 0x0, 0x0, 0x0, 0, 0⟩,  -- DMA_INT_EN
  ⟨0x300024, [], 0x0, 0x7, 0x0, 0x0, 0x0, 0, 0⟩,  -- DMA_EVT
  ⟨0x300028, [], 0x0, 0x0, 0x0, 0x0, 0x0, 0, 0⟩,  -- DMA_FAULT_HEAD
  ⟨0x30002C, [], 0xFFFF, 0x0, 0x0, 0x0, 0x0, 0, 0⟩,  -- DMA_FAULT_TAIL
  ⟨0x300030, [], 0x0, 0x0, 0x0, 0x0, 0x0, 0, 0⟩,  -- DMA_FAULT_STAT
  ⟨0x300034, [], 0x0, 0x0, 0x0, 0x0, 0x0, 0, 0⟩,  -- DMA_TAG_NEXT
  ⟨0x300038, [], 0xFFFF, 0x0, 0x0, 0x0, 0x2710, 0, 0⟩,  -- DMA_TAG_CFG
  ⟨0x30003C, [], 0x0, 0x0, 0x0, 0x0, 0x0, 0, 0⟩,  -- DMA_WAIT_COUNT
  ⟨0x300100, [(8, 0x20)], 0x0, 0x0, 0x0, 0x0, 0x0, 0, 0⟩,  -- DMA_ENG_STAT
  ⟨0x300104, [(8, 0x20)], 0x0, 0x0, 0x0, 0x0, 0x0, 0, 0⟩,  -- DMA_ENG_CMD
  ⟨0x300108, [(8, 0x20)], 0x0, 0x0, 0x0, 0x0, 0x0, 0, 0⟩,  -- DMA_ENG_DONE
  ⟨0x30010C, [(8, 0x20)], 0x0, 0x0, 0x0, 0x0, 0x0, 0, 0⟩,  -- DMA_ENG_TOTAL
  ⟨0x301000, [(64, 0x20), (8, 0x4)], 0x0, 0x0, 0x0, 0x0, 0x0, 0, 0⟩  -- DMA_FAULT_LOG
]

/-- The registers of BAR0 block pwr (R408). -/
def pwr : List RegDesc := [
  ⟨0x400000, [], 0x3F, 0x0, 0x0, 0x0, 0x0, 0, 0⟩,  -- PWR_INT_EN
  ⟨0x400004, [], 0x0, 0x7F, 0x0, 0x0, 0x0, 0, 0⟩,  -- PWR_EVT
  ⟨0x400008, [], 0x1, 0x0, 0x0, 0x0, 0x1, 0, 0⟩,  -- PWR_CFG
  ⟨0x40000C, [], 0xFFFFFF, 0x0, 0x0, 0x0, 0x7, 0, 0⟩,  -- PWR_DOM_CTRL
  ⟨0x400010, [], 0x0, 0x0, 0x0, 0x0, 0x7, 0, 0⟩,  -- PWR_DOM_STAT
  ⟨0x400014, [], 0x0, 0xFFFF0000, 0x0, 0x0, 0x0, 0, 0⟩,  -- PWR_SUPPLY_STAT
  ⟨0x400018, [], 0x0, 0x0, 0x0, 0x0, 0x0, 0, 0⟩,  -- PWR_FAIL_STAT
  ⟨0x400020, [], 0xFFFF003F, 0x0, 0x0, 0x0, 0x320014, 0, 0⟩,  -- PWR_AVS_CFG
  ⟨0x400024, [], 0x0, 0x0, 0x0, 0x0, 0x0, 0, 0⟩,  -- PWR_AVS_STAT
  ⟨0x400040, [(8, 0x4)], 0x0, 0x0, 0x0, 0x0, 0x0, 0, 0⟩,  -- PWR_AVS_READ
  ⟨0x400060, [], 0x1FFFFFF, 0x0, 0x0, 0x0, 0x15F6E64, 0, 0⟩,  -- PWR_THERM_CFG
  ⟨0x400064, [], 0x3FF, 0x0, 0x0, 0x0, 0x352, 0, 0⟩,  -- PWR_THERM_LIMIT
  ⟨0x400068, [], 0x0, 0x40000, 0x0, 0x0, 0x0, 0, 0⟩,  -- PWR_THERM_STAT
  ⟨0x400080, [(32, 0x4)], 0x0, 0x0, 0x0, 0x0, 0x0, 0, 0⟩,  -- PWR_TEMP
  ⟨0x400100, [], 0xFFFFFFFF, 0x0, 0x0, 0x0, 0x640000, 0, 0⟩,  -- PWR_BAL_CFG
  ⟨0x400104, [], 0xFFFFFFFF, 0x0, 0x0, 0x0, 0x0, 0, 0⟩,  -- PWR_BAL_C
  ⟨0x400108, [], 0xFFFFFF, 0x0, 0x0, 0x0, 0x320000, 0, 0⟩,  -- PWR_BAL_VMIN
  ⟨0x40010C, [], 0xFFFFFF, 0x0, 0x0, 0x0, 0x641F4, 0, 0⟩,  -- PWR_BAL_MODEL
  ⟨0x400110, [], 0xFFFFFFFF, 0x0, 0x0, 0x0, 0x10BB8, 0, 0⟩,  -- PWR_BAL_PHOLD
  ⟨0x400114, [], 0x0, 0x0, 0x0, 0x0, 0x0, 0, 0⟩,  -- PWR_BAL_LAST
  ⟨0x400118, [], 0x0, 0x0, 0x0, 0x0, 0x0, 0, 0⟩,  -- PWR_BAL_NEED
  ⟨0x40011C, [], 0x0, 0x0, 0x0, 0x0, 0x0, 0, 0⟩,  -- PWR_BAL_SENSE
  ⟨0x400120, [], 0x0, 0x0, 0x0, 0x0, 0x0, 0, 0⟩,  -- PWR_LDG_SEQ
  ⟨0x400124, [], 0x0, 0x0, 0x0, 0x0, 0x0, 0, 0⟩,  -- PWR_LDG_CNT
  ⟨0x400128, [], 0x7FF, 0x0, 0x0, 0x0, 0x0, 0, 0⟩,  -- PWR_LDG_SEL
  ⟨0x400200, [(64, 0x4)], 0x0, 0x0, 0x0, 0x0, 0x0, 0, 0⟩  -- PWR_LDG_DATA
]

/-- The registers of BAR0 block mgt (R408). -/
def mgt : List RegDesc := [
  ⟨0x500000, [], 0x3F, 0x0, 0x0, 0x0, 0x0, 0, 0⟩,  -- MGT_INT_EN
  ⟨0x500004, [], 0x0, 0x3F, 0x0, 0x0, 0x0, 0, 0⟩,  -- MGT_EVT
  ⟨0x500010, [], 0x37F, 0x0, 0x0, 0x0, 0x200, 0, 0⟩,  -- MGT_SMB_CFG
  ⟨0x500014, [], 0x0, 0x0, 0x0, 0x0, 0x0, 0, 0⟩,  -- MGT_SMB_STAT
  ⟨0x500018, [], 0x0, 0x0, 0x0, 0x0, 0x0, 0, 0⟩,  -- MGT_SMB_WADDR
  ⟨0x50001C, [], 0x0, 0x0, 0x0, 0x0, 0x0, 0, 0⟩,  -- MGT_MCTP_STAT
  ⟨0x500030, [], 0xFFFFFF0F, 0x0, 0x0, 0x0, 0xA10320B, 0, 0⟩,  -- MGT_MOD_CFG
  ⟨0x500034, [], 0x1, 0x0, 0x6, 0x0, 0x0, 0, 0⟩,  -- MGT_MOD_CTRL
  ⟨0x500038, [], 0x0, 0x0, 0x0, 0x0, 0x0, 0, 0⟩,  -- MGT_MOD_STAT
  ⟨0x50003C, [], 0x0, 0x0, 0x0, 0x0, 0x0, 0, 0⟩  -- MGT_MOD_CNT
]

/-- The registers of BAR0 block sec (R408). -/
def sec : List RegDesc := [
  ⟨0x600000, [], 0x0, 0x0, 0x0, 0x0, 0x0, 0, 0⟩,  -- SEC_STAT
  ⟨0x600004, [], 0x0, 0x0, 0x0, 0x0, 0x0, 0, 0⟩,  -- SEC_CHAIN_LEN
  ⟨0x600008, [], 0x0, 0x0, 0x0, 0x0, 0x0, 0, 0⟩  -- SEC_COUNT
]

/-- The registers of BAR0 block rdlTb (R408). -/
def rdlTb : List RegDesc := [
  ⟨0x710000, [(3072, 0x40)], 0x803FFFFF, 0x0, 0x0, 0x0, 0xA0000, 0, 0⟩,  -- RDL_CH_FIELD
  ⟨0x710004, [(3072, 0x40)], 0xFFFFFFFF, 0x0, 0x0, 0x0, 0x1, 0, 0⟩,  -- RDL_CH_SCALE0
  ⟨0x710008, [(3072, 0x40)], 0xFFFFFFFF, 0x0, 0x0, 0x0, 0x1, 0, 0⟩,  -- RDL_CH_SCALE1
  ⟨0x71000C, [(3072, 0x40)], 0xFFFF, 0x0, 0x0, 0x0, 0x0, 0, 0⟩,  -- RDL_CH_FILL
  ⟨0x710010, [(3072, 0x40)], 0xFFFFFFFF, 0x0, 0x0, 0x0, 0x7FFF8001, 0, 0⟩,  -- RDL_CH_LIMIT
  ⟨0x710014, [(3072, 0x40)], 0x7FFF, 0x0, 0x0, 0x0, 0x0, 0, 0⟩,  -- RDL_CH_TRACK
  ⟨0x710018, [(3072, 0x40)], 0x0, 0x0, 0x0, 0x0, 0x0, 0, 0⟩,  -- RDL_CH_TMAX
  ⟨0x71001C, [(3072, 0x40)], 0x0, 0x0, 0x0, 0x0, 0x0, 0, 3⟩,  -- RDL_CH_MSE_LO
  ⟨0x710020, [(3072, 0x40)], 0x0, 0x0, 0x0, 0x0, 0x0, 4, 3⟩,  -- RDL_CH_MSE_HI
  ⟨0x710024, [(3072, 0x40)], 0x0, 0x0, 0x0, 0x0, 0x0, 8, 3⟩,  -- RDL_CH_CNT
  ⟨0x710028, [(3072, 0x40)], 0x0, 0x0, 0x0, 0x0, 0x0, 0, 0⟩  -- RDL_CH_STAT
]

/-- The registers of BAR0 block inl (R408). -/
def inl : List RegDesc := [
  ⟨0x800000, [(2, 0x100000)], 0xFFF, 0x0, 0x0, 0x0, 0x0, 0, 0⟩,  -- INL_XOFFSET
  ⟨0x800004, [(2, 0x100000)], 0x0, 0x0, 0x0, 0x0, 0x0, 0, 2⟩,  -- INL_EXPECT_LO
  ⟨0x800008, [(2, 0x100000)], 0x0, 0x0, 0x0, 0x0, 0x0, 4, 2⟩,  -- INL_EXPECT_HI
  ⟨0x80000C, [(2, 0x100000)], 0x0, 0x0, 0x0, 0x0, 0x0, 0, 2⟩,  -- INL_LOCK_LO
  ⟨0x800010, [(2, 0x100000)], 0x0, 0x0, 0x0, 0x0, 0x0, 4, 2⟩,  -- INL_LOCK_HI
  ⟨0x800014, [(2, 0x100000)], 0x0, 0x0, 0x0, 0x1, 0x0, 0, 0⟩,  -- INL_CNT_CLEAR
  ⟨0x801000, [(2, 0x100000), (48, 0x40)], 0x1FF, 0x0, 0x0, 0x0, 0x0, 0, 0⟩,  -- INL_LANE_CFG
  ⟨0x801004, [(2, 0x100000), (48, 0x40)], 0x33F, 0x0, 0x0, 0x0, 0x0, 0, 0⟩,  -- INL_LANE_ALIGN
  ⟨0x801008, [(2, 0x100000), (48, 0x40)], 0xFFFFFFFF, 0x0, 0x0, 0x0, 0x5A3CC3A5, 0, 0⟩,  -- INL_LANE_MARKER
  ⟨0x80100C, [(2, 0x100000), (48, 0x40)], 0x0, 0x0, 0x0, 0x0, 0x0, 0, 0⟩,  -- INL_LANE_STATE
  ⟨0x801010, [(2, 0x100000), (48, 0x40)], 0x0, 0x1F, 0x0, 0x0, 0x0, 0, 0⟩,  -- INL_LANE_EVT
  ⟨0x801014, [(2, 0x100000), (48, 0x40)], 0x0, 0x0, 0x0, 0x0, 0x0, 0, 0⟩,  -- INL_LANE_ERR0
  ⟨0x801018, [(2, 0x100000), (48, 0x40)], 0x0, 0x0, 0x0, 0x0, 0x0, 0, 0⟩,  -- INL_LANE_ERR1
  ⟨0x80101C, [(2, 0x100000), (48, 0x40)], 0x0, 0x0, 0x0, 0x0, 0x0, 0, 0⟩,  -- INL_LANE_ERR2
  ⟨0x801020, [(2, 0x100000), (48, 0x40)], 0x0, 0x0, 0x0, 0x0, 0x0, 0, 0⟩,  -- INL_LANE_ERR3
  ⟨0x801024, [(2, 0x100000), (48, 0x40)], 0x0, 0x0, 0x0, 0x0, 0x0, 0, 0⟩,  -- INL_LANE_ERR4
  ⟨0x801028, [(2, 0x100000), (48, 0x40)], 0x0, 0x0, 0x0, 0x0, 0x0, 0, 0⟩,  -- INL_LANE_CAND
  ⟨0x80102C, [(2, 0x100000), (48, 0x40)], 0x0, 0x0, 0x0, 0x0, 0x0, 0, 0⟩,  -- INL_LANE_HDR
  ⟨0x801030, [(2, 0x100000), (48, 0x40)], 0x0, 0x0, 0x0, 0x0, 0x0, 0, 0⟩  -- INL_LANE_SRC
]

/-- The registers of BAR0 block rdl (R408). -/
def rdl : List RegDesc := [
  ⟨0xA00000, [], 0x0, 0xF, 0x0, 0x0, 0x0, 0, 0⟩,  -- RDL_STATUS
  ⟨0xA00004, [], 0xF, 0x0, 0x0, 0x0, 0x0, 0, 0⟩,  -- RDL_INT_EN
  ⟨0xA00008, [], 0x0, 0x0, 0x0, 0x0, 0x0, 0, 0⟩,  -- RDL_CLAMP_COUNT
  ⟨0xA0000C, [], 0x0, 0x0, 0x0, 0x0, 0x0, 0, 0⟩,  -- RDL_HOLD_COUNT
  ⟨0xA00010, [(8, 0x4)], 0x1, 0x0, 0x0, 0x0, 0x0, 0, 0⟩,  -- RDL_MENU_SSEL
  ⟨0xA10000, [(3072, 0x40)], 0x803FFFFF, 0x0, 0x0, 0x0, 0xA0000, 0, 0⟩,  -- RDL_CH_FIELD
  ⟨0xA10004, [(3072, 0x40)], 0xFFFFFFFF, 0x0, 0x0, 0x0, 0x1, 0, 0⟩,  -- RDL_CH_SCALE0
  ⟨0xA10008, [(3072, 0x40)], 0xFFFFFFFF, 0x0, 0x0, 0x0, 0x1, 0, 0⟩,  -- RDL_CH_SCALE1
  ⟨0xA1000C, [(3072, 0x40)], 0xFFFF, 0x0, 0x0, 0x0, 0x0, 0, 0⟩,  -- RDL_CH_FILL
  ⟨0xA10010, [(3072, 0x40)], 0xFFFFFFFF, 0x0, 0x0, 0x0, 0x7FFF8001, 0, 0⟩,  -- RDL_CH_LIMIT
  ⟨0xA10014, [(3072, 0x40)], 0x7FFF, 0x0, 0x0, 0x0, 0x0, 0, 0⟩,  -- RDL_CH_TRACK
  ⟨0xA10018, [(3072, 0x40)], 0x0, 0x0, 0x0, 0x0, 0x0, 0, 0⟩,  -- RDL_CH_TMAX
  ⟨0xA1001C, [(3072, 0x40)], 0x0, 0x0, 0x0, 0x0, 0x0, 0, 3⟩,  -- RDL_CH_MSE_LO
  ⟨0xA10020, [(3072, 0x40)], 0x0, 0x0, 0x0, 0x0, 0x0, 4, 3⟩,  -- RDL_CH_MSE_HI
  ⟨0xA10024, [(3072, 0x40)], 0x0, 0x0, 0x0, 0x0, 0x0, 8, 3⟩,  -- RDL_CH_CNT
  ⟨0xA10028, [(3072, 0x40)], 0x0, 0x0, 0x0, 0x0, 0x0, 0, 0⟩  -- RDL_CH_STAT
]

/-- The registers of BAR0 block dec (R408). -/
def dec : List RegDesc := [
  ⟨0xB00000, [], 0x3F, 0x0, 0x0, 0x0, 0x0, 0, 0⟩,  -- DEC_INT_EN
  ⟨0xB00010, [], 0xFFFFFF01, 0x0, 0x0, 0x0, 0x3E800, 0, 0⟩,  -- DEC_VETO_CFG
  ⟨0xB00014, [], 0x0, 0x2, 0x0, 0x0, 0x1, 0, 0⟩,  -- DEC_VETO_STAT
  ⟨0xB00018, [], 0x0, 0x0, 0x0, 0x0, 0x0, 0, 0⟩,  -- DEC_VETO_COUNT
  ⟨0xB00020, [], 0xFFFFFF03, 0x0, 0x0, 0x0, 0x271001, 0, 0⟩,  -- DEC_SYNC_CFG
  ⟨0xB00024, [], 0x0, 0x30, 0x0, 0x0, 0x0, 0, 0⟩,  -- DEC_SYNC_STAT
  ⟨0xB00028, [], 0x0, 0x0, 0x0, 0x0, 0x0, 0, 2⟩,  -- DEC_SYNC_LAUNCH_LO
  ⟨0xB0002C, [], 0x0, 0x0, 0x0, 0x0, 0x0, 4, 2⟩,  -- DEC_SYNC_LAUNCH_HI
  ⟨0xB00030, [], 0x7, 0x0, 0x0, 0x0, 0x1, 0, 0⟩,  -- DEC_FAULTN_MASK
  ⟨0xB00034, [], 0x0, 0x0, 0x0, 0x0, 0x0, 0, 0⟩,  -- DEC_PINS
  ⟨0xB00038, [], 0x0, 0x0, 0x0, 0x0, 0x0, 0, 0⟩,  -- DEC_RESULT_ERR
  ⟨0xB00100, [(8, 0x4)], 0x3, 0x0, 0x0, 0x0, 0x0, 0, 0⟩,  -- DEC_LANE_CFG
  ⟨0xB00120, [(8, 0x4)], 0x0, 0x1, 0x0, 0x0, 0x0, 0, 0⟩,  -- DEC_LANE_STAT
  ⟨0xB00200, [(8, 0x4)], 0x0, 0x0, 0x0, 0x0, 0x0, 0, 0⟩  -- DEC_MENU_MAP
]

/-- The registers of BAR0 block tth (R408). -/
def tth : List RegDesc := [
  ⟨0xC00000, [], 0x1FF, 0x0, 0x0, 0x0, 0x0, 0, 0⟩,  -- TTH_INT_EN
  ⟨0xC00004, [], 0x0, 0x6, 0x0, 0x0, 0x0, 0, 0⟩,  -- TTH_STATUS
  ⟨0xC00008, [], 0xFFFF, 0x0, 0x0, 0x0, 0x64, 0, 0⟩,  -- TTH_READ_CFG
  ⟨0xC00010, [], 0x0, 0x0, 0x0, 0x0, 0x0, 0, 0⟩,  -- TTH_PE_HEAD
  ⟨0xC00014, [], 0xFFFF, 0x0, 0x0, 0x0, 0x0, 0, 0⟩,  -- TTH_PE_TAIL
  ⟨0xC00018, [], 0x0, 0x0, 0x0, 0x0, 0x0, 0, 0⟩,  -- TTH_PE_STAT
  ⟨0xC00020, [(8, 0x8)], 0xFFFFFFFF, 0x0, 0x0, 0x0, 0x0, 0, 0⟩,  -- TTH_WIN_BASE
  ⟨0xC00024, [(8, 0x8)], 0xFFFFFF, 0x0, 0x0, 0x0, 0x0, 0, 0⟩,  -- TTH_WIN_SIZE
  ⟨0xC00400, [(64, 0x10), (4, 0x4)], 0x0, 0x0, 0x0, 0x0, 0x0, 0, 0⟩,  -- TTH_PE_RING
  ⟨0xC01000, [(6, 0x40)], 0xFFFF1F3, 0x0, 0x4, 0x0, 0x3E8100, 0, 0⟩,  -- TTH_PORT_CFG
  ⟨0xC01004, [(6, 0x40)], 0x0, 0x0, 0x0, 0x0, 0x0, 0, 0⟩,  -- TTH_PORT_STATE
  ⟨0xC01008, [(6, 0x40)], 0x0, 0x7, 0x0, 0x0, 0x0, 0, 0⟩,  -- TTH_PORT_EVT
  ⟨0xC0100C, [(6, 0x40)], 0x0, 0x0, 0x0, 0x0, 0x0, 0, 0⟩,  -- TTH_PORT_HOP
  ⟨0xC01010, [(6, 0x40)], 0x0, 0x0, 0x0, 0x0, 0x0, 0, 0⟩,  -- TTH_PORT_ERR0
  ⟨0xC01014, [(6, 0x40)], 0x0, 0x0, 0x0, 0x0, 0x0, 0, 0⟩,  -- TTH_PORT_ERR1
  ⟨0xC01018, [(6, 0x40)], 0x0, 0x0, 0x0, 0x0, 0x0, 0, 0⟩  -- TTH_PORT_ERR2
]

/-- The registers of BAR0 block col (R408). -/
def col : List RegDesc := [
  ⟨0xD00000, [], 0x1FF, 0x0, 0x0, 0x0, 0x0, 0, 0⟩,  -- COL_SELF
  ⟨0xD00004, [], 0x1FF, 0x0, 0x0, 0x0, 0x1FF, 0, 0⟩,  -- COL_TORUS
  ⟨0xD00008, [], 0xFFF0FF1, 0x0, 0x0, 0x0, 0x3E80060, 0, 0⟩,  -- COL_SURVEY_CFG
  ⟨0xD0000C, [], 0x0, 0xF000000, 0x0, 0x0, 0x0, 0, 0⟩,  -- COL_SURVEY_STAT
  ⟨0xD00010, [], 0x0, 0x0, 0x0, 0x0, 0x0, 0, 0⟩,  -- COL_TOPO_GEN
  ⟨0xD00014, [], 0x0, 0x0, 0x0, 0x0, 0x0, 0, 0⟩,  -- COL_TOPO_COUNT
  ⟨0xD00018, [], 0x0, 0x0, 0x0, 0x0, 0x0, 0, 0⟩,  -- COL_PORT_MISWIRE
  ⟨0xD0001C, [], 0x0, 0x1, 0x0, 0x0, 0x0, 0, 0⟩,  -- COL_BRIDLE_EVT
  ⟨0xD00020, [], 0xF, 0x0, 0x0, 0x0, 0x0, 0, 0⟩,  -- COL_INT_EN
  ⟨0xD00040, [(16, 0x4)], 0x0, 0x0, 0x0, 0x0, 0x0, 0, 0⟩,  -- COL_VC
  ⟨0xD10000, [(512, 0x20), (8, 0x4)], 0x0, 0x0, 0x0, 0x0, 0x0, 0, 0⟩,  -- COL_TOPO
  ⟨0xD20000, [(64, 0x80), (32, 0x4)], 0x0, 0x0, 0x0, 0x0, 0x0, 0, 0⟩,  -- COL_BRIDLE
  ⟨0xD00080, [], 0x7, 0x0, 0x0, 0x0, 0x0, 0, 0⟩,  -- COL_ENG_INT_EN
  ⟨0xD00084, [], 0x0, 0x7, 0x0, 0x0, 0x0, 0, 0⟩,  -- COL_ENG_EVT
  ⟨0xD00088, [], 0x0, 0x0, 0x0, 0x0, 0x0, 0, 0⟩,  -- COL_CHUNK_STAT
  ⟨0xD0008C, [], 0x0, 0x0, 0x0, 0x0, 0x0, 0, 0⟩,  -- COL_DROP_STAT
  ⟨0xD00090, [], 0x0, 0x0, 0x0, 0x0, 0x0, 0, 0⟩,  -- COL_EARLY_STAT
  ⟨0xD00094, [], 0x0, 0x0, 0x0, 0x0, 0x0, 0, 0⟩,  -- COL_PILOT_STAT
  ⟨0xD00400, [(16, 0x20)], 0x0, 0x0, 0x0, 0x0, 0x0, 0, 0⟩,  -- COL_VC_INST
  ⟨0xD00404, [(16, 0x20)], 0x0, 0x0, 0x0, 0x0, 0x0, 0, 0⟩,  -- COL_VC_PROG
  ⟨0xD00408, [(16, 0x20)], 0x0, 0x0, 0x0, 0x0, 0x0, 0, 0⟩,  -- COL_VC_HOLD
  ⟨0xD30000, [(256, 0x20), (8, 0x4)], 0x0, 0x0, 0x0, 0x0, 0x0, 0, 0⟩,  -- COL_SCHED
  ⟨0xD32000, [(64, 0x10), (4, 0x4)], 0x0, 0x0, 0x0, 0x0, 0x0, 0, 0⟩,  -- COL_ZONE
  ⟨0xD40000, [(64, 0x10)], 0x0, 0x0, 0x0, 0x0, 0x0, 0, 0⟩,  -- COL_LZ_REL
  ⟨0xD40004, [(64, 0x10)], 0x0, 0x0, 0x0, 0x0, 0x0, 0, 0⟩,  -- COL_LZ_LANDED
  ⟨0xD40008, [(64, 0x10)], 0x0, 0x0, 0x0, 0x0, 0x0, 0, 0⟩,  -- COL_LZ_MARK
  ⟨0xD000C0, [], 0xFFF, 0x0, 0x0, 0x0, 0xA0, 0, 0⟩,  -- COL_ABORT_CFG
  ⟨0xD000C4, [], 0x0, 0x3F, 0x0, 0x0, 0x0, 0, 0⟩,  -- COL_ABORT_EVT
  ⟨0xD000C8, [], 0x3F, 0x0, 0x0, 0x0, 0x0, 0, 0⟩,  -- COL_ABORT_INT_EN
  ⟨0xD000CC, [], 0x0, 0x0, 0x0, 0x0, 0x0, 0, 0⟩,  -- COL_ABORT_STAT
  ⟨0xD000D0, [], 0x0, 0x0, 0x0, 0x0, 0x0, 0, 0⟩,  -- COL_ABORT_STAT2
  ⟨0xD000D4, [], 0x0, 0x0, 0x0, 0x0, 0x0, 0, 0⟩,  -- COL_TRANSIT_MAP
  ⟨0xD000D8, [], 0xFFFF, 0x0, 0x0, 0x0, 0x64, 0, 0⟩,  -- COL_TRANSIT_CFG
  ⟨0xD000E0, [], 0x0, 0x0, 0x0, 0x0, 0x0, 0, 0⟩,  -- COL_ABORT_HEAD
  ⟨0xD000E4, [], 0xFFFF, 0x0, 0x0, 0x0, 0x0, 0, 0⟩,  -- COL_ABORT_TAIL
  ⟨0xD000E8, [], 0x0, 0x0, 0x0, 0x0, 0x0, 0, 0⟩,  -- COL_GRAFT_STAT
  ⟨0xD000EC, [], 0xFFFF, 0x0, 0x0, 0x0, 0x3E8, 0, 0⟩,  -- COL_GRAFT_CFG
  ⟨0xD00600, [(64, 0x4)], 0x0, 0x0, 0x0, 0x0, 0x0, 0, 0⟩,  -- COL_GROUP_W
  ⟨0xD00800, [(32, 0x10), (4, 0x4)], 0x0, 0x0, 0x0, 0x0, 0x0, 0, 0⟩  -- COL_ABORT_LOG
]

/-- The registers of BAR0 block cfm (R408). -/
def cfm : List RegDesc := [
  ⟨0xE00000, [], 0x3F, 0x0, 0x0, 0x0, 0x0, 0, 0⟩,  -- CFM_INT_EN
  ⟨0xE00004, [], 0x0, 0x3F, 0x0, 0x0, 0x0, 0, 0⟩,  -- CFM_EVT
  ⟨0xE00008, [], 0x0, 0x0, 0x0, 0x0, 0x0, 0, 0⟩,  -- CFM_CAP_CFG
  ⟨0xE0000C, [], 0x0, 0x0, 0x0, 0x0, 0x0, 0, 0⟩,  -- CFM_CAP_TRIG
  ⟨0xE00010, [], 0x0, 0x0, 0x0, 0x0, 0x0, 0, 0⟩,  -- CFM_CAP_STAT
  ⟨0xE00014, [], 0x0, 0x0, 0x0, 0x0, 0x0, 0, 2⟩,  -- CFM_CAP_OLDEST_LO
  ⟨0xE00018, [], 0x0, 0x0, 0x0, 0x0, 0x0, 4, 2⟩,  -- CFM_CAP_OLDEST_HI
  ⟨0xE0001C, [], 0x0, 0x0, 0x0, 0x0, 0x0, 0, 2⟩,  -- CFM_CAP_NEWEST_LO
  ⟨0xE00020, [], 0x0, 0x0, 0x0, 0x0, 0x0, 4, 2⟩,  -- CFM_CAP_NEWEST_HI
  ⟨0xE00024, [], 0x0, 0x0, 0x0, 0x0, 0x0, 0, 2⟩,  -- CFM_CAP_TRIG_X_LO
  ⟨0xE00028, [], 0x0, 0x0, 0x0, 0x0, 0x0, 4, 2⟩,  -- CFM_CAP_TRIG_X_HI
  ⟨0xE0002C, [], 0x0, 0x0, 0x0, 0x0, 0x0, 0, 0⟩,  -- CFM_ECC_STAT
  ⟨0xE00030, [], 0x0, 0x0, 0x0, 0x0, 0x0, 0, 0⟩,  -- CFM_RPL_STAT
  ⟨0xE00034, [], 0xFFFF, 0x0, 0x0, 0x0, 0x3E8, 0, 0⟩,  -- CFM_RPL_CFG
  ⟨0xE00038, [], 0x0, 0x0, 0x0, 0x0, 0x0, 0, 2⟩,  -- CFM_RPL_CUR_LO
  ⟨0xE0003C, [], 0x0, 0x0, 0x0, 0x0, 0x0, 4, 2⟩,  -- CFM_RPL_CUR_HI
  ⟨0xE00040, [], 0x0, 0x0, 0x0, 0x0, 0x0, 0, 0⟩,  -- CFM_SHD_CFG
  ⟨0xE00044, [], 0x0, 0x0, 0x0, 0x0, 0x0, 0, 0⟩,  -- CFM_SHD_QUEUE
  ⟨0xE00048, [], 0x0, 0x0, 0x0, 0x0, 0x0, 0, 0⟩,  -- CFM_SHD_COUNT
  ⟨0xE0004C, [], 0x0, 0x0, 0x0, 0x0, 0x0, 0, 0⟩,  -- CFM_SHD_SKIP
  ⟨0xE00050, [], 0x0, 0x0, 0x0, 0x0, 0x0, 0, 0⟩,  -- CFM_SHD_INVALID
  ⟨0xE00058, [], 0x0, 0x0, 0x0, 0x0, 0x0, 0, 0⟩,  -- CFM_MM_HEAD
  ⟨0xE0005C, [], 0xFFFF, 0x0, 0x0, 0x0, 0x0, 0, 0⟩,  -- CFM_MM_TAIL
  ⟨0xE00100, [(16, 0x10), (4, 0x4)], 0x0, 0x0, 0x0, 0x0, 0x0, 0, 0⟩  -- CFM_MM_LOG
]

/-- The registers of BAR0 block det (R408). -/
def det : List RegDesc := [
  ⟨0xF00000, [], 0xF3, 0x0, 0x0, 0x0, 0x0, 0, 0⟩,  -- DET_CTRL
  ⟨0xF00004, [], 0x0, 0xF, 0x0, 0x0, 0x0, 0, 0⟩,  -- DET_STATUS
  ⟨0xF00008, [], 0x0, 0x0, 0x0, 0x0, 0x0, 0, 0⟩,  -- DET_DMAP_DIGEST
  ⟨0xF0000C, [], 0x0, 0x0, 0x0, 0x0, 0x0, 0, 0⟩,  -- DET_FENCE
  ⟨0xF00010, [], 0x0, 0x0, 0x0, 0x0, 0x0, 0, 0⟩,  -- DET_PRUNE_STAT
  ⟨0xF00014, [], 0x0, 0x0, 0x0, 0x0, 0x0, 0, 2⟩,  -- DET_SHADOW_SEED_LO
  ⟨0xF00018, [], 0x0, 0x0, 0x0, 0x0, 0x0, 4, 2⟩,  -- DET_SHADOW_SEED_HI
  ⟨0xF0001C, [], 0x0, 0x0, 0x0, 0x0, 0x0, 0, 0⟩,  -- DET_SHADOW_CFG
  ⟨0xF00020, [], 0x0, 0x0, 0x0, 0x0, 0x0, 0, 0⟩,  -- DET_ORBIT_SEQ
  ⟨0xF00024, [], 0x0, 0x0, 0x0, 0x0, 0x0, 0, 0⟩,  -- DET_TRACE_STAT
  ⟨0xF00100, [(128, 0x4)], 0x0, 0x0, 0x0, 0x0, 0x0, 0, 0⟩,  -- DET_ROW_MAP
  ⟨0xF00800, [(8, 0x10), (3, 0x4)], 0x0, 0x0, 0x0, 0x0, 0x0, 0, 0⟩,  -- DET_ORBIT_INFO
  ⟨0xF01000, [(8, 0x200), (64, 0x8)], 0x0, 0x0, 0x0, 0x0, 0x0, 0, 2⟩,  -- DET_ORBIT_DIG_LO
  ⟨0xF01004, [(8, 0x200), (64, 0x8)], 0x0, 0x0, 0x0, 0x0, 0x0, 4, 2⟩  -- DET_ORBIT_DIG_HI
]

/-- The registers of BAR0 block trl (R408). TRL_CU_MAP0 to TRL_CU_MAP2 are three registers, no value of R9 (log 128). -/
def trl : List RegDesc := [
  ⟨0x1000000, [(16, 0x100000)], 0x0, 0x0, 0x0, 0x0, 0xB000, 0, 0⟩,  -- TRL_DIE_INFO
  ⟨0x1000004, [(16, 0x100000)], 0x0, 0x0, 0x0, 0x0, 0x0, 0, 0⟩,  -- TRL_CU_MAP0
  ⟨0x1000008, [(16, 0x100000)], 0x0, 0x0, 0x0, 0x0, 0x0, 0, 0⟩,  -- TRL_CU_MAP1
  ⟨0x100000C, [(16, 0x100000)], 0x0, 0x0, 0x0, 0x0, 0x0, 0, 0⟩,  -- TRL_CU_MAP2
  ⟨0x1000010, [(16, 0x100000)], 0x0, 0x0, 0x0, 0x0, 0x0, 0, 0⟩,  -- TRL_OVF_COUNT
  ⟨0x1000014, [(16, 0x100000)], 0x0, 0x0, 0x0, 0x0, 0x0, 0, 0⟩,  -- TRL_ECC_CORR
  ⟨0x1000018, [(16, 0x100000)], 0x0, 0x0, 0x0, 0x0, 0x0, 0, 0⟩,  -- TRL_BRIDGE_RETRY
  ⟨0x100001C, [(16, 0x100000)], 0x0, 0x0, 0x0, 0x1, 0x0, 0, 0⟩,  -- TRL_CNT_CLEAR
  ⟨0x1010000, [(16, 0x100000), (104, 0x40)], 0x0, 0x0, 0x0, 0x0, 0x0, 0, 0⟩,  -- TRL_SITE_CUR
  ⟨0x1010004, [(16, 0x100000), (104, 0x40)], 0x0, 0x0, 0x0, 0x0, 0x0, 0, 0⟩,  -- TRL_SITE_CNT01
  ⟨0x1010008, [(16, 0x100000), (104, 0x40)], 0x0, 0x0, 0x0, 0x0, 0x0, 0, 0⟩,  -- TRL_SITE_CNT23
  ⟨0x101000C, [(16, 0x100000), (104, 0x40)], 0x0, 0x0, 0x0, 0x0, 0x0, 0, 0⟩,  -- TRL_SITE_QOCC
  ⟨0x1000100, [(16, 0x100000)], 0x1FF, 0x0, 0x0, 0x0, 0x119, 0, 0⟩,  -- TRL_SCHED_CFG
  ⟨0x1000104, [(16, 0x100000)], 0xFFF, 0x0, 0x0, 0x0, 0xC8, 0, 0⟩,  -- TRL_STALL_CFG
  ⟨0x1000108, [(16, 0x100000)], 0x7, 0x0, 0x0, 0x0, 0x0, 0, 0⟩,  -- TRL_FAULT_CFG
  ⟨0x100010C, [(16, 0x100000)], 0x0, 0x0, 0x0, 0x0, 0x0, 0, 0⟩,  -- TRL_FAULT_STAT
  ⟨0x1000110, [(16, 0x100000)], 0x0, 0x0, 0x0, 0x0, 0x0, 0, 0⟩,  -- TRL_FAULT_HEAD
  ⟨0x1000114, [(16, 0x100000)], 0xFFFF, 0x0, 0x0, 0x0, 0x0, 0, 0⟩,  -- TRL_FAULT_TAIL
  ⟨0x1000118, [(16, 0x100000)], 0x0, 0x0, 0x0, 0x0, 0x0, 0, 0⟩,  -- TRL_SPILL_STAT
  ⟨0x100011C, [(16, 0x100000)], 0x0, 0x0, 0x0, 0x0, 0x0, 0, 0⟩,  -- TRL_SCHED_LOG
  ⟨0x1000120, [(16, 0x100000)], 0x0, 0x0, 0x0, 0x0, 0x0, 0, 0⟩,  -- TRL_SPILL_LAST
  ⟨0x1000124, [(16, 0x100000)], 0x0, 0x3, 0x0, 0x0, 0x0, 0, 0⟩,  -- TRL_FAULT_EVT
  ⟨0x1000128, [(16, 0x100000)], 0x0, 0x0, 0x0, 0x1, 0x0, 0, 0⟩,  -- TRL_FSTAT_CLEAR
  ⟨0x1001000, [(16, 0x100000), (32, 0x20), (8, 0x4)], 0x0, 0x0, 0x0, 0x0, 0x0, 0, 0⟩,  -- TRL_FAULT_LOG
  ⟨0x1020000, [(16, 0x100000), (104, 0x10)], 0x0, 0x0, 0x0, 0x0, 0x0, 0, 0⟩,  -- TRL_SITE_FSTAT
  ⟨0x1020004, [(16, 0x100000), (104, 0x10)], 0x0, 0x0, 0x0, 0x0, 0x0, 0, 0⟩,  -- TRL_SITE_SPILL
  ⟨0x1020008, [(16, 0x100000), (104, 0x10)], 0x0, 0x0, 0x0, 0x0, 0x0, 0, 0⟩,  -- TRL_SITE_WAITMAX
  ⟨0x102000C, [(16, 0x100000), (104, 0x10)], 0x0, 0x0, 0x0, 0x0, 0x0, 0, 0⟩  -- TRL_SITE_FCOUNT
]

/-- The registers of the block that holds offset `o` (the block map of R408). -/
def block (o : Nat) : List RegDesc :=
  match o / 0x100000 with
  | 0 => hub
  | 1 => int
  | 2 => tim
  | 3 => dma
  | 4 => pwr
  | 5 => mgt
  | 6 => sec
  | 7 => rdlTb
  | 8 => inl
  | 9 => inl
  | 10 => rdl
  | 11 => dec
  | 12 => tth
  | 13 => col
  | 14 => cfm
  | 15 => det
  | b => if b < 32 then trl else []

/-- Does the distance `r` from element 0 name an element of an array of these dimensions? -/
def hits (r : Nat) : List (Nat × Nat) → Bool
  | [] => r == 0
  | (n, stride) :: rest => r / stride < n && hits (r % stride) rest

/-- Is `o` an offset of register row `d`? -/
def RegDesc.covers (d : RegDesc) (o : Nat) : Bool := d.base ≤ o && hits (o - d.base) d.dims

/-- The register row that offset `o` belongs to; none for an offset that no chapter assigns (R408). -/
def find (o : Nat) : Option RegDesc := (block o).find? (fun d => RegDesc.covers d o)

/-- The value a register has after reset, by its table; 0 for an unassigned offset (R408). -/
def resetVal (o : Nat) : Word := (find o).elim 0 (fun d => BitVec.ofNat 32 d.reset)

end RegMap

end Sys2Proof
end

