-- ==== Sys2Proof/Machine/Table.lean ====
section
/-!
DEFINITION. Reading and writing sparse data by key (`Tbl`, Word.lean). A table is read through a default: `d k` is what
an unlisted key `k` reads as. The canonical form: keys strictly rising and no entry equal to its default, so that
equal contents are equal lists. The lemmas are in Laws/Table.lean.
-/
namespace Sys2Proof.Machine

/-- What key `k` reads as. -/
def tget {α : Type} (d : Nat → α) : Tbl α → Nat → α
  | [], k => d k
  | (j, v) :: t, k => if j = k then v else tget d t k

/-- Insert an entry at its place, replacing one with the same key. -/
def tins {α : Type} (k : Nat) (v : α) : Tbl α → Tbl α
  | [] => [(k, v)]
  | (j, w) :: t => if j < k then (j, w) :: tins k v t else if j = k then (k, v) :: t else (k, v) :: (j, w) :: t

/-- Remove the entry with key `k`, if there is one. -/
def tdel {α : Type} (k : Nat) (t : Tbl α) : Tbl α := t.filter (fun e => e.1 != k)

/-- Write key `k`: writing the default removes the entry. -/
def tset {α : Type} [DecidableEq α] (d : Nat → α) (t : Tbl α) (k : Nat) (v : α) : Tbl α :=
  if v = d k then tdel k t else tins k v t

/-- Are all keys of the table above `b`, strictly rising, and no entry its default? -/
def twfFrom {α : Type} [DecidableEq α] (d : Nat → α) : Option Nat → Tbl α → Bool
  | _, [] => true
  | b, (j, v) :: t => (b.elim true (fun c => decide (c < j))) && decide (v ≠ d j) && twfFrom d (some j) t

/-- The canonical form. -/
def twf {α : Type} [DecidableEq α] (d : Nat → α) (t : Tbl α) : Bool := twfFrom d none t

/-- Write the keys `k`, `k + step`, ... with the listed values. -/
def tsetMany {α : Type} [DecidableEq α] (d : Nat → α) (step : Nat) : Tbl α → Nat → List α → Tbl α
  | t, _, [] => t
  | t, k, v :: vs => tsetMany d step (tset d t k v) (k + step) vs

/-- The values of `n` keys from `k` on, `step` apart. -/
def tgetMany {α : Type} (d : Nat → α) (step : Nat) (t : Tbl α) (k n : Nat) : List α :=
  (List.range n).map (fun i => tget d t (k + step * i))

/-- Drop the entries whose key lies in `[lo, lo + n)`: they read as the default again. -/
def tclear {α : Type} (t : Tbl α) (lo n : Nat) : Tbl α :=
  t.filter (fun e => e.1 < lo || lo + n ≤ e.1)

end Sys2Proof.Machine
end

