-- ==== Sys2Proof/Machine/State.lean ====
section
/-!
DEFINITION. The state of the block as plain data, its faults and refusals, and the state after reset. INVENTORY.md
lists every field with the rule that names it. The registers of all blocks are one table by BAR0 offset
(Machine/Registers.lean); state that the spec names elsewhere stands in the structures below.

Tables of structures read a default where nothing is listed, so that equal states are equal data.
-/
namespace Sys2Proof.Machine

/-- No meaning of this model ends in a fault: the spec gives every command an effect on the block, or says that it
has none. -/
inductive Fault where
  /-- Raised by nothing. -/
  | none
  deriving DecidableEq, Repr

/-- Why a command has no meaning. -/
inductive Refusal where
  /-- The command has no meaning in the model yet. Raised by Dispatch only; safe. -/
  | notModelled (mnemonic : String)
  deriving DecidableEq, Repr

/-! Access paths (R9, R10) -/

/-- The copies of one access path: words held by a read of a lowest word, by offset, and lower words written and not
yet committed (R9, R10). -/
structure PathCopy where
  hold : Tbl (Option Word) := []
  low : Tbl (Option Word) := []
  deriving DecidableEq, Repr

/-! Time (chapter 02) -/

/-- A TIME_ALIGN that waits for its marker (R50): S, O, the crossing index in which it was accepted, its command; the
2L + 2 crossings that it waits for. -/
structure AlignWait where
  spool : Nat
  orbit : Nat
  accepted : Nat
  cmd : Nat
  limit : Nat
  deriving DecidableEq, Repr

/-- The time unit. `held`: the counters hold (no PLL lock, R31, R32). `relock`: the next crossing is the first after a
relock, so the rest of the held crossing is not counted (R32). `boundaryDone`: the boundary at the end of this crossing
has been taken already. `offSeen`: an off-period marker since the last crossing with counter 0 (R41). `resync`: slip
crossing c of the last off-period marker (R42). `lastMarker`: crossing index of the last marker seen (R38); `missed`: of the last
missing one (R41). `fresh`: W1C bits that hardware sets at the tick 0 at hand, by offset (R11). -/
structure Time where
  spool : Nat := 0
  crossing : Nat := 0
  orbit : Nat := 0
  wallSec : Nat := 0
  wallAcc : Nat := 0
  held : Bool := true
  started : Bool := false
  relock : Bool := false
  boundaryDone : Bool := false
  lenPending : Option Nat := none
  offSeen : Bool := false
  resync : Option Nat := none
  lastMarker : Option Nat := none
  missed : Option Nat := none
  fresh : Tbl Word := []
  wallSet : Option Nat := none
  lastPps : Option Nat := none
  align : Option AlignWait := none
  launch : Option (Nat × Nat) := none
  tagMemory : Tbl (Option (Nat × Nat)) := []
  deriving DecidableEq, Repr

/-- Governor p of R62: quiet periods, consecutive failed writes (R64), the voltage of the law, an AVSBus write on the
bus, a write that waits for the one on the bus to end (log 22), the committed voltage (R536), and whether a readback is under way (R537). -/
structure Gov where
  quiet : Nat := 0
  fails : Nat := 0
  volt : Nat := 0
  writing : Option Nat := none
  due : Option Nat := none
  committed : Option Nat := none
  reading : Bool := false
  deriving DecidableEq, Repr

/-! Host interface (chapters 15 and 16) -/

/-- The execution class of an opcode (R421). -/
inductive Cls where
  | brief | chunked | waiting
  deriving DecidableEq, Repr

/-- The stage of a command in flight (R429). -/
inductive Stage where
  | fetched | running | preempted | waiting | accepted
  deriving DecidableEq, Repr

/-- A command in flight (R429): its number (the model's own), the fields of its entry (R413), its digest (R419), its
progress, the CQ entries it has reserved (R416), whether a cancel waits for its next chunk boundary (R423), whether it has been
counted as waiting for an engine (R480), and whether a reserved bit of its entry is set (R438). -/
structure Cmd where
  id : Nat
  seq : Nat
  op : Nat
  sub : Nat
  queue : Nat
  cls : Cls
  stage : Stage
  digest : Word
  notify : Bool
  words : List Word
  sqHead : Nat
  progress : Nat := 0
  resv : Nat := 2
  cancelled : Bool := false
  waited : Bool := false
  internal : Option Word := none
  reserved : Bool := false
  deriving DecidableEq, Repr

/-- A completion (R414) without its phase: flags holds DUPLICATE and FINAL. -/
structure Completion where
  seq : Nat
  op : Nat
  status : Nat
  queue : Nat
  flags : Nat
  sqHead : Nat
  words : List Word
  deriving DecidableEq, Repr

/-- One entry of a completion store (R420, R430); `phase`: the phase it was posted with. -/
structure Stored where
  comp : Completion
  digest : Word
  phase : Nat
  deriving DecidableEq, Repr

/-- What a queue holds beside its registers: CQ entries written and not yet freed (R416), completions held after a ring
fault with their NOTIFY (R434), the completion store, newest first (R420), and the last
accepted doorbells (R415). -/
structure QueueState where
  used : Nat := 0
  held : List (Completion × Bool) := []
  store : List Stored := []
  sqDb : Nat := 0
  cqDb : Nat := 0
  deriving DecidableEq, Repr

/-- The command engine: the table of commands in flight by slot (R429), the next command number, and for each priority the queue that
was served last (R422; before the first the round begins at queue 0). -/
structure Hub where
  queues : Tbl QueueState := []
  table : Tbl (Option Cmd) := []
  nextId : Nat := 1
  served : List Nat := [15, 15, 15, 15]
  deriving DecidableEq, Repr

/-! DMA and translation (chapter 17) -/

/-- The kind of address of one side of a descriptor (R466); `buffer` is data that the hub holds for a command. -/
inductive AddrKind where
  | hostVirtual | hostBus | atlas | remote | buffer
  deriving DecidableEq, Repr

/-- A descriptor (R466); the last one of the list is the last of the command. -/
structure Desc where
  srcKind : AddrKind
  dstKind : AddrKind
  remote : Nat
  src : Nat
  dst : Nat
  len : Nat
  deriving DecidableEq, Repr

/-- The state of an engine (R465). -/
inductive EngineMode where
  | idle | running | preempted | faulted
  deriving DecidableEq, Repr

/-- The context of an engine (R481). `waitTag`: a remote read it waits for (R484); `data`: what the
hub holds for it, once it is there; `mark`: the crossing index of its snapshot (R119). -/
structure Engine where
  mode : EngineMode := .idle
  preemptPending : Bool := false
  descIdx : Nat := 0
  descs : List Desc := []
  done : Nat := 0
  total : Nat := 0
  seq : Nat := 0
  queue : Nat := 0
  op : Nat := 0
  cmd : Nat := 0
  fault : List Word := []
  waitTag : Option Nat := none
  data : List Byte := []
  dataWait : Bool := false
  mark : Nat := 0
  deriving DecidableEq, Repr

/-- A cached leaf translation (R472, R481): size 0 4 KiB, 1 2 MiB, 2 1 GiB. -/
structure Cached where
  size : Nat
  read : Bool
  write : Bool
  va : Nat
  bus : Nat
  deriving DecidableEq, Repr

/-- An entry of the tag table (R482): the words, and whether the hold time still runs. -/
structure TagEntry where
  seq : Nat := 0
  queue : Nat := 0
  op : Nat := 0
  engine : Nat := 0
  valid : Bool := false
  issue : Nat := 0
  held : Bool := false
  deriving DecidableEq, Repr

/-- The eight engines, the translation cache with the entry replaced next (its order is the model's own choice, which
changes only timing, R472), and the tag table. -/
structure Dma where
  engines : Tbl Engine := []
  cache : Tbl (Option Cached) := []
  nextCache : Nat := 0
  tags : Tbl TagEntry := []
  deriving DecidableEq, Repr

/-- Host memory, as the device reaches it: the environment's, not the device's (log 2). `bad` lists the bus addresses
whose access ends in an error completion (R471). -/
structure HostMem where
  mem : Tbl Byte := []
  bad : List Nat := []
  deriving DecidableEq, Repr

/-! Interrupts (chapter 18) -/

/-- The interrupt controller: one bit per source for pending, set by software, active, the origin as last seen and the
running rate interval; per target its stack, newest first, as (source, priority), and the best claimable priority as
last signalled. -/
structure Intc where
  pend : BitVec 256 := 0
  soft : BitVec 256 := 0
  active : BitVec 256 := 0
  origin : BitVec 256 := 0
  rate : BitVec 256 := 0
  nested : Tbl (List (Nat × Nat)) := []
  best : Tbl Nat := []
  deriving DecidableEq, Repr

/-- MSI-X (R406, R464, R498): the function mask of the capability, the pending bits, the messages that wait for the ring port and those
sent to the host, as (address, data), newest first. The table of vectors is in the registers. -/
structure Msix where
  masked : Bool := false
  pba : BitVec 64 := 0
  due : List (Nat × Word) := []
  sent : List (Nat × Word) := []
  deriving DecidableEq, Repr

/-! Start-up, power and flash (chapters 19 and 20) -/

/-- The fuses (R517): `fused` gives the fused-off positions of row r of die d at key 8d + r, as a 9-bit mask;
`keyValid` is what SEC_STAT.key_valid reads. -/
structure Fuses where
  serial : BitVec 64 := 0
  gradeM : Bool := false
  security : Byte := 0
  keyHash : Tbl Byte := []
  keyValid : Bool := true
  fused : Tbl Nat := []
  deriving DecidableEq, Repr

/-- Levels of pins that inputs or other devices on a line set (R244, R577, chapter 22); a line is high when released.
The straps are sampled at step 1 of R509. -/
structure Pins where
  strapId : Nat := 0
  bootSel : Nat := 0
  smbAddr : Nat := 0
  testEn : Bool := false
  powerFailN : Bool := true
  modSda : Bool := true
  modScl : Bool := true
  faultNOut : Bool := true
  syncNOut : Bool := true
  modResetN : Bool := false
  holdupMv : Nat := 0
  deriving DecidableEq, Repr

/-- A STORE or ERASE that is writing flash (R452): the bytes to program from `addr` on, or a region to erase. `discard`: its
completion is discarded (R523); `aborted`: it ends with ST_ABORTED (R461). -/
structure FlashOp where
  cmd : Nat
  erase : Bool
  target : Nat
  addr : Nat
  len : Nat
  data : List Byte
  started : Bool
  discard : Bool := false
  aborted : Bool := false
  deriving DecidableEq, Repr

/-- A STORE or ERASE that waits for its fuel-gauge reading (R540). -/
structure GaugeWait where
  cmd : Nat
  need : Nat
  op : FlashOp
  deriving DecidableEq, Repr

/-- Start-up and power: `boot` is the last step of R509 reached (0 before step 1), `test` the TEST_EN strap as sampled (R580, R588),
`faultAt` the spool count at the last entry to FAULT (R547), `firmware` whether firmware runs,
`rom` whether the ROM serves the rings (R513); a warm reset that waits for flash (its cause, R527), and one that a watchdog expiry has
scheduled (R524); dies in per-die reset (R522), and the dies of later accepted writes of HUB_DIE_RESET, which wait for it (R13);
domains switching, by domain, true for on (R533); domains that a trip or shed removed (R546); the dies whose last refresh had no valid
sensor, and whether the last refresh had a reading of 115 °C or more (R545); the words of the 40 sensors (PWR_TEMP, log 45). -/
structure Power where
  boot : Nat := 0
  test : Bool := false
  faultAt : Nat := 0
  firmware : Bool := false
  rom : Bool := false
  resetWait : Option Nat := none
  wdtDue : Bool := false
  dieReset : List Nat := []
  dieNext : List (List Nat) := []
  switching : Tbl (Option Bool) := []
  removed : List Nat := []
  blind : List Nat := []
  hot : Bool := false
  temps : Tbl Word := []
  flashOp : Option FlashOp := none
  gauge : Option GaugeWait := none
  deriving DecidableEq, Repr

/-! Effects named for a crossing (chapters 02, 04, 07, 16) -/

/-- What takes effect at tick 0 of a named crossing (R458). -/
inductive EffectKind where
  /-- SET_SCALES: (channel, set, scale word) in list order (R115, R451). -/
  | setScales (entries : List (Nat × Nat × Word))
  /-- WRITE_CONTROL: (offset, value) in list order (R444). -/
  | writeControl (pairs : List (Nat × Word))
  /-- SELECT_MENU: the tag (R220). -/
  | selectMenu (tag : Nat)
  /-- DRAIN in LIVE (R447); `named`: its D was given, not 0 (R619). -/
  | drain (named : Bool)
  /-- START_LIVE (R446). -/
  | startLive
  /-- READ_QSTATS: first channel, count, clear, host address (R119). -/
  | qstats (first count : Nat) (clear : Bool) (host : Nat)
  /-- CAPTURE_ARM sub-op 2 (R450). -/
  | disarm
  deriving DecidableEq, Repr

/-- A pending effect: the crossing index it names and the command that waits (0 for none). -/
structure Effect where
  crossing : Nat
  cmd : Nat
  kind : EffectKind
  deriving DecidableEq, Repr

/-! Input lanes (chapter 03) -/

/-- A frame as delivered: its header fields and its payload bytes (80 in 66B, 84 in Raw-W; bytes at index plen and
above are 0, R88), the bytes that its CRC covers as received, and its CRC (R360, R385). -/
structure LaneData where
  xingLo : Nat
  plen : Nat
  feFlags : Nat
  source : Nat
  payload : List Byte
  covered : List Byte
  crc : Word
  deriving DecidableEq, Repr

/-- One slot of an alignment buffer (R94, R95). -/
inductive Slot where
  | empty | bad
  | good (f : LaneData)
  deriving DecidableEq, Repr

/-- A Raw-W candidate (R86): phase, trial frames done, CRC failures. -/
structure Cand where
  phase : Nat
  frames : Nat := 0
  fails : Nat := 0
  deriving DecidableEq, Repr

/-- One input lane beside its registers: descrambler (R78), valid headers counted in BLOCK_HUNT and the invalid marks
of the last 64 headers, newest first (R84); the newest block while it waits for the frame hunt, the 66B candidate as
(blocks since, hits) (R85); blocks still to skip before the first delivered frame and the blocks of the frame in
progress (R87); CRC failures of the last 64 frames, newest first; the Raw-W candidates and the locked phase (R86); the
alignment buffer by crossing index mod 64; and whether the lane waits for an orbit boundary (R98), with the first
crossing index it may file once that boundary is known. -/
structure Lane where
  scrambler : Nat := 0
  hdrCount : Nat := 0
  hdrBad : List Bool := []
  newest : Option (Nat × BitVec 64) := none
  cand : Option (Nat × Nat) := none
  skip : Nat := 0
  blocks : List (Nat × BitVec 64) := []
  crcBad : List Bool := []
  cands : List Cand := []
  phase : Option Nat := none
  slots : Tbl Slot := []
  joinWait : Bool := false
  joinFrom : Nat := 0
  deriving DecidableEq, Repr

/-! The trellis (chapters 05 and 06) -/

/-- The event that a token belongs to: its presentation crossing index, its ID, and whether it is a shadow run. The
hardware tells events apart by their order (R150); the model writes the event on every token. -/
structure EvRef where
  index : Nat := 0
  orbit : Nat := 0
  crossing : Nat := 0
  shadow : Bool := false
  deriving DecidableEq, Repr

/-- A token (R147): kind 0 data, 1 control; a lane not listed is 0. -/
structure Token where
  kind : Nat
  tag : Nat
  ctx : Nat
  code : Nat := 0
  lanes : List Lane16 := []
  ev : EvRef
  deriving DecidableEq, Repr

/-- Where a route ends (R149): an input queue of a unit, the decision output of a tether die, or one of its feeds. -/
inductive Dest where
  | unit (u q : Nat)
  | decision (die : Nat)
  | feed (die n : Nat)
  deriving DecidableEq, Repr

/-- A token on its way; `fails`: consecutive failures of its bridge transfer (R136); `origin`: the die it left; `path`: the dies that it has
still to enter by a bridge, in order (R135; none: it comes from a tether die, whose bridges the spec does not choose); `ctl`: its route
carries control tokens. -/
structure Flight where
  dest : Dest
  tok : Token
  origin : Option Nat := none
  path : Option (List Nat) := none
  ctl : Bool := false
  fails : Nat := 0
  deriving DecidableEq, Repr

/-- An address generator (R143): a trigger that waits (tag, context), its pass, whether R179 holds it, whether a pass
has ended in this event, counters whose wrap is not yet carried out, and landed rows not yet counted (R312). -/
structure Gen where
  trig : List (Nat × Nat) := []
  active : Bool := false
  slot : Nat := 0
  cnt : List Nat := [0, 0, 0, 0]
  tag : Nat := 0
  ctx : Nat := 0
  held : Bool := false
  ended : Bool := false
  wraps : List Nat := []
  arrivals : Nat := 0
  deriving DecidableEq, Repr

/-- A unit, by logical address. `want`: the tag and context for which its slot was looked up (R157). `spilled`: tokens of a queue in the spill area, with their entry (R183). `acc`: exact
accumulators by stage (R161). `wraps`: counters that wrapped and whose actions are due, in order (R168). `emits`:
emissions of the event by 4 * context + stage (R356). `inEvent`: between EVENT_START and EVENT_END; `prim`: the queue that its
EVENT_START came on. `flags`: R148. `side`: what came of events on other inputs, by event: flags of EVENT_ENDs and ERROR tokens, with 8 for a token
that a bridge failed to carry (R136), and the lanes of an ERROR token (R192). `opened`: other inputs on which an EVENT_START came and no
EVENT_END since, with its event (R150, R170). `faulted`: the unit's own fault of the event (R191);
`subst`: under R187; `origin`: R192; `withhold`: the counters whose wrap_token is withheld, 4 * generator + counter
(R190). `holding`: stage 0 has fired on an operand that it holds (R139). `discard`: R198. `steps`: fold steps that wait for the current
context's work (R171, R180). `since`: the spool count at which the wait timer last restarted (R175). -/
structure TUnit where
  queues : Tbl (List Token) := []
  spilled : Tbl (List (Nat × Token)) := []
  slot : Option Nat := none
  want : Nat × Nat := (0, 0)
  fold : Nat := 0
  cnt : List Nat := [0, 0, 0, 0]
  acc : Tbl (List Int) := []
  wraps : List Nat := []
  emits : Tbl Nat := []
  inEvent : Bool := false
  prim : Nat := 0
  ev : EvRef := {}
  tag : Nat := 0
  flags : Nat := 0
  side : List (EvRef × Nat × Option (Nat × Nat)) := []
  opened : List (Nat × EvRef) := []
  faulted : Bool := false
  subst : Bool := false
  origin : Option (Nat × Nat) := none
  withhold : List Nat := []
  holding : Bool := false
  discard : Bool := false
  gens : Tbl Gen := []
  steps : Nat := 0
  since : Nat := 0
  deriving DecidableEq, Repr

/-- A piece of a tapped tensor on its way to the digest engine (R358): the event, the tap, the index of its first
element, its elements, and whether it came from an ERROR emission. -/
structure Piece where
  ev : EvRef
  tap : Nat
  first : Nat
  vals : List Word
  bad : Bool
  deriving DecidableEq, Repr

/-- What the digest engine holds of one tap of one event (R358). -/
structure TapState where
  parts : List (Nat × List Word) := []
  bad : Bool := false
  deriving DecidableEq, Repr

/-- The trellis: units, tokens on their way, pieces on their way, events already counted in TRL_OVF_COUNT by
die; wall times of the last two faults of the unit at a place (R199), by its unit address; the spool count at which a token last entered or
left a queue of a die (R181). -/
structure Trellis where
  units : Tbl TUnit := []
  flight : List Flight := []
  pieces : List Piece := []
  ovfSeen : List (Nat × EvRef) := []
  faultTimes : Tbl (List Nat) := []
  moved : Tbl (Option Nat) := []
  deriving DecidableEq, Repr

/-! Spare units (chapter 13) -/

/-- A pending prune, or its reversal (R370, R373): a physical position; `prepared`: firmware has computed the sidestep. -/
structure PruneJob where
  die : Nat
  row : Nat
  pos : Nat
  restore : Bool := false
  prepared : Bool := false
  deriving DecidableEq, Repr

/-- A sidestep pause of a die (R371): the first event index that waits, the orbit and crossing of the boundary, the jobs
that take effect. -/
structure Pause where
  start : Nat
  orbit : Nat
  crossing : Nat
  jobs : List PruneJob
  deriving DecidableEq, Repr

/-- The orbit fold of one tag in one orbit, not yet copied (R361). -/
structure OrbitFold where
  orbit : Nat
  tag : Nat
  included : Nat := 0
  excluded : Nat := 0
  folds : Tbl Nat := []
  deriving DecidableEq, Repr

/-- Prunes, pauses by die, orbit folds, and the value of k that waits for an orbit boundary (R396). -/
structure Spares where
  jobs : List PruneJob := []
  pauses : Tbl (Option Pause) := []
  folds : List OrbitFold := []
  nextK : Option Nat := none
  deriving DecidableEq, Repr

/-! Images and menus (chapter 07) -/

/-- A menu of the loaded image (R209; its record: log 11). -/
structure Menu where
  number : Nat
  tag : Nat
  set : Nat
  fold : Nat
  dlat : Nat
  maskPolicy : Bool
  entry : Nat
  queue : Nat
  mask : BitVec 64
  claimed : Nat
  lanesIn : List Nat
  lanesOut : List Nat
  taps : List Nat
  dies : Nat := 0
  results : Nat := 1
  outDie : Nat := 0
  deriving DecidableEq, Repr

/-- A feature word's source (R233): menu, lane, word, and the (token, token lane) it takes. -/
structure FeatureSrc where
  menu : Nat
  lane : Nat
  word : Nat
  token : Nat
  tlane : Nat
  deriving DecidableEq, Repr

/-- A tap descriptor (R356). -/
structure TapDesc where
  tap : Nat
  tag : Nat
  ctx : Nat
  unit : Nat
  stage : Nat
  first : Nat
  lanes : Nat
  count : Nat
  n : Nat
  deriving DecidableEq, Repr

/-- A section of the image: type, required, entry count, offset, length (R209). -/
structure Section where
  kind : Nat
  required : Bool
  count : Nat
  off : Nat
  len : Nat
  deriving DecidableEq, Repr

/-- A graft variant (R341). -/
structure Variant where
  group : Nat
  omitted : Nat
  menu : Nat
  bitmap : List Byte
  deriving DecidableEq, Repr

/-- A LOAD_IMAGE that reads its image: the command, its address in host memory (none: staging), its length; what staging
listed before bytes of the host came, and whether it held the image: a load that fails a check changes neither (R211). -/
structure Load where
  cmd : Nat
  host : Option Nat
  len : Nat
  old : Tbl Byte := []
  staged : Bool := false
  deriving DecidableEq, Repr

/-- A running FILL_TRAY. -/
structure Fill where
  cmd : Nat
  bank : Nat
  set : Nat
  deriving DecidableEq, Repr

/-- A running LOAD_FALLOW. -/
structure Fallow where
  cmd : Nat
  menu : Nat
  deriving DecidableEq, Repr

/-- What the device holds of the loaded image beside registers and memories: menus, feature sources, tap descriptors,
sections of the staged image, graft variants, die-use mask, the numbers of its bank sets; the bank set that each bank holds while it is
ready (R215); the menus marked unfit (R225); the numbers of the menus whose weight blocks are all
written (R215); whether staging holds this image (R489); the work in progress; INL_EXPECT's update waits for a boundary (R214). -/
structure Image where
  menus : List Menu := []
  sets : List Nat := []
  features : List FeatureSrc := []
  taps : List TapDesc := []
  sections : List Section := []
  variants : List Variant := []
  dies : Nat := 0
  bank0 : Option Nat := none
  bank1 : Option Nat := none
  unfit : List Nat := []
  weighted : List Nat := []
  staged : Bool := false
  load : Option Load := none
  fill : Option Fill := none
  fallow : Option Fallow := none
  expectDue : Bool := false
  deriving DecidableEq, Repr

/-! Events, decisions and wired lines (chapters 02, 04 and 08) -/

/-- What one lane contributes to an event (R95). -/
inductive Input where
  | missing | bad
  | frame (f : LaneData)
  deriving DecidableEq, Repr

/-- The event of the current presentation, until the riddle has emitted it (R112): crossing index, tag, the lanes its
menu reads with what they contribute, the scale words of their channels in force at tick 0 (R113), the lanes that are expected
(R107), and whether conversions enter error accounting and tracking (R118). -/
structure Presented where
  index : Nat
  tag : Nat
  ev : EvRef
  lanes : List (Nat × Input)
  scales : Tbl Word := []
  expected : List Nat := []
  account : Bool := true
  deriving DecidableEq, Repr

/-- An event in flight, an entry of the deadline ring of its tether die (R234, R425): presentation crossing index,
event ID, tag, cut crossing, late policy and mask of its menu, flags so far (R232), the tokens of its result, whether the
result has arrived and with which stamp, the input digest, the tap digests so far, by tap, the collective runs of
the event (R304), and what the lanes contributed with the scale words used (R398). -/
structure EventEntry where
  index : Nat
  orbit : Nat
  crossing : Nat
  tag : Nat
  menu : Nat
  cut : Nat
  maskPolicy : Bool
  mask : BitVec 64
  flags : Nat := 0
  tokens : List (List Lane16) := []
  present : Bool := false
  inTime : Bool := false
  stamp : Nat := 0
  inputDigest : Word := 0
  taps : Tbl TapState := []
  runs : List Nat := []
  inputs : List (Nat × Input) := []
  scales : List (Nat × Word × Word) := []
  rows : List (Nat × Nat × List Byte × Bool) := []
  replay : Bool := false
  deriving DecidableEq, Repr

/-- A frame on an output lane: crossing index, the 12 blocks as (sync header: 1 data, 2 control; payload before
scrambling), and the blocks on the line, bit 0 sent first (R229-R231). -/
structure OutFrame where
  crossing : Nat
  blocks : List (Nat × BitVec 64)
  line : List (BitVec 66)
  deriving DecidableEq, Repr

/-- A result that is to come (R234): its event and tag, the number R of its tokens and the tether die that it comes to, the crossing index at
which the event is due; of what has come the lanes of the data tokens, whether there were more than R, and an ERROR token in place of one. -/
structure Await where
  index : Nat
  tag : Nat
  results : Nat
  die : Nat
  cut : Nat
  replay : Bool
  tokens : List (List Lane16) := []
  excess : Bool := false
  err : Bool := false
  deriving DecidableEq, Repr

/-- The decision output: VETO_N as it stands on the pin, and as filtered, low samples of a pulse so far, whether the level was low since the last
sample point, the veto of the next frame once tick 28 has been sampled (R237, R238), whether this low period has warned (R240); the crossing of
the SYNC_N rise (R242), whether the package drives the line, whether the stuck timer has run out (R243); the crossing of the last release, frames on the lanes
and the transmit scramblers (R228); the entries of the deadline rings that are no longer in use, at 128 die + entry (R425); the results that are to come, in the order of
presentation. -/
structure Decision where
  vetoPin : Bool := false
  vetoLow : Bool := false
  lowSince : Bool := false
  warned : Bool := false
  vetoNext : Bool := false
  riseXing : Nat := 0
  syncDriven : Bool := true
  stuckDue : Bool := false
  lastRelease : Option Nat := none
  frames : Tbl (Option OutFrame) := []
  scramblers : Tbl Nat := []
  ring : Tbl (List Byte) := []
  awaits : List Await := []
  deriving DecidableEq, Repr

/-! Tether links (chapter 09) -/

/-- What a flit carries beside its sequence number and acknowledgement (R254): class, type, first, dateline lane, pilot
field, 48 payload bytes; `head`: the header of the message that it is part of. -/
structure Cargo where
  tc : Nat := 0
  kind : Nat
  first : Bool := false
  dl : Bool := false
  pilot : Nat := 0
  payload : List Byte := []
  credits : List (Nat × Nat) := []
  head : List Byte := []
  back : Option (Nat × Nat) := none
  deriving DecidableEq, Repr

/-- An ABORT that has come in part (R333): the low bits of its ordinal, and the values of its words so far. -/
structure AbortPart where
  lo : Nat
  w0 : Option Nat := none
  w1 : Option Nat := none
  w2 : Option Nat := none
  deriving DecidableEq, Repr

/-- A port. Sending: the next sequence number, flits not yet acknowledged, oldest first (R257), which of them a replay
has still to re-send, timer replays in a row (R261), credits by class (R262; key 0-63 TC1 of a group, 64 and 65 TC2 by
dateline lane, 66 TC3), pilot items and flits that wait by class, flits since the last TC3 flit (R264). Receiving: the
next number expected (R258), whether this gap's nak has been given and is due (R259), flits accepted since the last
ack and whether an ack must go out (R260), credits to return and flits since they were, (kind, word) pairs
accepted of the two most recent ordinals by group (R256), messages being assembled by class, ABORTs of a group that are
not whole yet, newest first (R333), flits of a refused chunk still to come (R340). `mode`: the line mode in force, `farMap`: the lane map
that the far end sent (R263). `blocks`: blocks sent on each lane since its last alignment block (R253). -/
structure Port where
  txSeq : Nat := 0
  unacked : List (Nat × Cargo) := []
  resend : List Nat := []
  timerReplays : Nat := 0
  spent : Tbl Nat := []
  pilots : List Nat := []
  out1 : List Cargo := []
  out2 : List Cargo := []
  out3 : List Cargo := []
  sinceTc3 : Nat := 0
  expect : Nat := 0
  gap : Bool := false
  nakDue : Bool := false
  accepted : Nat := 0
  ackDue : Bool := false
  owed : List (Nat × Nat) := []
  sinceCredit : Nat := 0
  seen : Tbl (List (Nat × List (Nat × Nat))) := []
  parts : Tbl (List Byte) := []
  aborts : Tbl (List AbortPart) := []
  skip : Nat := 0
  mode : Nat := 0
  farMap : Nat := 0
  blocks : Nat := 0
  deriving DecidableEq, Repr

/-- A message of TC2 or TC3 (R265), or a chunk of TC1 (R308), that has arrived or waits to be handled here. `owes`: its flits hold buffers of its
port, whose credits go back when it leaves them (R262). -/
structure Message where
  port : Nat
  tc : Nat
  bytes : List Byte
  dl : Bool := false
  owes : Bool := false
  deriving DecidableEq, Repr

/-- An outstanding remote read (R268). -/
structure RemoteRead where
  tag : Nat
  far : Nat
  deriving DecidableEq, Repr

/-- What a management message (R265, op 5) says; its bytes are not in the spec, so it stands here as data (log 24). -/
inductive Mgmt where
  | identityRequest
  | changeRequest
  | identityReply (words : List Word)
  | changeReply (n : Nat)
  | rollCall (group image fw stamp entry dmap epoch : Nat)
  | outcome (group kind field member epoch : Nat)
  | retry (group ordinal row : Nat)
  deriving DecidableEq, Repr

/-- The six ports; messages that have arrived whole; collective chunks that have arrived whole; outstanding remote reads and reads that
wait for an entry; what has been sent, newest first: flits (port, bytes, credits returned), management messages (destination), training
parameters (port, mode, lane map; R263), and by lane the blocks of its line in short reach, `none` an alignment block (R253). -/
structure Links where
  ports : Tbl Port := []
  inbox : List Message := []
  chunks : List Message := []
  reads : List RemoteRead := []
  readWait : List Message := []
  sent : List (Nat × List Byte × List (Nat × Nat)) := []
  mgmt : List (Nat × Mgmt) := []
  training : List (Nat × Nat × Nat) := []
  line : Tbl (List (Option (List Byte))) := []
  deriving DecidableEq, Repr

/-! Survey and groups (chapter 10) -/

/-- A roll-call record (R291) with its arrival and the sum of TTH_PORT_HOP along its route (R292). -/
structure Record where
  image : Nat
  fw : Nat
  stamp : Nat
  entry : Nat
  dmap : Nat
  epoch : Nat
  arrival : Nat
  path : Nat := 0
  deriving DecidableEq, Repr

/-- A survey sequence (R278-R283): phase 0 none, 1 settle, 2 walk, 3 confirm; walk replies by package; the change counters
read in the confirm phase; the local change counters at the start of the walk; the commands that wait; a hold-off that
runs. -/
structure Survey where
  phase : Nat := 0
  replies : Tbl (Option (List Word)) := []
  confirms : Tbl (Option Nat) := []
  changes : List Nat := []
  cmds : List Nat := []
  holdoff : Bool := false
  deriving DecidableEq, Repr

/-- A graft in progress (R342-R344): the variant, the omitted member, its orbit, and the epoch once OK is held. -/
structure Graft where
  bitmap : List Byte
  omitted : Nat
  menu : Nat
  orbit : Nat
  ok : Option Nat := none
  deriving DecidableEq, Repr

/-- A group beside its bridle entry: the state before FORMING (R289), the command that waits, records held (R291),
whether its outcome has been sent, the graft; distinct (ordinal, originator) pairs of aborts seen, newest first (R333);
the MCLK frequency from which W was computed (R331). -/
structure Group where
  prior : Nat := 0
  cmd : Nat := 0
  records : Tbl (Option Record) := []
  sentOutcome : Bool := false
  graft : Option Graft := none
  seenAborts : List (Nat × Nat) := []
  khz : Nat := 0
  deriving DecidableEq, Repr

/-! Collectives (chapters 11 and 12) -/

/-- An ABORT (R332, R333): code, originator, low 32 bits of the spool count at origination, low 32 bits of A, ordinal,
whether it arose here, and the port it concerns (7: none). -/
structure Abort where
  code : Nat
  source : Nat
  tick : Nat
  event : Nat
  ordinal : Nat
  own : Bool := false
  port : Nat := 7
  deriving DecidableEq, Repr

/-- A chunk (R308): `flags` bit 0 last, 1 zero-fill, 2 err. Beside its bytes: `sign` 1 for a predecessor-bound one (R321), and the spool count at
which it was held early (R311, R324). -/
structure Chunk where
  group : Nat
  zone : Nat
  ordinal : Nat
  gen : Nat
  src : Nat
  dst : Nat
  row : Nat
  flags : Nat
  attempt : Nat
  data : List Byte
  sign : Nat := 0
  tick : Nat := 0
  deriving DecidableEq, Repr

/-- How a run of a collective ended. -/
inductive Verdict where
  | undecided | committed | aborted (code : Nat)
  deriving DecidableEq, Repr

/-- A run of a collective: one event's use of one schedule entry (R304; the spec's word is another). `ready`: its group was READY at presentation (R336).
Feed rows so far with their error marks; chunks still to be sent; deadline and commit ticks (R329, R331); the completion stamp; aborts received in time.
The log record of its abort (R346). Pilot reduction (R318): axis, whether the broadcast runs, the member's vector, words received by axis and phase. -/
structure Run where
  id : Nat
  entry : Nat
  group : Nat
  ordinal : Nat
  gen : Nat
  ev : EvRef
  ready : Bool
  deadline : Nat
  commit : Nat
  feed : List (List Lane16 × Bool) := []
  fed : Bool := false
  unsent : List Chunk := []
  sent : Nat := 0
  landed : Nat := 0
  done : Option Nat := none
  aborts : List Abort := []
  originated : Bool := false
  verdict : Verdict := .undecided
  record : Option Nat := none
  axis : Nat := 0
  bcast : Bool := false
  vec : Option (List Int) := none
  items : List (Nat × Nat × Nat) := []
  joined : Bool := false
  deriving DecidableEq, Repr

/-- A landing zone beside its registers: (buffer, row) pairs landed and marked err; how many events of an entry whose
group was not READY still wait for a buffer (R336); the events whose pass is still to release a buffer, oldest first, each with its landing
generation, none where the group was not READY (R311, R336). -/
structure LandZone where
  landed : List (Nat × Nat) := []
  err : List (Nat × Nat) := []
  owed : Nat := 0
  owners : List (EvRef × Option Nat) := []
  deriving DecidableEq, Repr

/-- A row on the landing path (R309): zone, generation, row of the buffer, data, err. -/
structure LandRow where
  zone : Nat
  gen : Nat
  row : Nat
  data : List Byte
  err : Bool
  deriving DecidableEq, Repr

/-- A virtual channel: chunks in its early store (R311), pilot items held of later ordinals (R320). -/
structure Channel where
  early : List Chunk := []
  items : List Nat := []
  deriving DecidableEq, Repr

/-- The collective engines: runs, zones, channels, aborts held for runs not yet created (R333) by group, chunks kept until commit in REPLAY
by tether die (R338), the count of earlier runs of each entry since its group became READY (R304), the channel served last (R339),
the rows on the landing path, oldest first, and chunks that found the early store full, each with its tick (R311, R324). -/
structure Collective where
  runs : List Run := []
  nextRun : Nat := 1
  zones : Tbl LandZone := []
  channels : Tbl Channel := []
  heldAborts : List (Nat × Abort) := []
  retry : List (Nat × Chunk) := []
  gens : Tbl Nat := []
  lastServed : Nat := 15
  landing : List LandRow := []
  overrun : List (Chunk × Nat) := []
  deriving DecidableEq, Repr

/-! The cold frame (chapter 14) -/

/-- A trace entry (R365): its place in the trace order, its first word, and the low 32 bits of the map digest in force. -/
structure TraceEntry where
  orbit : Nat
  crossing : Nat
  unit : Nat
  kind : Nat
  word : Word
  digest : Nat
  deriving DecidableEq, Repr

/-- The capture (R384-R388): the group of side entries of each crossing still in the ring as (crossing, address, entries, full snapshot),
oldest first; the write positions of the side ring and of the digest and trace ring; the entry last written of each channel;
orbit boundaries since the last full snapshot; whether a full snapshot is due; channels that a SET_SCALES of this crossing names; the
newest and the oldest record; whether a freeze is due at the end of this crossing; trace entries of events not yet released (R365); crossings whose side entries were not written (R387); records in which a double-bit error was found (R383); what could have triggered
in the crossing of detection, as (that crossing, trigger crossing, flags) (R404). -/
structure Capture where
  groups : List (Nat × Nat × Nat × Bool) := []
  sidePos : Nat := 0
  digPos : Nat := 0
  last : Tbl (List Word) := []
  boundaries : Nat := 0
  snapshotDue : Bool := false
  named : List Nat := []
  newest : Option Nat := none
  oldest : Option Nat := none
  freezeDue : Bool := false
  trace : List TraceEntry := []
  overflowed : List Nat := []
  badRecords : List Nat := []
  causes : List (Nat × Nat × Nat) := []
  deriving DecidableEq, Repr

/-- A logged spill that a replay repeats (R366). -/
structure TraceSpill where
  unit : Nat
  queue : Nat
  tokens : Nat
  orbit : Nat
  crossing : Nat
  deriving DecidableEq, Repr

/-- A replay (R391-R395): its command, where its records come from (0 capture, 1 replay input region, 2 host memory), the next record's
crossing index or address, events still to present, events presented, the orbit of the last one, whether the stall now has warned, whether
a trace was given and its spills still to come, and the crossing of the latest presentation (at most one event a crossing). -/
structure Replay where
  cmd : Nat
  source : Nat
  next : Nat
  left : Nat
  count : Nat := 0
  orbit : Option Nat := none
  warned : Bool := false
  hasTrace : Bool := false
  trace : List TraceSpill := []
  shown : Option Nat := none
  deriving DecidableEq, Repr

/-- An entry of the shadow queue (R398): event, tag, menu, live tap digests (tap, digest, valid), lanes, scale words, landed rows (zone,
row, bytes, err), entries whose instance aborted. -/
structure ShadowEntry where
  ev : EvRef
  tag : Nat
  menu : Nat
  taps : List (Nat × Nat × Bool)
  inputs : List (Nat × Input)
  scales : List (Nat × Word × Word)
  rows : List (Nat × Nat × List Byte × Bool)
  aborted : List Nat
  size : Nat
  deriving DecidableEq, Repr

/-- Shadow verification: the queue, the entry that runs with its taps so far, whether its result has ended, and mirrors in progress by menu tag. -/
structure Shadow where
  queue : List ShadowEntry := []
  run : Option ShadowEntry := none
  taps : Tbl TapState := []
  ended : Bool := false
  mirrors : List Nat := []
  deriving DecidableEq, Repr

/-! Management buses (chapter 21) -/

/-- The state of one SPDM connection (R564): 0 none, 1 version, 2 capabilities, 3 algorithms; its transcript: the messages that set it
up, those about certificates since, and those about measurements since; a request whose response has not left. -/
structure Spdm where
  state : Nat := 0
  setup : List Byte := []
  certs : List Byte := []
  measured : List Byte := []
  busy : Bool := false
  deriving DecidableEq, Repr

/-- A transaction of the module bus: a MODULE_XFER by its command, or the fuel-gauge read of a STORE or ERASE (R558). -/
structure ModXfer where
  cmd : Nat
  gauge : Bool := false
  losses : Nat := 0
  deriving DecidableEq, Repr

/-- Management: the last window access was rejected (R553); the SMB target's answer; MCTP responses that wait for the bus, as (requester, message),
responses sent; both SPDM connections and the DOE responses; transactions that wait for the module bus and the one on it; a bus clear that
waits; attempts failed; a reset pulse that runs. -/
structure Management where
  rejected : Bool := false
  smbOut : List Byte := []
  mctpWait : List (Nat × List Byte) := []
  mctpSending : Bool := false
  mctpSent : List (Nat × List Byte) := []
  doe : Spdm := {}
  mctp : Spdm := {}
  doeSent : List (List Byte) := []
  modQueue : List ModXfer := []
  modNow : Option ModXfer := none
  modLog : List (List Byte) := []
  clearDue : Bool := false
  clearFails : Nat := 0
  pulse : Bool := false
  deriving DecidableEq, Repr

/-! The state -/

/-- The state of the block. `pending` is the queue of waiting commands; `free` counts the free values taken (log 9);
`rdata` is what the last read answered. Every other field: the docstring of its type. -/
structure State where
  pending : List Instr := []
  free : Nat := 0
  regs : Tbl Word := []
  rdata : Word := 0
  pcie : PathCopy := {}
  smb : PathCopy := {}
  fw : PathCopy := {}
  time : Time := {}
  govs : Tbl Gov := []
  hub : Hub := {}
  dma : Dma := {}
  host : HostMem := {}
  intc : Intc := {}
  msix : Msix := {}
  fuses : Fuses := {}
  pins : Pins := {}
  power : Power := {}
  flash : Tbl Byte := []
  effects : List Effect := []
  lanes : Tbl Lane := []
  presented : Option Presented := none
  events : List EventEntry := []
  decision : Decision := {}
  mem : Tbl Byte := []
  trellis : Trellis := {}
  spares : Spares := {}
  image : Image := {}
  links : Links := {}
  survey : Survey := {}
  groups : Tbl Group := []
  coll : Collective := {}
  capture : Capture := {}
  replay : Option Replay := none
  shadow : Shadow := {}
  mgt : Management := {}
  deriving DecidableEq, Repr

/-- The block right after power reaches it: every register at the reset value of its table, every other piece of state
as its structure gives it; no command waits. -/
def State.reset : State := {}

end Sys2Proof.Machine
end

