-- ==== Sys2Proof/Machine/Ops.lean ====
section
/-!
DEFINITION. The named operations over the state that every family uses: registers and their fields (R6-R8), counters,
free values, the lifecycle (R23, R525), access errors (R409), the logs that follow R196, host memory, the atlas
memories, and the outcome of a command.
-/
namespace Sys2Proof.Machine

/-- What a command answers. -/
abbrev Res := Host.Outcome State Fault Refusal

/-! Registers -/

/-- The word of the register at BAR0 offset `o`. -/
def State.reg (s : State) (o : Nat) : Word := tget RegMap.resetVal s.regs o

/-- Set the register at offset `o`. -/
def State.setReg (s : State) (o : Nat) (w : Word) : State := { s with regs := tset RegMap.resetVal s.regs o w }

/-- Field `f` of a word. -/
def Fld.get (f : Fld) (w : Word) : Nat := (w.toNat >>> f.lo) % 2 ^ f.width

/-- A word with field `f` replaced by the low bits of `v`. -/
def Fld.put (f : Fld) (w : Word) (v : Nat) : Word :=
  BitVec.ofNat 32 (w.toNat % 2 ^ f.lo + (v % 2 ^ f.width) * 2 ^ f.lo + (w.toNat >>> (f.lo + f.width)) * 2 ^ (f.lo + f.width))

/-- The value of a register field. -/
def State.fld (s : State) (f : Fld) : Nat := Fld.get f (s.reg f.off)

/-- Set a register field to the low bits of `v`. -/
def State.setFld (s : State) (f : Fld) (v : Nat) : State := s.setReg f.off (Fld.put f (s.reg f.off) v)

/-- Is the field not zero? -/
def State.bit (s : State) (f : Fld) : Bool := s.fld f != 0

/-- Set a status bit. -/
def State.raise (s : State) (f : Fld) : State := s.setFld f 1

/-- Clear a field. -/
def State.lower (s : State) (f : Fld) : State := s.setFld f 0

/-- Count by `n`, saturating at the field's width. -/
def State.satAdd (s : State) (f : Fld) (n : Nat) : State := s.setFld f (min (s.fld f + n) (2 ^ f.width - 1))

/-- Count once, saturating. -/
def State.satInc (s : State) (f : Fld) : State := s.satAdd f 1

/-- Count once, wrapping. -/
def State.wrapInc (s : State) (f : Fld) : State := s.setFld f (s.fld f + 1)

/-- The W1C bits of a register. -/
def w1cOf (o : Nat) : Word := (RegMap.find o).elim 0 (fun d => BitVec.ofNat 32 d.w1c)

/-- Do `f`, which hardware does at the tick 0 at hand, and note the W1C bits that it sets: a write in that cycle clears none of them
(R11). They show in what `f` makes of the state with every W1C bit clear. -/
def State.noting (s : State) (f : State → State) : State :=
  let bare := f { s with regs := s.regs.foldl (fun t e => tset RegMap.resetVal t e.1 (e.2 &&& ~~~(w1cOf e.1))) s.regs }
  let t := f s
  { t with time := { t.time with fresh := bare.regs.foldl (fun m e =>
      tset (fun _ => 0) m e.1 (tget (fun _ => 0) m e.1 ||| (e.2 &&& w1cOf e.1))) t.time.fresh } }

/-- The value of two registers, lowest word first (R9). -/
def State.wide (s : State) (o : Nat) : Nat := (s.reg o).toNat + 2 ^ 32 * (s.reg (o + 4)).toNat

/-- Set two registers, lowest word first. -/
def State.setWide (s : State) (o v : Nat) : State :=
  (s.setReg o (BitVec.ofNat 32 v)).setReg (o + 4) (BitVec.ofNat 32 (v >>> 32))

/-- Set consecutive registers to the listed words. -/
def State.setRegs (s : State) (o : Nat) (ws : List Word) : State :=
  { s with regs := tsetMany RegMap.resetVal 4 s.regs o ws }

/-- Return the registers of `[lo, lo + n)` to their reset values. -/
def State.resetRegs (s : State) (lo n : Nat) : State := { s with regs := tclear s.regs lo n }

/-- Put `a` into a sorted list, before the first entry that it does not exceed. -/
def putSorted {α : Type} (le : α → α → Bool) (a : α) : List α → List α
  | [] => [a]
  | b :: l => if le a b then a :: b :: l else b :: putSorted le a l

/-- A list sorted by `le`; entries that tie keep their order. -/
def sortBy {α : Type} (le : α → α → Bool) (l : List α) : List α := l.foldr (putSorted le) []

/-- Bits `[lo, lo + n)` of a number. -/
def bits (v lo n : Nat) : Nat := (v >>> lo) % 2 ^ n

/-- Bit `i` of a number. -/
def nbit (v i : Nat) : Bool := (v >>> i) % 2 == 1

/-- 1 for true. -/
def b2n (b : Bool) : Nat := if b then 1 else 0

/-- A number with bit `i` set. -/
def setBit (v i : Nat) : Nat := if nbit v i then v else v + 2 ^ i

/-- A number with bit `i` cleared. -/
def clearBit (v i : Nat) : Nat := if nbit v i then v - 2 ^ i else v

/-- Set bit `i` of a field that is a map of bits. -/
def State.setMapBit (s : State) (f : Fld) (i : Nat) (b : Bool) : State :=
  s.setFld f (if b then setBit (s.fld f) i else clearBit (s.fld f) i)

/-- Apply `f` when `c` holds. -/
def State.when (s : State) (c : Bool) (f : State → State) : State := if c then f s else s

/-- The signed number that the low `n` bits of `v` spell. -/
def signed (n v : Nat) : Int := if v % 2 ^ n < 2 ^ (n - 1) then (v % 2 ^ n : Nat) else (v % 2 ^ n : Nat) - (2 ^ n : Nat)

/-- The low `n` bits of an integer, as two's complement. -/
def unsigned (n : Nat) (v : Int) : Nat := (v % (2 ^ n : Nat)).toNat

/-- A free value, and the state in which it has been taken (log 9). -/
def State.takeFree (s : State) : BitVec 64 × State := (Config.freeBits s.free, { s with free := s.free + 1 })

/-- `n` bytes of free values. -/
def State.freeBytes (s : State) (n : Nat) : List Byte × State :=
  (Nat.repeat (fun a => (a.1 ++ leBytes 8 a.2.takeFree.1.toNat, a.2.takeFree.2)) ((n + 7) / 8) (([] : List Byte), s)).map
    (fun l => l.take n) id

/-! Lifecycle (R23, R525) -/

/-- HUB_STATE codes. -/
def lifeBoot : Nat := 1
/-- SAFE -/
def lifeSafe : Nat := 2
/-- LOADED -/
def lifeLoaded : Nat := 3
/-- ARMED -/
def lifeArmed : Nat := 4
/-- LIVE -/
def lifeLive : Nat := 5
/-- DRAINING -/
def lifeDraining : Nat := 6
/-- REPLAY -/
def lifeReplay : Nat := 7
/-- FAULT -/
def lifeFault : Nat := 15

/-- The lifecycle state. -/
def State.life (s : State) : Nat := s.fld F.HUB_STATE.state

/-- Is the device in LIVE or DRAINING? -/
def State.liveOrDraining (s : State) : Bool := s.life == lifeLive || s.life == lifeDraining

/-- In REPLAY the whole machine stalls while MCLK is lost (R32). -/
def State.stalled (s : State) : Bool := s.life == lifeReplay && s.time.held

/-- Change the lifecycle state: every change counts and raises source 7 through HUB_STATE_EVT.change (R525). -/
def State.setLife (s : State) (n : Nat) : State :=
  if s.life = n then s
  else (((s.setFld F.HUB_STATE.prev s.life).setFld F.HUB_STATE.state n).wrapInc F.HUB_STATE.changes).raise
    F.HUB_STATE_EVT.change

/-- Host software reaches the registers and rings from step 4 of R509 on (R510), and while the ROM serves the rings
(R513). -/
def State.up (s : State) : Bool := decide (4 ≤ s.power.boot) || s.power.rom

/-- Count an access error and record its offset (R409, R426). -/
def State.accessError (s : State) (o : Nat) : State :=
  ((s.satInc F.HUB_ACC_ERR.count).raise F.HUB_ACC_ERR.seen).setFld F.HUB_ACC_ADDR.offset o

/-! Time -/

/-- The crossing index: bits [63:5] of the spool count (R31). -/
def State.xindex (s : State) : Nat := s.time.spool / 32

/-- The spool count's wrap. -/
def wrap64 (v : Nat) : Nat := v % 2 ^ 64

/-- The spool ticks from count `a` to count `b`; the count wraps (R31). -/
def ticksFrom (a b : Nat) : Nat := (b + 2 ^ 64 - a) % 2 ^ 64

/-- Is count `b` behind count `a`: has the count passed it, by less than half its range (R31)? -/
def behind (a b : Nat) : Bool := decide (2 ^ 63 ≤ ticksFrom a b)

/-- Is crossing index `x` at least 64 ticks away (R115, R444)? -/
def State.farEnough (s : State) (x : Nat) : Bool := s.time.spool + 64 ≤ 32 * x

/-! Memories -/

/-- Host memory reads 0 where the environment lists nothing (log 2). -/
def hostDflt (_ : Nat) : Byte := 0

/-- The memories of the atlas read 0 where nothing is listed: the SRAM is zeroed at step 5 of R509 and the cold frame
reads zeros after its domain comes on (R533) (log 4). -/
def memDflt (_ : Nat) : Byte := 0

/-- Erased flash reads 0xFF (log 3). -/
def flashDflt (_ : Nat) : Byte := 0xFF

/-- Bytes of host memory at a bus address. -/
def State.hostRead (s : State) (a n : Nat) : List Byte := tgetMany hostDflt 1 s.host.mem a n

/-- Write bytes of host memory. -/
def State.hostWrite (s : State) (a : Nat) (bs : List Byte) : State :=
  { s with host := { s.host with mem := tsetMany hostDflt 1 s.host.mem a bs } }

/-- Does an access to these bus addresses end in an error completion (R471)? -/
def State.hostBad (s : State) (a n : Nat) : Bool := s.host.bad.any (fun b => a ≤ b && b < a + n)

/-- Bytes of an atlas memory. -/
def State.memRead (s : State) (a n : Nat) : List Byte := tgetMany memDflt 1 s.mem a n

/-- Write bytes of an atlas memory. -/
def State.memWrite (s : State) (a : Nat) (bs : List Byte) : State :=
  { s with mem := tsetMany memDflt 1 s.mem a bs }

/-- Zero a range of an atlas memory. -/
def State.memZero (s : State) (a n : Nat) : State := { s with mem := tclear s.mem a n }

/-- Bytes of flash. -/
def State.flashRead (s : State) (a n : Nat) : List Byte := tgetMany flashDflt 1 s.flash a n

/-- Program flash: programming only clears bits, so a byte keeps the bits it has at 0 (R538). -/
def State.flashProgram (s : State) (a : Nat) (bs : List Byte) : State :=
  let old := s.flashRead a bs.length
  { s with flash := tsetMany flashDflt 1 s.flash a (List.zipWith (fun x y => x &&& y) old bs) }

/-- Erase flash. -/
def State.flashErase (s : State) (a n : Nat) : State := { s with flash := tclear s.flash a n }

/-! Logs of the kind of R196: records written count up in `head`, software advances `tail`, a full log drops. -/

/-- Write the record words `ws` to the log of `n` records at `base`, `stride` apart, if it is not full; its first
argument tells whether it was written. -/
def State.logWrite (s : State) (head tail : Fld) (base stride n : Nat) (ws : List Word) : Bool × State :=
  let h := s.fld head
  let t := s.fld tail
  if (h + 65536 - t) % 65536 < n then
    (true, (s.setRegs (base + stride * (h % n)) ws).setFld head (h + 1))
  else (false, s)

/-- The 32-bit word built from (value, lowest bit) parts that do not overlap. -/
def packWord (parts : List (Nat × Nat)) : Word := BitVec.ofNat 32 (parts.foldl (fun a p => a + p.1 * 2 ^ p.2) 0)

/-- The low and high words of a 64-bit value. -/
def loHi (v : Nat) : List Word := [BitVec.ofNat 32 v, BitVec.ofNat 32 (v >>> 32)]

/-! Access paths (R9, R10) -/

/-- The copies of a path. -/
def State.path (s : State) : Path → PathCopy
  | .pcie => s.pcie
  | .smb => s.smb
  | .fw => s.fw

/-- Replace the copies of a path. -/
def State.setPath (s : State) (p : Path) (c : PathCopy) : State :=
  match p with
  | .pcie => { s with pcie := c }
  | .smb => { s with smb := c }
  | .fw => { s with fw := c }

/-- Nothing held, nothing pending. -/
def noWord (_ : Nat) : Option Word := none

/-! Tables of structures -/

/-- Governor p. -/
def State.gov (s : State) (p : Nat) : Gov := tget (fun _ => {}) s.govs p
/-- Replace governor p. -/
def State.setGov (s : State) (p : Nat) (g : Gov) : State := { s with govs := tset (fun _ => {}) s.govs p g }
/-- Lane n. -/
def State.lane (s : State) (n : Nat) : Lane := tget (fun _ => {}) s.lanes n
/-- Replace lane n. -/
def State.setLane (s : State) (n : Nat) (l : Lane) : State := { s with lanes := tset (fun _ => {}) s.lanes n l }
/-- Is the lane in Raw-W mode? -/
def State.rawMode (s : State) (n : Nat) : Bool := s.bit (F.INL_LANE_CFG.mode (n / 48) (n % 48))

/-- Queue q. -/
def State.queue (s : State) (q : Nat) : QueueState := tget (fun _ => {}) s.hub.queues q
/-- Replace queue q. -/
def State.setQueue (s : State) (q : Nat) (v : QueueState) : State :=
  { s with hub := { s.hub with queues := tset (fun _ => {}) s.hub.queues q v } }
/-- Engine e. -/
def State.engine (s : State) (e : Nat) : Engine := tget (fun _ => {}) s.dma.engines e
/-- Replace engine e. -/
def State.setEngine (s : State) (e : Nat) (v : Engine) : State :=
  { s with dma := { s.dma with engines := tset (fun _ => {}) s.dma.engines e v } }

/-- Bytes `[o, o + n)` of a list. -/
def sub (bs : List Byte) (o n : Nat) : List Byte := (bs.drop o).take n

/-- Bytes to fill a list up to `n`. -/
def padTo (n : Nat) (bs : List Byte) : List Byte := bs ++ List.replicate (n - bs.length) 0#8

/-! Power domains (R532) -/

/-- Is a domain on (PWR_DOM_STAT)? -/
def State.domOn (s : State) (n : Nat) : Bool := nbit (s.fld F.PWR_DOM_STAT.on) n

/-- Are the core and the SerDes of a tether die on? -/
def State.tetherOn (s : State) (t : Nat) : Bool := s.domOn (3 + 2 * t) && s.domOn (4 + 2 * t)

/-- Does the die of a lane run? -/
def State.lanePowered (s : State) (n : Nat) : Bool := s.tetherOn (n / 48)

/-! Temperature sensors (R545; log 45) -/

/-- The word of sensor j: [11:0] the last reading, [31] valid. -/
def State.tempWord (s : State) (j : Nat) : Word := tget (fun _ => 0) s.power.temps j

/-- Write the word of sensor j. -/
def State.setTempWord (s : State) (j : Nat) (w : Word) : State :=
  { s with power := { s.power with temps := tset (fun _ => 0) s.power.temps j w } }

/-- Sensor j is not read: valid = 0, the last reading stays. -/
def State.invalidTemp (s : State) (j : Nat) : State := s.setTempWord j (BitVec.ofNat 32 ((s.tempWord j).toNat % 4096))

end Sys2Proof.Machine
end

