-- ==== Sys2Proof/Machine/Flags.lean ====
section
/-!
DEFINITION. Status flags and what they raise: the origin of every interrupt source (R492), how pending follows it
(R494), claimability and the best claimable priority (R497), the messages of T0-T2 (R498), the levels of IRQ_N and
FAULT_N (R244, R245). `settle` brings the controller up to date after every command; it changes nothing else.
-/
namespace Sys2Proof.Machine

/-- Is an event bit set while its enable is? -/
def State.gated (s : State) (f en : Fld) (i : Nat) : Bool := s.bit f && nbit (s.fld en) i

/-- Any of the first `n`. -/
def anyBelow (n : Nat) (p : Nat → Bool) : Bool := (List.range n).any p

/-- The sources whose origin is a pulse: completions (R494), and the two events of R246 for which no status bit is
kept, barrier cancelled and malformed result (log 17). -/
def pulseSource (x : Nat) : Bool := (1 ≤ x && x ≤ 4) || x == 227 || x == 228

/-- The origin level of source `x` (R492). -/
def State.origin (s : State) (x : Nat) : Bool :=
  if x < 16 then
    match x with
    | 5 => nbit (s.fld F.HUB_INT_EN.en) 4 && anyBelow 16 (fun q => s.bit (F.HUB_QP_STAT.db_err q)
        || s.bit (F.HUB_QP_STAT.ring_fault q) || s.bit (F.HUB_QP_STAT.cfg_err q))
    | 6 => s.gated F.HUB_ACC_ERR.seen F.HUB_INT_EN.en 5
    | 7 => s.gated F.HUB_STATE_EVT.change F.HUB_INT_EN.en 6
    | _ => false
  else if x < 24 then
    match x with
    | 16 => s.bit F.TIM_STATUS.mclk_loss
    | 17 => s.bit F.TIM_STATUS.orbit_slip
    | 18 => s.bit F.TIM_STATUS.orbit_missing
    | 19 => s.bit F.TIM_STATUS.orbit_resync
    | 20 => s.bit F.TIM_STATUS.orbit_wrap
    | 21 => s.bit F.TIM_STATUS.pps_missing_seen
    | 22 => anyBelow 8 (fun p => s.bit (F.TIM_GOV_STAT.avs_err p))
    | _ => anyBelow 8 (fun p => s.bit (F.TIM_GOV_STAT.sensor_fail p))
  else if x < 32 then false
  else if x < 64 then
    anyBelow 3 (fun j =>
      let n := 3 * (x - 32) + j
      ((s.reg (Reg.INL_LANE_EVT (n / 48) (n % 48))).toNat % 32) &&& s.fld (F.INL_LANE_CFG.evt_en (n / 48) (n % 48)) != 0)
  else if x < 68 then nbit ((s.reg Reg.RDL_STATUS).toNat &&& s.fld F.RDL_INT_EN.en) (x - 64)
  else if x < 80 then false
  else if x < 128 then
    let d := (x - 80) / 3
    match (x - 80) % 3 with
    | 0 => s.bit (F.TRL_FAULT_EVT.fault d) && s.bit (F.TRL_FAULT_CFG.fault_int d)
    | 1 => s.bit (F.TRL_FAULT_EVT.spill d) && s.bit (F.TRL_FAULT_CFG.spill_int d)
    | _ => s.bit (F.TIM_GOV_STAT.slack (d / 2))
  else if x < 137 then
    nbit (s.fld F.TTH_INT_EN.en) (x - 128) &&
      (if x < 134 then s.bit (F.TTH_PORT_EVT.up (x - 128)) || s.bit (F.TTH_PORT_EVT.down (x - 128))
       else if x = 134 then s.bit F.TTH_STATUS.pe_pending
       else if x = 135 then s.bit F.TTH_STATUS.pe_overflow
       else s.bit F.TTH_STATUS.read_timeout)
  else if x < 144 then false
  else if x < 148 then
    nbit (s.fld F.COL_INT_EN.en) (x - 144) &&
      (if x = 144 then s.bit F.COL_SURVEY_STAT.published
       else if x = 145 then s.bit F.COL_SURVEY_STAT.unstable
       else if x = 146 then s.bit F.COL_SURVEY_STAT.miswire
       else s.bit F.COL_BRIDLE_EVT.change)
  else if x < 151 then nbit ((s.reg Reg.COL_ENG_EVT).toNat &&& s.fld F.COL_ENG_INT_EN.en) (x - 148)
  else if x < 157 then nbit ((s.reg Reg.COL_ABORT_EVT).toNat &&& s.fld F.COL_ABORT_INT_EN.en) (x - 151)
  else if x < 160 then false
  else if x < 163 then nbit ((s.reg Reg.DMA_EVT).toNat &&& s.fld F.DMA_INT_EN.en) (x - 160)
  else if x < 176 then false
  else if x < 182 then nbit ((s.reg Reg.CFM_EVT).toNat &&& s.fld F.CFM_INT_EN.en) (x - 176)
  else if x < 184 then false
  else if x < 188 then nbit ((s.reg Reg.DET_STATUS).toNat &&& s.fld F.DET_CTRL.int_en) (x - 184)
  else if x < 192 then false
  else if x < 198 then nbit ((s.reg Reg.PWR_EVT).toNat &&& s.fld F.PWR_INT_EN.en) (x - 192)
  else if x < 208 then false
  else if x < 214 then nbit ((s.reg Reg.MGT_EVT).toNat &&& s.fld F.MGT_INT_EN.en) (x - 208)
  else if x < 224 then false
  else if x = 224 then s.gated F.DEC_VETO_STAT.warn F.DEC_INT_EN.en 0
  else if x = 225 then s.gated F.DEC_SYNC_STAT.stuck F.DEC_INT_EN.en 1
  else if x = 226 then s.gated F.DEC_SYNC_STAT.launched F.DEC_INT_EN.en 2
  else if x = 229 then nbit (s.fld F.DEC_INT_EN.en) 5 && anyBelow 8 (fun n => s.bit (F.DEC_LANE_STAT.rate_err n))
  else false

/-- A 256-bit map from a predicate on sources; source 0 is never in it. -/
def sourceMap (p : Nat → Bool) : BitVec 256 :=
  BitVec.ofNat 256 ((List.range 255).foldl (fun a i => if p (i + 1) then a + 2 ^ (i + 1) else a) 0)

/-- Is source `x` in a map? -/
def inMap (m : BitVec 256) (x : Nat) : Bool := nbit m.toNat x

/-- A map with source `x` put in or taken out. -/
def putMap (m : BitVec 256) (x : Nat) (b : Bool) : BitVec 256 :=
  BitVec.ofNat 256 (if b then setBit m.toNat x else clearBit m.toNat x)

/-- All origin levels. -/
def State.origins (s : State) : BitVec 256 := sourceMap s.origin

/-- The sources that act as edge: by their mode, or as pulses (R494). -/
def State.edgeMap (s : State) : BitVec 256 := sourceMap (fun x => pulseSource x || s.bit (F.INT_SRC_CFG.edge x))

/-- Pending after the origins are `o` (R494): a level source that is not active follows its origin and what software
set; an edge source keeps pending and takes a rising edge. -/
def nextPend (c : Intc) (edge o : BitVec 256) : BitVec 256 :=
  (~~~edge &&& ~~~c.active &&& (o ||| c.soft)) ||| (~~~edge &&& c.active &&& c.pend) |||
    (edge &&& (c.pend ||| (o &&& ~~~c.origin)))

/-- The stack of target `k`, newest entry first. -/
def Intc.stack (c : Intc) (k : Nat) : List (Nat × Nat) := tget (fun _ => []) c.nested k

/-- The running priority of target `k` (R497). -/
def Intc.running (c : Intc) (k : Nat) : Nat := match c.stack k with
  | [] => 0
  | e :: _ => e.2

/-- Is source `x` claimable at target `k` (R497)? -/
def State.claimable (s : State) (c : Intc) (k x : Nat) : Bool :=
  inMap c.pend x && s.bit (F.INT_SRC_CFG.en x) && !inMap c.active x && !inMap c.rate x &&
    s.fld (F.INT_SRC_CFG.target x) == k && s.fld (F.INT_TGT_THRESH.thresh k) < s.fld (F.INT_SRC_CFG.prio x) &&
    c.running k < s.fld (F.INT_SRC_CFG.prio x)

/-- The claimable source of target `k` of highest priority, the lowest number on a tie, with its priority; (0, 0) when
there is none (R497, R500). -/
def State.bestOf (s : State) (c : Intc) (k : Nat) : Nat × Nat :=
  (List.range 256).foldl (fun b x =>
    if s.claimable c k x && b.2 < s.fld (F.INT_SRC_CFG.prio x) then (x, s.fld (F.INT_SRC_CFG.prio x)) else b) (0, 0)

/-- Give the message of a vector to the ring port, or set its pending bit while it is masked (R498). -/
def State.message (s : State) (m : Msix) (v : Nat) : Msix :=
  if m.masked || s.bit (F.HUB_MSIX_CTRL.mask v) then { m with pba := m.pba ||| BitVec.ofNat 64 (2 ^ v) }
  else { m with due := ((s.reg (Reg.HUB_MSIX_ADDR_LO v)).toNat + 2 ^ 32 * (s.reg (Reg.HUB_MSIX_ADDR_HI v)).toNat,
    s.reg (Reg.HUB_MSIX_DATA v)) :: m.due }

/-- The vector on which target `k` sends at best priority `p` (R498). -/
def State.vectorOf (s : State) (k p : Nat) : Nat :=
  s.fld (F.INT_TGT_VEC.base k) + min p (max 1 (s.fld (F.INT_TGT_VEC.count k))) - 1

/-- One target's signalling: a message when its best priority rises above what was last signalled, or when it is not
zero just after an EOI (R498, R507). -/
def State.signal (s : State) (eoi : Option Nat) (cm : Intc × Msix) (k : Nat) : Intc × Msix :=
  let p := (s.bestOf cm.1 k).2
  let old := tget (fun _ => 0) cm.1.best k
  let c := { cm.1 with best := tset (fun _ => 0) cm.1.best k p }
  if k < 3 && p != 0 && (old < p || eoi == some k) then (c, s.message cm.2 (s.vectorOf k p)) else (c, cm.2)

/-- The interrupt controller, and what MSI-X holds and sends, brought up to date with the state. `eoi`: the target whose
EOI was just accepted. -/
def State.settledInts (s : State) (eoi : Option Nat) : Intc × Msix :=
  let o := s.origins
  [0, 1, 2, 3].foldl (s.signal eoi) ({ s.intc with pend := nextPend s.intc s.edgeMap o, origin := o }, s.msix)

/-- Bring the interrupt controller up to date with the state; nothing else changes. -/
def State.settleWith (s : State) (eoi : Option Nat) : State :=
  { s with intc := (s.settledInts eoi).1, msix := (s.settledInts eoi).2 }

/-- Bring the interrupt controller up to date with the state. -/
def State.settle (s : State) : State := s.settleWith none

/-- A pulse of source `x` (R494): it sets pending. -/
def State.pulse (s : State) (x : Nat) : State := { s with intc := { s.intc with pend := putMap s.intc.pend x true } }

/-- IRQ_N is low while T3 has a claimable source; it is released during reset (R245, R520). -/
def State.irqN (s : State) : Bool := !(s.power.firmware || s.power.rom) || (s.bestOf s.intc 3).2 == 0

/-- FAULT_N is low during reset and until firmware start, in FAULT, and while an enabled cause is active (R244, R520). -/
def State.faultN (s : State) : Bool :=
  (s.power.firmware || s.power.rom) && s.life != lifeFault &&
    !(s.bit F.DEC_FAULTN_MASK.thermal && s.bit F.PWR_THERM_STAT.trip) &&
    !(s.bit F.DEC_FAULTN_MASK.mclk && s.bit F.TIM_STATUS.mclk_loss) &&
    !(s.bit F.DEC_FAULTN_MASK.sync && s.bit F.DEC_SYNC_STAT.stuck)

/-- The answer of a command that leaves this state. -/
def done (s : State) : Res := .next s.settle

/-- The answer of a row of the machine itself, which would leave state `t`: in REPLAY the whole machine stalls while MCLK is lost (R32). -/
def unstalled (s t : State) : Res := done (if s.stalled then s else t)

end Sys2Proof.Machine
end

