-- ==== Sys2Proof/Machine/Frame.lean ====
section
/-!
DEFINITION. The cold frame's stores (R380): its addresses in the atlas (R425), the ring of digest records and trace
entries, the trace log (R365) and digest records (R362). A ring wraps byte by byte (log 20).
-/
namespace Sys2Proof.Machine

/-- Atlas address of a cold-frame address (R425). -/
def cold (x : Nat) : Nat := 0x0100000000 + x

/-- Bytes at a cold-frame address. -/
def State.coldRead (s : State) (x n : Nat) : List Byte := s.memRead (cold x) n

/-- Write bytes at a cold-frame address. -/
def State.coldWrite (s : State) (x : Nat) (bs : List Byte) : State := s.memWrite (cold x) bs

/-- Write bytes into the ring `[base, base + size)` from position `pos` on, wrapping. -/
def State.ringWrite (s : State) (base size pos : Nat) (bs : List Byte) : State :=
  let k := size - pos % size
  (s.coldWrite (base + pos % size) (bs.take k)).coldWrite base (bs.drop k)

/-- Capture states (CFM_CAP_STAT). -/
def capOff : Nat := 0
/-- RUNNING -/
def capRunning : Nat := 1
/-- POST -/
def capPost : Nat := 2
/-- FROZEN -/
def capFrozen : Nat := 3

/-- The capture's state. -/
def State.capState (s : State) : Nat := s.fld F.CFM_CAP_STAT.state

/-- Does the capture run (R384, R388)? -/
def State.capRuns (s : State) : Bool := s.capState == capRunning || s.capState == capPost

/-- Are digest records and trace entries written: while capture is armed (R362, R365), or in REPLAY (R394)? -/
def State.recording (s : State) : Bool := s.capRuns || s.life == lifeReplay

/-- Append bytes to the ring of digest records and trace entries (R380). -/
def State.digAppend (s : State) (bs : List Byte) : State :=
  { s.ringWrite 0xE4000000 0x08000000 s.capture.digPos bs with
    capture := { s.capture with digPos := (s.capture.digPos + bs.length) % 0x08000000 } }

/-- Note a trace entry (R365): it is written when its event is released, in the trace order; the map digest is the one in force
now. `n`: tokens or context. -/
def State.trace (s : State) (kind unit queue n tag : Nat) (ev : EvRef) : State :=
  if !s.recording then s
  else
    let e : TraceEntry := ⟨ev.orbit, ev.crossing, unit, kind,
      packWord [(kind, 0), (unit % 2048, 4), (queue % 8, 15), (n % 16, 18), (tag % 8, 22)], s.fld F.DET_DMAP_DIGEST.digest⟩
    { s with capture := { s.capture with trace := s.capture.trace ++ [e] } }

/-- The trace order: ascending (orbit, crossing, unit, kind). -/
def TraceEntry.le (a b : TraceEntry) : Bool :=
  if a.orbit != b.orbit then a.orbit < b.orbit
  else if a.crossing != b.crossing then a.crossing < b.crossing
  else if a.unit != b.unit then a.unit < b.unit
  else a.kind ≤ b.kind

/-- The 16 bytes of a trace entry. -/
def TraceEntry.bytes (e : TraceEntry) : List Byte :=
  leBytes 4 e.word.toNat ++ leBytes 4 e.orbit ++ leBytes 2 e.crossing ++ leBytes 2 0 ++ leBytes 4 e.digest

/-- Write the trace entries that a test names, in the trace order. -/
def State.writeTrace (s : State) (p : TraceEntry → Bool) : State :=
  let out := sortBy TraceEntry.le (s.capture.trace.filter p)
  let s := { s with capture := { s.capture with trace := s.capture.trace.filter (fun e => !p e) } }
  s.digAppend (out.flatMap TraceEntry.bytes)

/-- Write the trace entries of events up to this one. -/
def State.flushTrace (s : State) (orbit crossing : Nat) : State :=
  s.writeTrace (fun e => e.orbit < orbit || (e.orbit == orbit && e.crossing ≤ crossing))

/-! ECC of the cold frame (R383) -/

/-- Count what ECC finds: corrected words and double-bit errors. -/
def State.countEcc (s : State) (corrected uncorr : Nat) : State :=
  let s := s.satAdd F.CFM_ECC_STAT.corr corrected
  if uncorr = 0 then s else (s.satAdd F.CFM_ECC_STAT.uncorr uncorr).raise F.CFM_EVT.ecc_uncorr

/-- The lanes of a capture record with a double-bit error are bad in any later replay. -/
def State.markRecords (s : State) (bad : List Nat) : State :=
  let new := bad.filter (fun j => !s.capture.badRecords.contains j)
  { s with capture := { s.capture with badRecords := s.capture.badRecords ++ new } }

/-- The ring length N in crossings (R384). -/
def State.capLen (s : State) : Nat := s.fld F.CFM_CAP_CFG.size_k * 1024

/-- The crossing index whose record holds a cold-frame address, if the ring holds one there (R385). -/
def State.recordAt (s : State) (x : Nat) : Option Nat :=
  let n := max 1 s.capLen
  let k := (x - 0x20000000) / 9344
  match s.capture.newest with
  | none => none
  | some m =>
    let back := (m + n - k % n) % n
    if x < 0x20000000 || n ≤ k || m < back || s.capture.oldest.elim true (fun o => m - back < o) then none else some (m - back)

/-- ECC of a read of one word at an atlas address, with what it found: nothing, a corrected error, a double-bit error; only the cold
frame reads so, and a double-bit error counts in a capture record. -/
def State.readEcc (s : State) (a : Nat) (found : Option Bool) : State :=
  if a < cold 0 || cold 0x100000000 ≤ a then s
  else match found with
    | none => s
    | some false => s.countEcc 1 0
    | some true => match s.recordAt (a - cold 0) with
      | some j => (s.countEcc 0 1).markRecords [j]
      | none => s

/-- A reading of `n` 64-bit words of the cold frame whose row does not say how many errors ECC corrects: as many as a free value says
(R383, log 158). -/
def State.corrected (s : State) (n : Nat) : State :=
  let (w, s) := s.takeFree
  s.countEcc (w.toNat % (n + 1)) 0

end Sys2Proof.Machine
end

