-- ==== Sys2Proof/Machine/Capture.lean ====
section
/-!
DEFINITION. The capture's states (R388): triggers and freezing.
-/
namespace Sys2Proof.Machine

/-- Freeze the capture: the trace entries noted are written, then ring, side records and digest and trace ring stop; the indices are
final (R365, R388). -/
def State.freeze (s : State) : State :=
  if !s.capRuns then s
  else
    let s := ((s.writeTrace (fun _ => true)).setFld F.CFM_CAP_STAT.state capFrozen).raise F.CFM_EVT.frozen
    { s with capture := { s.capture with freezeDue := false } }

/-- A trigger that names crossing index `x` (R388): the first one puts the capture in POST; when the record that ends the
post-trigger period is there already, the freeze is due at the end of this crossing. -/
def State.capTrigger (s : State) (x : Nat) : State :=
  if s.capState = capRunning then
    let s := (s.setWide Reg.CFM_CAP_TRIG_X_LO x).setFld F.CFM_CAP_STAT.state capPost
    let there := s.capture.newest.elim false (fun n => x + s.fld F.CFM_CAP_CFG.post_x ≤ n)
    { s with capture := { s.capture with freezeDue := there } }
  else if s.capState = capOff then s
  else s.satInc F.CFM_CAP_STAT.extra_triggers

/-- Bit of a cause: the freeze sub-op, which triggers under every mask (R388). -/
def causeFreeze : Nat := 0x40000

/-- Does a cause trigger under a trigger mask? -/
def causeTriggers (flags mask : Nat) : Bool := flags &&& (mask &&& 0x303FF ||| causeFreeze) != 0

/-- Something that may trigger names crossing `x`: flags of a released event, bit 16 for a mismatch, bit 17 for the entry to FAULT,
`causeFreeze`. It triggers if CFM_CAP_TRIG says so (R388); an arm later in this crossing looks at it again (R404). -/
def State.capCause (s : State) (x flags : Nat) : State :=
  let old := s.capture.causes.filter (fun e => e.1 == s.xindex)
  let s : State := { s with capture := { s.capture with causes := if flags = 0 then old else old ++ [(s.xindex, x, flags)] } }
  if causeTriggers flags (s.reg Reg.CFM_CAP_TRIG).toNat then s.capTrigger x else s

/-- CAPTURE_FREEZE: the freeze that is due takes place at the end of the crossing, which is its last tick. -/
def execCaptureFreeze (s : State) : Res := done (if s.capture.freezeDue && s.time.spool % 32 == 31 then s.freeze else s)

end Sys2Proof.Machine
end

