-- ==== Sys2Proof/Machine/Slots.lean ====
section
/-!
DEFINITION. The die grid, unit addresses and context slots (R132-R135, R137, R164-R166): where a slot and a LUT table
stand in the state atlas (R425), how a slot's bytes are read, and the checks that the load makes of one slot.
-/
namespace Sys2Proof.Machine

/-! Addresses (R133) -/

/-- Die of a unit address. -/
def uDie (u : Nat) : Nat := bits u 7 4
/-- Row of a unit address. -/
def uRow (u : Nat) : Nat := bits u 4 3
/-- Column of a unit address. -/
def uCol (u : Nat) : Nat := bits u 0 4
/-- The unit address of a site. -/
def unitAddr (d r c : Nat) : Nat := 128 * d + 16 * r + c

/-- The columns of memory units (R132). -/
def isMuCol (c : Nat) : Bool := c == 2 || c == 5 || c == 8 || c == 11

/-- Is the unit a memory unit? -/
def isMu (u : Nat) : Bool := isMuCol (uCol u)

/-- Columns of the CU positions 0 to 8 (R132). -/
def cuCols : List Nat := [0, 1, 3, 4, 6, 7, 9, 10, 12]

/-- The CU position of a column. -/
def cuPos (c : Nat) : Option Nat := cuCols.idxOf? c

/-- Positions that the grade exposes (R134). -/
def State.exposed (s : State) : Nat := if s.fuses.gradeM then 7 else 8

/-- Does the address name a unit that the grade exposes? -/
def State.unitExposed (s : State) (u : Nat) : Bool :=
  isMu u || (cuPos (uCol u)).elim false (fun p => p < s.exposed)

/-! Row maps (R367) -/

/-- The fused-off positions of a row. -/
def State.fusedMask (s : State) (d r : Nat) : Nat := tget (fun _ => 0) s.fuses.fused (8 * d + r)

/-- The pruned positions of a row. -/
def State.prunedMask (s : State) (d r : Nat) : Nat := s.fld (F.DET_ROW_MAP.pruned (8 * d + r))

/-- Is die `d` fenced (R368)? -/
def State.fenced (s : State) (d : Nat) : Bool := nbit (s.fld F.DET_FENCE.dies) d

/-- Is a CU position available (R367)? -/
def State.available (s : State) (d r p : Nat) : Bool :=
  !nbit (s.fusedMask d r) p && !nbit (s.prunedMask d r) p && !s.fenced d

/-- The positions of a row that are not fused off and not pruned, in ascending order. -/
def State.rowMap (s : State) (d r : Nat) : List Nat :=
  (List.range 9).filter (fun p => !nbit (s.fusedMask d r) p && !nbit (s.prunedMask d r) p)

/-- The physical column that serves a logical unit. -/
def State.physCol (s : State) (u : Nat) : Nat := match cuPos (uCol u) with
  | none => uCol u
  | some p => cuCols.getD ((s.rowMap (uDie u) (uRow u)).getD p p) (uCol u)

/-- The place that serves a unit, as a unit address. -/
def State.place (s : State) (u : Nat) : Nat := unitAddr (uDie u) (uRow u) (s.physCol u)

/-- The site index of the place that serves a unit (R425). -/
def State.site (s : State) (u : Nat) : Nat := 13 * uRow u + s.physCol u

/-- The logical unit that a physical CU position serves, if it is exposed. -/
def State.logicalOf (s : State) (d r p : Nat) : Option Nat :=
  ((s.rowMap d r).idxOf? p).bind (fun k => if k < s.exposed then some (unitAddr d r (cuCols.getD k 0)) else none)

/-- The logical unit at site `k` of die `d`, if the grade exposes one there (R135). -/
def State.unitAtSite (s : State) (d k : Nat) : Option Nat :=
  let r := k / 13
  let c := k % 13
  if isMuCol c then some (unitAddr d r c) else (cuPos c).bind (fun p => s.logicalOf d r p)

/-! The memories of a die in the atlas (R425) -/

/-- Base of a trellis die. -/
def dieBase (d : Nat) : Nat := 0x0200000000 + 0x04000000 * d
/-- A row of a memory unit. -/
def rowAddr (u row : Nat) : Nat := dieBase (uDie u) + 0x80000 * (13 * uRow u + uCol u) + 128 * row
/-- A slot of the seed tray of a site. -/
def slotAddr (d site i : Nat) : Nat := dieBase d + 0x3400000 + 0x2000 * site + 512 * i
/-- A LUT table of a site. -/
def lutAddr (d site i : Nat) : Nat := dieBase d + 0x3600000 + 0x10000 * site + 512 * i

/-! Reading a slot -/

/-- One byte. -/
def u8 (bs : List Byte) (o : Nat) : Nat := (bs.getD o 0).toNat
/-- Two bytes, low byte first. -/
def u16 (bs : List Byte) (o : Nat) : Nat := u8 bs o + 256 * u8 bs (o + 1)
/-- Four bytes, low byte first. -/
def u32 (bs : List Byte) (o : Nat) : Nat := u16 bs o + 65536 * u16 bs (o + 2)
/-- Eight bytes, low byte first. -/
def u64 (bs : List Byte) (o : Nat) : Nat := u32 bs o + 4294967296 * u32 bs (o + 4)

/-- The header of a slot (R164). -/
structure Header where
  valid : Bool
  tag : Nat
  ctx : Nat
  mu : Bool
  inWide : Bool
  outWide : Bool
  primary : Nat
  fold : Nat
  bound : Nat
  deriving DecidableEq, Repr

/-- Read a header. -/
def readHeader (bs : List Byte) : Header where
  valid := nbit (u8 bs 0) 0
  tag := bits (u8 bs 0) 1 3
  ctx := bits (u8 bs 0) 4 3
  mu := nbit (u8 bs 1) 0
  inWide := nbit (u8 bs 1) 1
  outWide := nbit (u8 bs 1) 2
  primary := bits (u8 bs 2) 0 3
  fold := bits (u8 bs 3) 0 4
  bound := u16 bs 4

/-- A counter (R154, R164). -/
structure Ctr where
  limit : Nat
  source : Nat
  mustZero : Bool
  mask : Nat
  token : Nat
  stride : Int
  deriving DecidableEq, Repr

/-- Read the counter at `o`. -/
def readCtr (bs : List Byte) (o : Nat) : Ctr :=
  ⟨u16 bs o, bits (u8 bs (o + 2)) 0 3, nbit (u8 bs (o + 2)) 3, bits (u8 bs (o + 2)) 4 4, bits (u8 bs (o + 3)) 0 2,
    signed 16 (u16 bs (o + 4))⟩

/-- A stage (R164). -/
structure StageCfg where
  func : Nat
  fmt : Nat
  pack4 : Bool
  requant : Bool
  bcast : Bool
  op : Nat
  bSrc : Nat
  holdCtr : Nat
  hold : Bool
  seg : Nat
  shift : Nat
  outFmt : Nat
  zp : Int
  m : Int
  perLane : Bool
  vecShift : Nat
  lutBias : Int
  imm : Nat
  deriving DecidableEq, Repr

/-- Read the stage at `o`. -/
def readStage (bs : List Byte) (o : Nat) : StageCfg where
  func := bits (u8 bs o) 0 3
  fmt := bits (u8 bs o) 3 2
  pack4 := nbit (u8 bs o) 5
  requant := nbit (u8 bs o) 6
  bcast := nbit (u8 bs o) 7
  op := bits (u8 bs (o + 1)) 0 4
  bSrc := bits (u8 bs (o + 1)) 4 4
  holdCtr := bits (u8 bs (o + 2)) 0 2
  hold := nbit (u8 bs (o + 2)) 2
  seg := bits (u8 bs (o + 2)) 3 3
  shift := bits (u8 bs (o + 3)) 0 6
  outFmt := bits (u8 bs (o + 3)) 6 2
  zp := signed 16 (u16 bs (o + 4))
  m := signed 16 (u16 bs (o + 6))
  perLane := nbit (u8 bs (o + 8)) 0
  vecShift := bits (u8 bs (o + 9)) 0 5
  lutBias := signed 16 (u16 bs (o + 10))
  imm := u32 bs (o + 12)

/-- A route (R149, R164). Its hop codes say where it runs, its destination and queue where it ends. -/
structure RouteCfg where
  dest : Nat
  queue : Nat
  data : Bool
  control : Bool
  steer : Nat
  hops : Nat
  codes : List Nat
  deriving DecidableEq, Repr

/-- Is the route used (R149)? -/
def RouteCfg.used (r : RouteCfg) : Bool := r.data || r.control

/-- Read the route at `o`. -/
def readRoute (bs : List Byte) (o : Nat) : RouteCfg :=
  ⟨bits (u16 bs o) 0 11, bits (u16 bs o) 11 3, nbit (u16 bs o) 14, nbit (u16 bs o) 15, bits (u8 bs (o + 2)) 0 2,
    bits (u8 bs (o + 2)) 2 6, (List.range (bits (u8 bs (o + 2)) 2 6)).map (fun i => bits (u8 bs (o + 3 + i / 4)) (2 * (i % 4)) 2)⟩

/-- One hop of a route from a site, N, E, S or W (R164): the next site. Dies that are adjacent in the array are joined by bridges: east and
west in every row between columns 12 and 0, north and south in every memory-unit column (R135). None: the hop leaves the array. -/
def hopFrom (d r c code : Nat) : Option (Nat × Nat × Nat) := match code with
  | 0 => if 0 < r then some (d, r - 1, c) else if 4 ≤ d && isMuCol c then some (d - 4, 7, c) else none
  | 1 => if c < 12 then some (d, r, c + 1) else if d % 4 < 3 then some (d + 1, r, 0) else none
  | 2 => if r < 7 then some (d, r + 1, c) else if d < 12 && isMuCol c then some (d + 4, 0, c) else none
  | _ => if 0 < c then some (d, r, c - 1) else if 0 < d % 4 then some (d - 1, r, 12) else none

/-- The dies that a route enters by a bridge, in order, from a site on. -/
def hopDies (d r c : Nat) : List Nat → List Nat
  | [] => []
  | h :: l => match hopFrom d r c h with
    | none => []
    | some (d', r', c') => (if d' = d then [] else [d']) ++ hopDies d' r' c' l

/-- Where a route ends: columns 14 and 15 name the tether dies (R149). -/
def RouteCfg.target (r : RouteCfg) : Dest :=
  if uCol r.dest < 14 then .unit r.dest r.queue
  else if r.queue = 0 then .decision (uCol r.dest - 14)
  else .feed (uCol r.dest - 14) r.queue

/-- An address generator's control (R165). -/
structure AgCfg where
  base : Nat
  write : Bool
  trigger : Nat
  sel : Nat
  lo : Nat
  hi : Nat
  gated : Bool
  ctrs : List Ctr
  deriving DecidableEq, Repr

/-- Read a generator: counters at `c`, control at `o`. -/
def readAg (bs : List Byte) (c o : Nat) : AgCfg :=
  ⟨bits (u16 bs o) 0 12, nbit (u16 bs o) 12, bits (u16 bs o) 13 2, bits (u8 bs (o + 2)) 0 3, bits (u16 bs (o + 4)) 0 12,
    bits (u16 bs (o + 6)) 0 12, nbit (u8 bs (o + 8)) 0, [0, 1, 2, 3].map (fun k => readCtr bs (c + 8 * k))⟩

/-- Generator `g` of a slot. -/
def readGen (bs : List Byte) (g : Nat) : AgCfg := if g = 0 then readAg bs 0x20 0x40 else readAg bs 0x50 0x70

/-- Is the generator used (R143)? -/
def AgCfg.used (a : AgCfg) : Bool := (a.ctrs.getD 0 ⟨0, 0, false, 0, 0, 0⟩).source != 0

/-- The counters of a CU slot. -/
def readCtrs (bs : List Byte) : List Ctr := [0, 1, 2, 3].map (fun k => readCtr bs (0x20 + 8 * k))

/-- The routes of a slot. -/
def readRoutes (bs : List Byte) : List RouteCfg := [0, 1, 2, 3].map (fun i => readRoute bs (0x80 + 16 * i))

/-- The 64 signed values at `o` (per-lane M at 0x0C0, vector at 0x140). -/
def readLanes (bs : List Byte) (o : Nat) : List Int := (List.range 64).map (fun l => signed 16 (u16 bs (o + 2 * l)))

/-- Does some counter of the slot send CONTEXT_NEXT (R217)? -/
def isLeader (bs : List Byte) : Bool :=
  let cs := if (readHeader bs).mu then (readGen bs 0).ctrs ++ (readGen bs 1).ctrs else readCtrs bs
  cs.any (fun c => c.token == 1)

/-! The seed tray -/

/-- The bytes of slot `i` of a unit. -/
def State.slotBytes (s : State) (u i : Nat) : List Byte := s.memRead (slotAddr (uDie u) (s.site u) i) 512

/-- The header of slot `i` of a unit. -/
def State.slotHeader (s : State) (u i : Nat) : Header := readHeader (s.memRead (slotAddr (uDie u) (s.site u) i) 6)

/-- The valid slots of a unit, lowest first. -/
def State.validSlots (s : State) (u : Nat) : List (Nat × Header) :=
  ((List.range 16).map (fun i => (i, s.slotHeader u i))).filter (fun e => e.2.valid)

/-- The slot that matches a tag and context (R157). -/
def State.findSlot (s : State) (u tag ctx : Nat) : Option Nat :=
  ((s.validSlots u).find? (fun e => e.2.tag == tag && e.2.ctx == ctx)).map (fun e => e.1)

/-- The fallback slot of R198: the same tag with the lowest context, else the lowest valid slot. -/
def State.fallbackSlot (s : State) (u tag : Nat) : Option Nat :=
  let vs := s.validSlots u
  let same := vs.filter (fun e => e.2.tag == tag)
  match same.foldl (fun (b : Option (Nat × Header)) e => match b with
    | none => some e
    | some x => if e.2.ctx < x.2.ctx then some e else some x) none with
  | some e => some e.1
  | none => vs.head?.map (fun e => e.1)

/-- The slot that a token selects, matching or fallback. -/
def State.slotFor (s : State) (u tag ctx : Nat) : Option Nat := (s.findSlot u tag ctx).or (s.fallbackSlot u tag)

/-- The input queue on which a token of this tag and context is at the primary input: that of the slot it selects; with
no valid slot, every input. -/
def State.primaryFor (s : State) (u tag ctx q : Nat) : Nat :=
  (s.slotFor u tag ctx).elim q (fun i => (s.slotHeader u i).primary)

/-- Entry `n` of LUT table `t` of a unit (R137). -/
def State.lut (s : State) (u t n : Nat) : Int := signed 16 (leNat (s.memRead (lutAddr (uDie u) (s.site u) t + 2 * n) 2))

/-! The checks of one slot (R143, R153, R154, R163-R166) -/

/-- The bits of each byte that a slot defines; every other bit is reserved. -/
def slotMask (mu : Bool) : List Nat :=
  let z (n : Nat) : List Nat := List.replicate n 0
  let f (n : Nat) : List Nat := List.replicate n 255
  let rep (n : Nat) (l : List Nat) : List Nat := (List.replicate n l).flatten
  let head := if mu then [0x7F, 0x01, 0x07, 0x0F, 0xFF, 0xFF] else [0x7F, 0x07, 0x3F, 0x0F, 0xFF, 0xFF]
  let routes := f 64
  if mu then
    let ctr := [0xFF, 0xFF, 0x0F, 0x03, 0xFF, 0xFF, 0, 0]
    let ag := [0xFF, 0x7F, 0x07, 0, 0xFF, 0x0F, 0xFF, 0x0F, 0x01] ++ z 7
    head ++ z 26 ++ rep 4 ctr ++ ag ++ rep 4 ctr ++ ag ++ routes ++ z 320
  else
    let ctr := [0xFF, 0xFF, 0xFF, 0x03, 0, 0, 0, 0]
    let stage := [0xFF, 0xFF, 0x3F] ++ f 5 ++ [0x01, 0x1F] ++ f 6
    head ++ z 26 ++ rep 4 ctr ++ rep 4 stage ++ routes ++ f 256 ++ z 64

/-- The bytes of a route that is not used are ignored (R149). -/
def reservedOk (bs : List Byte) : Bool :=
  ((bs.zip (slotMask (readHeader bs).mu)).all (fun p => p.1.toNat &&& p.2 == p.1.toNat))

/-- Is the encoding of a counter of a CU defined (R154, R155)? -/
def ctrOk (k : Nat) (c : Ctr) : Bool := c.source ≤ 5 && !(k == 0 && c.source == 2) && c.token ≤ 1

/-- Is the encoding of a stage defined? A REDUCE stage with seg = 7 has no group of lanes (64 / 2^7), and the spec gives seg no range: it
counts as an undefined encoding (log 138). -/
def stageOk (st : StageCfg) : Bool :=
  st.func ≤ 4 && st.fmt ≤ 2 && st.outFmt ≤ 2 && st.shift ≤ 47 && !(st.func == 4 && 6 < st.seg) && st.vecShift ≤ 16 &&
    (st.bSrc ≤ 2 || (8 ≤ st.bSrc && st.bSrc ≤ 13)) && !(st.func == 2 && 9 < st.op) && !(st.func == 4 && 2 < st.op) &&
    !(st.pack4 && !(st.requant && st.outFmt == 0))

/-- Is the encoding of a route of unit `u` defined (R149, R151, R164)? -/
def State.routeOk (s : State) (u : Nat) (r : RouteCfg) : Bool :=
  !r.used || (r.steer ≤ 2 && r.hops ≤ 52 && uCol r.dest != 13 &&
    (14 ≤ uCol r.dest || (r.queue ≤ 5 && s.unitExposed r.dest &&
      !(r.queue == 4 && (uDie r.dest != uDie u || uRow r.dest != uRow u)) &&
      !(r.queue == 5 && (uDie r.dest != uDie u || uCol r.dest != uCol u)))))

/-- Are the counters of a generator defined (R143)? Counter 0 off, per handshake or per landed row; each other one off, or
a chain directly above counter 0 or above a chain. -/
def agCtrsOk (cs : List Ctr) : Bool :=
  let src (k : Nat) : Nat := (cs.getD k ⟨0, 0, false, 0, 0, 0⟩).source
  (src 0 == 0 || src 0 == 1 || src 0 == 4) && cs.all (fun c => c.token ≤ 1) &&
    [1, 2, 3].all (fun k => src k == 0 || (src k == 2 && (if k == 1 then src 0 != 0 else src (k - 1) == 2)))

/-- The active counters of a generator: counter 0 and the chain above it (R143). -/
def AgCfg.active (a : AgCfg) : List Ctr :=
  if a.used then (a.ctrs.take 1) ++ ((a.ctrs.drop 1).takeWhile (fun c => c.source == 2)) else []

/-- The lowest and highest row that a pass can give (R172 item 6). -/
def AgCfg.extent (a : AgCfg) : Int × Int :=
  a.active.foldl (fun e c =>
    let v := (c.limit : Int) * c.stride
    (e.1 + min 0 v, e.2 + max 0 v)) ((a.base : Int), (a.base : Int))

/-- Is a generator defined, and does every row it can give lie in its region below the spill area? -/
def agOk (a : AgCfg) : Bool :=
  agCtrsOk a.ctrs && a.trigger ≤ 2 && a.sel ≤ (if a.write then 5 else 3) && a.lo < 0xF80 && a.hi < 0xF80 &&
    (!a.used || ((a.lo : Int) ≤ a.extent.1 && a.extent.2 ≤ (a.hi : Int)))

/-- Does a slot of unit `u` meet R166 and its part of R172 item 6, whatever its valid bit? -/
def State.slotOk (s : State) (u : Nat) (bs : List Byte) : Bool :=
  let h := readHeader bs
  bs.length == 512 && reservedOk bs && s.unitExposed u && h.mu == isMu u && h.primary ≤ 5 &&
    bits (u8 bs 2) 3 3 ≤ 5 && 1 ≤ h.fold && h.fold ≤ 8 && (readRoutes bs).all (s.routeOk u) &&
    (if h.mu then agOk (readGen bs 0) && agOk (readGen bs 1)
     else [0, 1, 2, 3].all (fun k => ctrOk k (readCtr bs (0x20 + 8 * k)) && stageOk (readStage bs (0x40 + 16 * k))))

end Sys2Proof.Machine
end

