-- ==== Sys2Proof/Machine/Bridle.lean ====
section
/-!
DEFINITION. The bridle table (R286-R288): members, ring orders, ranks, and writing an entry from a bitmap.
-/
namespace Sys2Proof.Machine

/-- This package's ID (R275). -/
def State.self (s : State) : Nat := s.fld F.COL_SELF.id

/-- Coordinate `a` of a package ID: 0 x, 1 y, 2 z. -/
def coord (a id : Nat) : Nat := bits id (6 - 3 * a) 3

/-- The extent of an axis (R276). -/
def State.extent (s : State) (a : Nat) : Nat := (match a with
  | 0 => s.fld F.COL_TORUS.dim_x
  | 1 => s.fld F.COL_TORUS.dim_y
  | _ => s.fld F.COL_TORUS.dim_z) + 1

/-- Is an ID inside the extents (R276)? -/
def State.inExtent (s : State) (id : Nat) : Bool := [0, 1, 2].all (fun a => coord a id < s.extent a)

/-- Field of word `w` of bridle entry `g`. -/
def brF (g w lo n : Nat) : Fld := ⟨Reg.COL_BRIDLE g w, lo, n⟩
/-- State of the entry: 0 RETIRED, 1 FORMING, 2 READY, 3 ABORTED, 4 GRAFTING. -/
def brState (g : Nat) : Fld := brF g 16 0 3
/-- The channel held. -/
def brVc (g : Nat) : Fld := brF g 16 4 4
/-- Is a channel held? -/
def brHeld (g : Nat) : Fld := brF g 16 8 1
/-- trace -/
def brTrace (g : Nat) : Fld := brF g 16 9 1
/-- box -/
def brBox (g : Nat) : Fld := brF g 16 10 1
/-- Member count. -/
def brCount (g : Nat) : Fld := brF g 16 16 10
/-- epoch -/
def brEpoch (g : Nat) : Fld := brF g 17 0 16
/-- Next collective ordinal. -/
def brOrdinal (g : Nat) : Fld := brF g 17 16 16
/-- Ring position on an axis. -/
def brPos (g a : Nat) : Fld := brF g (18 + 2 * a) 0 10
/-- Ring size on an axis. -/
def brSize (g a : Nat) : Fld := brF g (18 + 2 * a) 16 10
/-- Successor on an axis. -/
def brSucc (g a : Nat) : Fld := brF g (19 + 2 * a) 0 9
/-- Predecessor on an axis. -/
def brPred (g a : Nat) : Fld := brF g (19 + 2 * a) 16 9
/-- diameter -/
def brDiameter (g : Nat) : Fld := brF g 24 0 4
/-- Entry digest. -/
def brDigest (g : Nat) : Fld := brF g 25 0 32
/-- Lowest member ID. -/
def brCaller (g : Nat) : Fld := brF g 26 0 9

/-- Entry states (R286). -/
def grRetired : Nat := 0
/-- FORMING -/
def grForming : Nat := 1
/-- READY -/
def grReady : Nat := 2
/-- ABORTED -/
def grAborted : Nat := 3
/-- GRAFTING -/
def grGrafting : Nat := 4

/-- The IDs of a bitmap: bit i of byte j is package 8j + i (R286). -/
def bitmapIds (bs : List Byte) : List Nat := (List.range 512).filter (fun i => nbit (u8 bs (i / 8)) (i % 8))

/-- The bitmap of an entry. -/
def State.bitmap (s : State) (g : Nat) : List Byte :=
  (List.range 16).flatMap (fun w => leBytes 4 (s.reg (Reg.COL_BRIDLE g w)).toNat)

/-- The members of a group, ascending. -/
def State.members (s : State) (g : Nat) : List Nat := bitmapIds (s.bitmap g)

/-- The rank of a member (R306). -/
def State.rank (s : State) (g id : Nat) : Nat := ((s.members g).filter (fun m => m < id)).length

/-- Is this package a member? -/
def State.isMember (s : State) (g : Nat) : Bool := (s.members g).contains s.self

/-- Values without repeats. -/
def distinct (l : List Nat) : List Nat := l.foldl (fun a x => if a.contains x then a else a ++ [x]) []

/-- Is a set of IDs a product of three sets of coordinates (R287)? -/
def isBox (ms : List Nat) : Bool :=
  ms.length == [0, 1, 2].foldl (fun n a => n * (distinct (ms.map (coord a))).length) 1

/-- The ring of a package on an axis, in order (R287). -/
def ringOf (ms : List Nat) (id a : Nat) : List Nat :=
  if isBox ms then ms.filter (fun m => [0, 1, 2].all (fun b => b == a || coord b m == coord b id))
  else if a = 0 then ms else [id]

/-- Torus distance of two IDs. -/
def State.distance (s : State) (a b : Nat) : Nat :=
  [0, 1, 2].foldl (fun n k =>
    let d := (coord k a + s.extent k - coord k b) % s.extent k
    n + min d (s.extent k - d)) 0

/-- Set the fields that firmware derives from the members (R286, R287): a package that is no member gets no ring. -/
def State.deriveRings (s : State) (g : Nat) : State :=
  let ms := s.members g
  let me := s.self
  let far := ms.foldl (fun n a => ms.foldl (fun n b => max n (s.distance a b)) n) 0
  let s := ((s.setFld (brBox g) (b2n (isBox ms && !ms.isEmpty))).setFld (brCount g) ms.length).setFld (brDiameter g) far
  let s := (s.setFld (brDigest g) (crc32c (s.bitmap g ++ [BitVec.ofNat 8 (s.fld (brTrace g))])).toNat).setFld (brCaller g)
    (ms.headD 0)
  if !ms.contains me then s
  else [0, 1, 2].foldl (fun s a =>
    let r := ringOf ms me a
    let p := (r.idxOf? me).getD 0
    (((s.setFld (brPos g a) p).setFld (brSize g a) r.length).setFld (brSucc g a) (r.getD ((p + 1) % r.length) me)).setFld
      (brPred g a) (r.getD ((p + r.length - 1) % r.length) me)) s

/-- Replace the bitmap of an entry. -/
def State.setBitmap (s : State) (g : Nat) (bs : List Byte) : State :=
  s.setRegs (Reg.COL_BRIDLE g 0) ((List.range 16).map (fun w => BitVec.ofNat 32 (u32 bs (4 * w))))

/-- Change the state of an entry (R289). -/
def State.setGroupState (s : State) (g st : Nat) : State :=
  if s.fld (brState g) = st then s else (s.setFld (brState g) st).raise F.COL_BRIDLE_EVT.change

/-- The group of a channel, while it is held. -/
def State.vcGroup (s : State) (v : Nat) : Option Nat :=
  if s.bit (F.COL_VC.held v) then some (s.fld (F.COL_VC.group v)) else none

/-- The channel on which a group's traffic runs here, its own or a transit hold (R340). -/
def State.vcOf (s : State) (g : Nat) : Option Nat := (List.range 16).find? (fun v => s.vcGroup v == some g)

/-- The lowest free channel. -/
def State.freeVc (s : State) : Option Nat := (List.range 16).find? (fun v => !s.bit (F.COL_VC.held v))

/-- Release the channel of an entry (R288). -/
def State.releaseVc (s : State) (g : Nat) : State :=
  let s := match s.vcOf g with
    | none => s
    | some v => ((s.lower (F.COL_VC.held v)).lower (F.COL_VC.group v)).setMapBit F.COL_TRANSIT_MAP.transit v false
  (s.lower (brHeld g)).lower (brVc g)

/-- Hold a channel for a group. -/
def State.holdVc (s : State) (g v : Nat) : State :=
  ((s.setFld (F.COL_VC.group v) g).raise (F.COL_VC.held v))

end Sys2Proof.Machine
end

