-- ==== Sys2Proof/Machine/Spares.lean ====
section
/-!
DEFINITION. Spare units (R367-R370): the disabled-unit map and its digest, taking up a prune or its reversal, and the hop codes of routes
whose ends have moved. The boundary at which a prune takes effect is in Machine/Prune.lean.
-/
namespace Sys2Proof.Machine

/-- Not available, as a mask of positions (R367). -/
def State.deadMask (s : State) (d r : Nat) : Nat :=
  (List.range 9).foldl (fun m p => if s.available d r p then m else m + 2 ^ p) 0

/-- The 258 bytes of the disabled-unit map (R369). -/
def State.disabledMap (s : State) : List Byte :=
  (List.range 128).flatMap (fun k => leBytes 2 (s.deadMask (k / 8) (k % 8))) ++ leBytes 2 (s.fld F.DET_FENCE.dies)

/-- Recompute the disabled-map digest (R369). -/
def State.digestMap (s : State) : State := s.setFld F.DET_DMAP_DIGEST.digest (crc32c s.disabledMap).toNat

/-- Show whether a prune is pending and whether a die pauses (R370, R371). -/
def State.showPrunes (s : State) : State :=
  (s.setFld F.DET_STATUS.prune_pending (b2n (!s.spares.jobs.isEmpty || !s.spares.pauses.isEmpty))).setFld F.DET_STATUS.pause
    (b2n (!s.spares.pauses.isEmpty))

/-- Replace the pending jobs. -/
def State.setJobs (s : State) (js : List PruneJob) : State := { s with spares := { s.spares with jobs := js } }.showPrunes

/-- The unit address of a CU position. -/
def cuAddr (d r p : Nat) : Nat := unitAddr d r (cuCols.getD p 0)

/-- Take up a prune or a restore (R370, R373): the pending bit, and firmware's preparation begins. -/
def State.acceptJob (s : State) (j : PruneJob) : State :=
  (s.setJobs (s.spares.jobs ++ [j])).setFld F.DET_PRUNE_STAT.unit (cuAddr j.die j.row j.pos)

/-- Is a prune or restore pending on a die? -/
def State.jobOn (s : State) (d : Nat) : Bool :=
  s.spares.jobs.any (fun j => j.die == d) || (tget (fun _ => none) s.spares.pauses d).isSome

/-! Routes of moved units (R370). The spec says which routes are rewritten and that each keeps its logical destination and queue, not its hop
codes: these are the model's (log 147). -/

/-- Hops in a row: `n` columns to the east, or to the west. -/
def rowHops (n : Int) : List Nat := List.replicate n.natAbs (if 0 ≤ n then 1 else 3)

/-- Hops without those that undo each other. -/
def reduceHops (l : List Nat) : List Nat :=
  l.foldl (fun a h => if a.getLast? == some ((h + 2) % 4) then a.dropLast else a ++ [h]) []

/-- The hops of a route whose source has moved `a` columns to the east and its end `b`, the end in row `row`: it still enters by the same side;
where it would come from the other side of the row, it detours through the row to the south (to the north from row 7) and enters by it. -/
def movedHops (codes : List Nat) (row : Nat) (a b : Int) : List Nat :=
  let base := reduceHops (rowHops (-a) ++ codes)
  if b = 0 then base
  else match codes.getLast? with
  | none => reduceHops (base ++ rowHops b)
  | some h =>
    if h % 2 = 0 then reduceHops (base.dropLast ++ rowHops b) ++ [h]
    else
      let r := reduceHops (base ++ rowHops b)
      let back := (r.reverse.takeWhile (fun x => x == (h + 2) % 4)).length
      let v := if row = 7 then 0 else 2
      if back = 0 then r else r.take (r.length - back) ++ [v] ++ List.replicate back ((h + 2) % 4) ++ [(v + 2) % 4]

/-- The bytes of a route's hop count and hop codes (R164); `steer` keeps its bits. -/
def hopBytes (steer : Nat) (codes : List Nat) : List Byte :=
  BitVec.ofNat 8 (steer + 4 * codes.length) :: (List.range 13).map (fun b =>
    BitVec.ofNat 8 ([0, 1, 2, 3].foldl (fun n i => n + codes.getD (4 * b + i) 0 * 4 ^ i) 0))

/-- A slot of unit `u` with the routes rewritten for units that have moved, `shift` columns to the east. An express track keeps its codes. -/
def rerouted (u : Nat) (shift : Nat → Int) (bs : List Byte) : List Byte :=
  [0, 1, 2, 3].foldl (fun bs k =>
    let o := 0x80 + 16 * k
    let r := readRoute bs o
    let b := if uCol r.dest < 13 then shift r.dest else 0
    if !r.used || (shift u = 0 && b = 0) || (uCol r.dest < 13 && 4 ≤ r.queue) then bs
    else bs.take (o + 2) ++ hopBytes r.steer (movedHops r.codes (uRow r.dest) (shift u) b) ++ bs.drop (o + 16)) bs

/-- How many columns east of its logical column a unit stands (R367). -/
def State.offset (s : State) (u : Nat) : Int := (s.physCol u : Int) - uCol u

end Sys2Proof.Machine
end

