-- ==== Sys2Proof/Machine/Clock.lean ====
section
/-!
DEFINITION. The counters of the time unit: how the crossing counter goes on at a crossing boundary (R34, R35, R42),
its projection to later crossings (R89), and how wall time runs (R48).
-/
namespace Sys2Proof.Machine

/-- The crossing counter with what decides its next value: the orbit length in force, a pending length (R35), and the
slip crossing of a pending resync (R42). -/
structure Counter where
  crossing : Nat
  len : Nat
  pending : Option Nat
  resync : Option Nat
  deriving DecidableEq, Repr

/-- Does the time unit use the marker (R43)? -/
def State.orbitOn (s : State) : Bool := s.bit F.TIM_CTRL.orbit_en && s.fld F.TIM_ORBIT_LEN.len != 1

/-- The counter as it stands. A pending resync acts only while the marker is used and resync_on_orbit is 1 (R42, R43). -/
def State.counter (s : State) : Counter where
  crossing := s.time.crossing
  len := s.fld F.TIM_ORBIT_LEN.len
  pending := s.time.lenPending
  resync := if s.bit F.TIM_CTRL.resync_on_orbit && s.orbitOn then s.time.resync else none

/-- Does the crossing after this one begin an orbit? -/
def Counter.atEnd (c : Counter) : Bool := c.len ≤ c.crossing + 1

/-- The length in force after the next boundary. -/
def Counter.nextLen (c : Counter) : Nat := c.pending.getD c.len

/-- The reload value of a boundary: e mod L' after an off-period marker, else 0 (R42). -/
def Counter.reload (c : Counter) : Nat := match c.resync with
  | none => 0
  | some m => (c.len - m) % c.nextLen

/-- The counter one crossing later. -/
def Counter.next (c : Counter) : Counter :=
  if c.atEnd then ⟨c.reload, c.nextLen, none, none⟩ else { c with crossing := c.crossing + 1 }

/-- The counter `k` crossings after the current one; when the boundary at the end of this crossing has been taken, the
counters already stand for the next crossing. -/
def State.project (s : State) (k : Nat) : Counter :=
  if s.time.boundaryDone then Nat.repeat Counter.next (k - 1) s.counter else Nat.repeat Counter.next k s.counter

/-- Add `n` ticks of TIM_WALL_RATE to the sub-second accumulator; each carry is a second (R48). -/
def State.runWall (s : State) (n : Nat) : State :=
  let acc := s.time.wallAcc + n * s.wide Reg.TIM_WALL_RATE_LO
  { s with time := { s.time with
    wallAcc := acc % 2 ^ 64
    wallSec := (s.time.wallSec + acc / 2 ^ 64) % 2 ^ 48 } }

/-- The upper half of the sub-second accumulator (R48). -/
def State.wallFrac (s : State) : Nat := s.time.wallAcc / 2 ^ 32

end Sys2Proof.Machine
end

