-- ==== Sys2Proof/Machine/Dat.lean ====
section
/-!
DEFINITION. The device address translation unit (R469-R473), the ring port's accesses to host memory (R464), and the
fault log (R474-R476).
-/
namespace Sys2Proof.Machine

/-- A fault of a host access (R471): its code, the level of the walk (0 for XF_DATA), the address that faulted, and
whether the access was a write. -/
structure XFault where
  code : Nat
  level : Nat
  addr : Nat
  write : Bool
  deriving DecidableEq, Repr

/-- The 64-bit table entry at a bus address. -/
def State.tableEntry (s : State) (a : Nat) : Nat := leNat (s.hostRead a 8)

/-- log2 of the page that a leaf of each level maps (R470). -/
def pageShift (level : Nat) : Nat := if level = 1 then 12 else if level = 2 then 21 else 30

/-- One walk (R470): the levels still to go, the table's bus address, the virtual address. The first failing check of
R471 ends it; permissions are checked at the leaf. -/
def State.walk (s : State) (va : Nat) (write : Bool) : List Nat → Nat → Except XFault Cached
  | [], _ => .error ⟨4, 1, va, write⟩
  | level :: rest, table =>
    let a := table + 8 * bits va (12 + 9 * (level - 1)) 9
    if s.hostBad a 8 then .error ⟨5, level, va, write⟩
    else
      let e := s.tableEntry a
      if !nbit e 0 then .error ⟨1, level, va, write⟩
      else if bits e 4 8 != 0 || bits e 52 12 != 0 then .error ⟨4, level, va, write⟩
      else if nbit e 3 then
        let base := bits e 12 40 * 4096
        if level = 4 || base % 2 ^ pageShift level != 0 then .error ⟨4, level, va, write⟩
        else if write && !nbit e 2 then .error ⟨3, level, va, write⟩
        else if !write && !nbit e 1 then .error ⟨2, level, va, write⟩
        else .ok ⟨level - 1, nbit e 1, nbit e 2, va / 2 ^ pageShift level * 2 ^ pageShift level, base⟩
      else if level = 1 then .error ⟨4, level, va, write⟩
      else s.walk va write rest (bits e 12 40 * 4096)

/-- DAT_ROOT: bus address [51:12] of the level-4 table. -/
def State.datRoot (s : State) : Nat := s.wide Reg.DAT_ROOT_LO % 2 ^ 52 / 4096 * 4096

/-- Does a cached translation serve this access? -/
def Cached.serves (c : Cached) (va : Nat) (write : Bool) : Bool :=
  va / 2 ^ pageShift (c.size + 1) * 2 ^ pageShift (c.size + 1) == c.va && (if write then c.write else c.read)

/-- No translation cached. -/
def noCached (_ : Nat) : Option Cached := none

/-- The cached translation that serves an access. -/
def State.lookup (s : State) (va : Nat) (write : Bool) : Option Cached :=
  (s.dma.cache.filterMap (fun e => e.2)).find? (fun c => c.serves va write)

/-- Put a translation into the cache at the entry replaced next. A translation that faulted is never held (R472). -/
def State.cacheFill (s : State) (c : Cached) : State :=
  { s with dma := { s.dma with
    cache := tset noCached s.dma.cache s.dma.nextCache (some c)
    nextCache := (s.dma.nextCache + 1) % 1024 } }

/-- Translate a virtual address for one access (R469, R472). -/
def State.translate (s : State) (va : Nat) (write : Bool) : Except XFault Nat × State :=
  if s.fld F.DAT_CFG.en = 0 then (.ok va, s)
  else match s.lookup va write with
    | some c => (.ok (c.bus + (va - c.va)), s.satInc F.DAT_HIT.count)
    | none =>
      let s := s.satInc F.DAT_MISS.count
      match s.walk va write [4, 3, 2, 1] s.datRoot with
      | .error f => (.error f, s)
      | .ok c => (.ok (c.bus + (va - c.va)), s.cacheFill c)

/-- The pieces of `[a, a + n)` that lie in one 4 KiB page each, as (address, length). -/
def pagePieces : Nat → Nat → Nat → List (Nat × Nat)
  | 0, _, _ => []
  | fuel + 1, a, n =>
    if n = 0 then []
    else
      let k := min n (4096 - a % 4096)
      (a, k) :: pagePieces fuel (a + k) (n - k)

/-- The first byte of a piece whose access ends in an error completion. -/
def State.firstBad (s : State) (a n : Nat) : Option Nat := (List.range n).find? (fun i => s.hostBad (a + i) 1)

/-- Read host memory piece by piece until a fault: the bytes read and the fault, if one ended it. -/
def State.readPieces (s : State) (virt : Bool) : List (Nat × Nat) → List Byte × Option XFault × State
  | [] => ([], none, s)
  | (a, n) :: rest =>
    let (r, s) := if virt then s.translate a false else (.ok a, s)
    match r with
    | .error f => ([], some f, s)
    | .ok b =>
      match s.firstBad b n with
      | some i => (s.hostRead b i, some ⟨6, 0, a + i, false⟩, s)
      | none =>
        let (bs, f, s) := s.readPieces virt rest
        (s.hostRead b n ++ bs, f, s)

/-- Read `n` bytes of host memory at a virtual (or bus) address. -/
def State.readHost (s : State) (virt : Bool) (a n : Nat) : List Byte × Option XFault × State :=
  s.readPieces virt (pagePieces (n / 4096 + 2) a n)

/-- Write host memory piece by piece until a fault: how many bytes were written, and the fault. -/
def State.writePieces (s : State) (virt : Bool) : List (Nat × Nat) → List Byte → Nat × Option XFault × State
  | [], _ => (0, none, s)
  | (a, n) :: rest, bs =>
    let (r, s) := if virt then s.translate a true else (.ok a, s)
    match r with
    | .error f => (0, some f, s)
    | .ok b =>
      match s.firstBad b n with
      | some i => (i, some ⟨6, 0, a + i, true⟩, s.hostWrite b (bs.take i))
      | none =>
        let (m, f, s) := (s.hostWrite b (bs.take n)).writePieces virt rest (bs.drop n)
        (n + m, f, s)

/-- Write bytes to host memory at a virtual (or bus) address. -/
def State.writeHost (s : State) (virt : Bool) (a : Nat) (bs : List Byte) : Nat × Option XFault × State :=
  s.writePieces virt (pagePieces (bs.length / 4096 + 2) a bs.length) bs

/-- Who faulted, for a fault record (R475). -/
structure FaultSite where
  engine : Nat
  queue : Nat
  op : Nat
  seq : Nat
  preempt : Bool := false
  descIdx : Nat := 0
  pe : Nat := 0
  done : Nat := 0
  total : Nat := 0
  deriving DecidableEq, Repr

/-- The words of a fault record (R475). -/
def State.faultWords (s : State) (x : FaultSite) (f : XFault) : List Word :=
  [ packWord [(x.engine, 0), (f.code, 4), (x.queue, 8), (x.op, 12), (f.level, 20), (b2n f.write, 24),
      (b2n x.preempt, 25)],
    packWord [(x.seq, 0), (x.descIdx, 16), (x.pe, 24)] ] ++ loHi (f.addr % 2 ^ 48) ++
  [ BitVec.ofNat 32 x.done, BitVec.ofNat 32 x.total, BitVec.ofNat 32 s.time.spool,
    BitVec.ofNat 32 (s.fld F.DMA_FAULT_HEAD.head) ]

/-- Write a fault record: source 160 if it was written, source 161 if the log was full (R474, R476). -/
def State.recordFault (s : State) (ws : List Word) : State :=
  let (ok, s) := s.logWrite F.DMA_FAULT_HEAD.head F.DMA_FAULT_TAIL.tail (Reg.DMA_FAULT_LOG 0 0) 0x20 64 ws
  if ok then s.raise F.DMA_EVT.fault else (s.satInc F.DMA_FAULT_STAT.overflow).raise F.DMA_EVT.overflow

/-- The ring port sends an MSI-X message: its address is translated (R464); a fault is recorded and the message is lost (log 66). -/
def State.postMsix (s : State) (m : Nat × Word) : State :=
  let (r, t) := s.translate m.1 true
  match r with
  | .ok b => { t with msix := { t.msix with sent := (b, m.2) :: t.msix.sent } }
  | .error f => t.recordFault (t.faultWords { engine := 0xF, queue := 0, op := 0, seq := 0 } f)

/-- The messages that wait go to the host in the order in which the controller gave them. -/
def State.postAllMsix (s : State) : State :=
  s.msix.due.reverse.foldl State.postMsix { s with msix := { s.msix with due := [] } }

end Sys2Proof.Machine
end

