-- ==== Sys2Proof/Machine/Operands.lean ====
section
/-!
DEFINITION. The operands of host commands: the status codes (R463), the class and length of every opcode (the opcode
summary of chapter 16, R441), the fields of parameter words, and the reserved bits that fail step 8 (R438).
-/
namespace Sys2Proof.Machine

/-! Status codes (R463) -/
/-- completed as specified -/
def stOk : Nat := 0x00
/-- pending; a final completion follows -/
def stAccepted : Nat := 0x01
/-- re-submission of a command in flight -/
def stDuplicate : Nat := 0x02
/-- opcode undefined -/
def stBadOpcode : Nat := 0x10
/-- length or size out of range -/
def stLength : Nat := 0x11
/-- field invalid -/
def stParam : Nat := 0x12
/-- state does not permit the command -/
def stState : Nat := 0x13
/-- sequence reused with different content -/
def stSeqConflict : Nat := 0x14
/-- resource held -/
def stBusy : Nat := 0x15
/-- translation fault -/
def stFaultXlat : Nat := 0x20
/-- cancelled at a chunk boundary -/
def stPreempted : Nat := 0x21
/-- cancelled -/
def stAborted : Nat := 0x22
/-- hold-up energy insufficient -/
def stBallastLow : Nat := 0x30
/-- flash verification failed -/
def stStoreFail : Nat := 0x31
/-- image digest mismatch -/
def stImageDigest : Nat := 0x40
/-- image does not fit -/
def stImageFit : Nat := 0x41
/-- firmware too old -/
def stFwTooOld : Nat := 0x42
/-- roll call found a disagreement -/
def stGroupMismatch : Nat := 0x50
/-- roll call incomplete in time -/
def stGroupTimeout : Nat := 0x51
/-- no graft variant -/
def stNoGraft : Nat := 0x52
/-- survey unstable -/
def stSurveyUnstable : Nat := 0x53
/-- module-bus transaction failed -/
def stModuleBus : Nat := 0x60
/-- internal inconsistency in firmware -/
def stInternal : Nat := 0x7F

/-! Opcodes -/

/-- The parameter lengths that an opcode takes: one length, or 2 + 2n for n = 1 to a bound. -/
inductive LenRule where
  | exact (n : Nat)
  | pairs (max : Nat)
  deriving DecidableEq, Repr

/-- Does a length follow the rule? -/
def LenRule.ok : LenRule → Nat → Bool
  | .exact n, l => l == n
  | .pairs m, l => l % 2 == 0 && 4 ≤ l && l ≤ 2 + 2 * m

/-- Class and length of a defined opcode (the opcode summary). WRITE_CONTROL is brief when its crossing is 0. -/
def opInfo (op : Nat) (w0 w1 : Nat) : Option (Cls × LenRule) :=
  match op with
  | 0x01 => some (.brief, .exact 0)
  | 0x02 => some (.chunked, .exact 5)
  | 0x03 => some (if w0 = 0 ∧ w1 = 0 then .brief else .waiting, .pairs 64)
  | 0x08 => some (.chunked, .exact 3)
  | 0x09 => some (.waiting, .exact 1)
  | 0x0A => some (.waiting, .exact 3)
  | 0x0B => some (.chunked, .exact 1)
  | 0x10 => some (.brief, .exact 0)
  | 0x11 => some (.brief, .exact 0)
  | 0x12 => some (.waiting, .exact 2)
  | 0x13 => some (.waiting, .exact 6)
  | 0x18 => some (.waiting, .exact 0)
  | 0x19 => some (.waiting, .exact 3)
  | 0x1A => some (.waiting, .exact 3)
  | 0x1B => some (.brief, .exact 1)
  | 0x20 => some (.waiting, .exact 1)
  | 0x21 => some (.waiting, .exact 1)
  | 0x28 => some (.brief, .exact 3)
  | 0x29 => some (.chunked, .exact 5)
  | 0x30 => some (.waiting, .pairs 8191)
  | 0x31 => some (.chunked, .exact 4)
  | 0x38 => some (.waiting, .exact 3)
  | 0x39 => some (.waiting, .exact 2)
  | 0x40 => some (.waiting, .exact 4)
  | 0x41 => some (.waiting, .exact 1)
  | 0x48 => some (.brief, .exact 3)
  | 0x50 => some (.brief, .exact 1)
  | 0x58 => some (.brief, .exact 3)
  | 0x60 => some (.waiting, .exact 9)
  | 0x68 => some (.brief, .exact 1)
  | _ => none

/-- Parameter word `i`. -/
def Cmd.w (c : Cmd) (i : Nat) : Nat := (c.words.getD i 0).toNat

/-- Parameter words `i` and `i + 1` as one value, low word first (R438). -/
def Cmd.w64 (c : Cmd) (i : Nat) : Nat := c.w i + 2 ^ 32 * c.w (i + 1)

/-- Have the words only bits of the masks set (R438)? -/
def Cmd.only (c : Cmd) (masks : List Nat) : Bool :=
  (c.words.zip masks).all (fun p => p.1.toNat &&& p.2 == p.1.toNat)

/-- Every bit may be set. -/
def full : Nat := 0xFFFFFFFF

/-- Is `[a, a + n)` a range of 48-bit host addresses (R467)? -/
def hostRange (a n : Nat) : Bool := a < 2 ^ 48 && a + n ≤ 2 ^ 48

/-- The lifecycle states of a list of codes. -/
def State.lifeIn (s : State) (l : List Nat) : Bool := l.contains s.life

/-- Any state but BOOT. -/
def notBoot : List Nat := [2, 3, 4, 5, 6, 7, 15]
/-- All eight states. -/
def anyLife : List Nat := 1 :: notBoot

end Sys2Proof.Machine
end

