-- ==== Sys2Proof/Machine/Queue.lean ====
section
/-!
DEFINITION. The command rings and the command engine (R412-R424, R434): completions, the in-flight table, starting a
command, engines of chunked commands, and the checks that every opcode shares (R417, R438, R439).
-/
namespace Sys2Proof.Machine

/-! The table of commands in flight (R429) -/

/-- A free slot. -/
def noCmd (_ : Nat) : Option Cmd := none

/-- The commands in flight, by slot. -/
def State.cmds (s : State) : List Cmd := s.hub.table.filterMap (fun e => e.2)

/-- The command with number `id`. -/
def State.cmd (s : State) (id : Nat) : Option Cmd := s.cmds.find? (fun c => c.id == id)

/-- The slot of the command with number `id`. -/
def State.slotOf (s : State) (id : Nat) : Option Nat :=
  (s.hub.table.find? (fun e => e.2.elim false (fun c => c.id == id))).map (fun e => e.1)

/-- Replace a command in flight. -/
def State.setCmd (s : State) (c : Cmd) : State :=
  match s.slotOf c.id with
  | none => s
  | some k => { s with hub := { s.hub with table := tset noCmd s.hub.table k (some c) } }

/-- Remove a command from the table. -/
def State.dropCmd (s : State) (id : Nat) : State :=
  match s.slotOf id with
  | none => s
  | some k => { s with hub := { s.hub with table := tset noCmd s.hub.table k none } }

/-- The lowest free slot of the 64. -/
def State.freeSlot (s : State) : Option Nat :=
  (List.range 64).find? (fun k => (tget noCmd s.hub.table k).isNone)

/-- The commands in flight on a queue, oldest first. -/
def State.queueCmds (s : State) (q : Nat) : List Cmd :=
  sortBy (fun a b => a.id ≤ b.id) (s.cmds.filter (fun c => c.queue == q))

/-- CQ entries reserved on a queue (R416). -/
def State.reserved (s : State) (q : Nat) : Nat := (s.queueCmds q).foldl (fun n c => n + c.resv) 0

/-- Is the queue not yet disabled (R424)? A held completion counts as posted (R434). -/
def State.queueRunning (s : State) (q : Nat) : Bool := s.bit (F.HUB_QP_CFG.en q) || !(s.queueCmds q).isEmpty

/-- Ring depth: N - 1 of 0 acts as 1 (R412). -/
def State.depth (s : State) (q : Nat) : Nat := max 1 (s.fld (F.HUB_QP_CFG.depth_m1 q)) + 1

/-! Completions -/

/-- The 32 bytes of a completion entry (R414). -/
def Completion.bytes (c : Completion) (phase : Nat) : List Byte :=
  leBytes 2 c.seq ++ leBytes 1 c.op ++ leBytes 1 c.status ++ leBytes 1 c.queue ++ leBytes 1 (c.flags + phase) ++
    leBytes 2 c.sqHead ++ padTo 24 (wordBytes (c.words.take 6))

/-- A ring access of queue `q` faulted: the queue halts, with a fault record (R434, R476). -/
def State.ringFault (s : State) (q op seq : Nat) (f : XFault) : State :=
  ((s.recordFault (s.faultWords { engine := 0xF, queue := q, op := op, seq := seq } f)).raise
    (F.HUB_QP_STAT.halted q)).raise (F.HUB_QP_STAT.ring_fault q)

/-- Write a completion at the CQ tail and advance it; the phase turns over at the wrap (R414). A notifying completion
pulses its source (R411). -/
def State.writeCompletion (s : State) (c : Completion) (notify : Bool) : State :=
  let q := c.queue
  let tail := s.fld (F.HUB_QP_CQ.tail q)
  let ph := s.fld (F.HUB_QP_CQ.phase q)
  let (_, f, s) := s.writeHost (!s.bit (F.HUB_QP_CFG.phys q)) (s.wide (Reg.HUB_QP_CQ_BASE_LO q) + 32 * tail) (c.bytes ph)
  match f with
  | some x => (s.ringFault q c.op c.seq x).setQueue q
      { s.queue q with held := (s.queue q).held ++ [(c, notify)] }
  | none =>
    let next := (tail + 1) % s.depth q
    let s := (s.setFld (F.HUB_QP_CQ.tail q) next).setFld (F.HUB_QP_CQ.phase q) (if next = 0 then 1 - ph else ph)
    let s := s.setQueue q { s.queue q with used := (s.queue q).used + 1 }
    let sel := s.fld (F.HUB_QP_CFG.int_sel q)
    s.when ((notify || s.bit (F.HUB_QP_CFG.notify_all q)) && nbit (s.fld F.HUB_INT_EN.en) sel) (fun s => s.pulse (1 + sel))

/-- Post a completion: written, or held while its queue is halted (R434). -/
def State.post (s : State) (c : Completion) (notify : Bool) : State :=
  if s.bit (F.HUB_QP_STAT.halted c.queue) then
    s.setQueue c.queue { s.queue c.queue with held := (s.queue c.queue).held ++ [(c, notify)] }
  else s.writeCompletion c notify

/-- The completion of a command: flags bit 1 DUPLICATE, bit 2 FINAL. -/
def Cmd.completion (c : Cmd) (status flags : Nat) (words : List Word) : Completion :=
  ⟨c.seq, c.op, status, c.queue, flags, c.sqHead, words⟩

/-- Is there a started engine in this mode? -/
def State.engineIn (s : State) (m : EngineMode) : List Nat := (List.range 8).filter (fun e => (s.engine e).mode == m)

/-- The priority of a queue (R422). -/
def State.prio (s : State) (q : Nat) : Nat := s.fld (F.HUB_QP_CFG.prio q)

/-- May a queue start its next command (R421)? It may when the one before has posted FINAL or ST_ACCEPTED. -/
def State.nextOf (s : State) (q : Nat) : Option Cmd :=
  match (s.queueCmds q).filter (fun c => c.stage != .accepted) with
  | [] => none
  | c :: _ => if c.stage == .fetched then some c else none

/-- The command that is ready on a queue: a chunked one that found no idle engine is ready again when one is (R480). -/
def State.readyOf (s : State) (q : Nat) : Option Cmd :=
  (s.nextOf q).filter (fun c => !(c.waited && (s.engineIn .idle).isEmpty))

/-- Is a command ready on a queue of priority above `p` (R422)? -/
def State.readyAbove (s : State) (p : Nat) : Bool :=
  (List.range 16).any (fun q => (s.readyOf q).isSome && p < s.prio q)

/-- How far in the round of its priority queue `q` comes after the queue served last (R422). -/
def State.turnOf (s : State) (q : Nat) : Nat := (q + 15 - s.hub.served.getD (s.prio q) 15) % 16

/-- Is it queue `q`'s turn among the queues of its priority with a ready command (R422)? -/
def State.inTurn (s : State) (q : Nat) : Bool :=
  (List.range 16).all (fun k => (s.readyOf k).isNone || s.prio k != s.prio q || decide (s.turnOf q ≤ s.turnOf k))

/-- Is the engine at a chunk boundary (R468, R479), or waiting for something else than data to move? -/
def Engine.between (g : Engine) : Bool := g.dataWait || (g.done % 4096 == 0 && g.waitTag.isNone)

/-- Does a running engine keep a command of priority `p` from starting: its own priority is no lower, or it is inside a chunk (R422, R479)? -/
def State.engineBars (s : State) (p : Nat) : Bool :=
  (s.engineIn .running).any (fun e => p ≤ s.prio (s.engine e).queue || !(s.engine e).between)

/-- Does a ready command pre-empt an engine that runs at priority `p` (R422)? A brief command never does (R479). After a
DMA_RESUME two engines may run at once: the command of the other counts as ready (worked example of chapter 17). -/
def State.outranks (s : State) (p : Nat) : Bool :=
  (List.range 16).any (fun q => (s.readyOf q).any (fun c => c.cls != .brief) && p < s.prio q) ||
    (s.engineIn .running ++ s.engineIn .preempted).any (fun e => !(s.engine e).dataWait && p < s.prio (s.engine e).queue)

/-- At a point where the command engine is free: the pre-empted engine of the highest priority goes on, if no ready
command outranks it (R422, R465). -/
def State.resume (s : State) : State :=
  if !(s.engineIn .running).isEmpty then s
  else
    let best := (s.engineIn .preempted).foldl (fun b e => match b with
      | none => some e
      | some x => if s.prio (s.engine x).queue < s.prio (s.engine e).queue then some e else some x) (none : Option Nat)
    match best with
    | none => s
    | some e =>
      if s.readyAbove (s.prio (s.engine e).queue) then s
      else
        let s := s.setEngine e { s.engine e with mode := .running }
        match s.cmd (s.engine e).cmd with
        | none => s
        | some c => s.setCmd { c with stage := .running }

/-- Release the engine of a command (R464): it is idle with nothing loaded, its last fault record stands. -/
def State.releaseEngine (s : State) (id : Nat) : State :=
  match (List.range 8).find? (fun e => (s.engine e).mode != .idle && (s.engine e).cmd == id) with
  | none => s
  | some e => s.setEngine e { fault := (s.engine e).fault }

/-- Post the FINAL completion of a command: it leaves the table, its completion enters the store of the last 64, its
engine is released (R414, R416, R420, R464). HUB_IMG_STAT keeps the status of the last LOAD_IMAGE. -/
def State.finish (s : State) (id status : Nat) (words : List Word) : State :=
  match s.cmd id with
  | none => s
  | some c =>
    let comp := c.completion status 4 words
    let s := (s.releaseEngine id).dropCmd id
    let s := s.when (c.op == 0x08) (fun s => s.setFld F.HUB_IMG_STAT.load_status status)
    let ph := if s.bit (F.HUB_QP_STAT.halted c.queue) then 1 else s.fld (F.HUB_QP_CQ.phase c.queue)
    let s := s.post comp c.notify
    let s := s.setQueue c.queue { s.queue c.queue with store := (⟨comp, c.digest, ph⟩ :: (s.queue c.queue).store).take 64 }
    s.resume

/-- Post ST_ACCEPTED: the queue may go on, FINAL follows (R414, R421, R440). -/
def State.accept (s : State) (id : Nat) (words : List Word) : State :=
  match s.cmd id with
  | none => s
  | some c =>
    let s := s.post (c.completion stAccepted 0 words) c.notify
    (s.setCmd { c with stage := .accepted, resv := 1 }).resume

/-- Set the stage of a command. -/
def State.stage (s : State) (id : Nat) (st : Stage) : State :=
  match s.cmd id with
  | none => s
  | some c => s.setCmd { c with stage := st }

/-- A command that waits on a device event does not hold the engine (R421). -/
def State.wait (s : State) (id : Nat) : State := (s.stage id .waiting).resume

/-! Starting a command -/

/-- Pre-empt the engines that run below priority `p`, at a chunk boundary (R422, R465). -/
def State.preemptBelow (s : State) (p : Nat) : State :=
  (s.engineIn .running).foldl (fun s e =>
    if s.prio (s.engine e).queue < p then
      (s.setEngine e { s.engine e with mode := .preempted }).stage (s.engine e).cmd .preempted
    else s) s

/-- The command that an opcode's row starts on queue `q`: the ready one of the queue, with that opcode, in the turn of its priority, while
no engine bars it, no brief command holds the command engine and no command of a higher priority is ready (R421, R422). -/
def State.startable (s : State) (op q : Nat) : Option Cmd :=
  if s.readyAbove (s.prio q) || s.cmds.any (fun c => c.cls == .brief && c.stage == .running) || s.engineBars (s.prio q) || !s.inTurn q then none
  else (s.readyOf q).filter (fun c => c.op == op)

/-- Does the ROM, which serves the rings when no slot is well formed, run this command (R513)? -/
def romRuns (c : Cmd) : Bool :=
  c.op == 0x01 || c.op == 0x48 || ((c.op == 0x40 || c.op == 0x41) && c.sub < 2)

/-- Queue `q` is the one of its priority that was served last (R422). -/
def State.serve (s : State) (q : Nat) : State := { s with hub := { s.hub with served := s.hub.served.set (s.prio q) q } }

/-- A command of queue `q` begins: it pre-empts what runs below its priority, unless it is brief (R422, R479). -/
def State.begun (s : State) (q : Nat) (c : Cmd) : State :=
  ((s.serve q).when (c.cls != .brief) (fun s => s.preemptBelow (s.prio q))).stage c.id .running

/-- The command as step 8 sees it: a reserved bit of its entry that is set fails as a sub-op that no opcode defines does (R413, R438). -/
def Cmd.checked (c : Cmd) : Cmd := if c.reserved then { c with sub := 16 } else c

/-- Start the command of an opcode's row: step 7 of R417 against `lives` (R441), then `body`, which does step 8 and what
follows. A command that finds an internal inconsistency ends there with its code (R442, log 157). With no such command ready the row
changes nothing (log 8). -/
def State.command (s : State) (op q : Nat) (lives : Cmd → List Nat) (body : Cmd → State → State) : State :=
  match s.startable op q with
  | none => s
  | some c =>
    let s := s.begun q c
    if !s.lifeIn (lives c) || (s.power.rom && !romRuns c) then s.finish c.id stState [7]
    else match c.internal with
      | some code => s.finish c.id stInternal [code]
      | none => body c.checked s

/-- Load the descriptors of a chunked command into the lowest idle engine, or leave the command at stage 1 with the
wait counted when all eight are held (R464, R480). A length of 0 starts no engine (R467). -/
def State.startEngine (s : State) (c : Cmd) (descs : List Desc) : State :=
  if descs.all (fun d => d.len == 0) then s.finish c.id stLength []
  else match (s.engineIn .idle).head? with
    | none =>
      let s := s.when (!c.waited) (fun s => (s.satInc F.DMA_WAIT_COUNT.count).raise F.DMA_EVT.wait)
      (s.setCmd { c with stage := .fetched, waited := true }).resume
    | some e =>
      let ds := descs.filter (fun d => d.len != 0)
      let g : Engine := { descs := ds, seq := c.seq, queue := c.queue, op := c.op, cmd := c.id }
      (s.setEngine e { g with mode := .running, fault := (s.engine e).fault }).stage c.id .running

end Sys2Proof.Machine
end

