-- ==== Sys2Proof/Machine/Effects.lean ====
section
/-!
DEFINITION. Effects named for a crossing (R458, R619): keeping them in order of acceptance, finding the next one that
is due, and what the loads of the spool count do to them.
-/
namespace Sys2Proof.Machine

/-- Keep an effect: it waits behind those accepted before it. -/
def State.addEffect (s : State) (e : Effect) : State := { s with effects := s.effects ++ [e] }

/-- The spool count at the next tick; after a relock that is tick 0 of the next crossing (R32). -/
def State.nextTick (s : State) : Nat := if s.time.relock then wrap64 (32 * (s.xindex + 1)) else wrap64 (s.time.spool + 1)

/-- Is an effect due? Its crossing begins with the next tick, or has begun. -/
def State.due (s : State) (e : Effect) : Bool := 32 * e.crossing ≤ s.nextTick

/-- Take out the first element that satisfies `p`. -/
def takeFirst {α : Type} (p : α → Bool) : List α → Option (α × List α)
  | [] => none
  | x :: xs => if p x then some (x, xs) else (takeFirst p xs).map (fun r => (r.1, x :: r.2))

/-- The first due effect of a kind, and the state without it. -/
def State.takeDue (s : State) (p : EffectKind → Bool) : Option (Effect × State) :=
  (takeFirst (fun e => p e.kind && s.due e) s.effects).map (fun r => (r.1, { s with effects := r.2 }))

/-- Remove the effects of a command. -/
def State.dropEffects (s : State) (id : Nat) : State :=
  { s with effects := s.effects.filter (fun e => e.cmd != id) }

/-- Is any effect of a kind pending? -/
def State.hasEffect (s : State) (p : EffectKind → Bool) : Bool := s.effects.any (fun e => p e.kind)

/-- Is it a DRAIN? -/
def isDrain : EffectKind → Bool
  | .drain _ => true
  | _ => false

/-- Is it a START_LIVE? -/
def EffectKind.isStart : EffectKind → Bool
  | .startLive => true
  | _ => false

/-- Is it a SELECT_MENU? -/
def isSelectMenu : EffectKind → Bool
  | .selectMenu _ => true
  | _ => false

/-- Is the effect one of those that a load of the spool count checks (R619)? -/
def EffectKind.named : EffectKind → Bool
  | .setScales _ => true
  | .writeControl _ => true
  | .selectMenu _ => true
  | .drain named => named
  | _ => false

/-- Effects named for the next boundary rather than for a count keep naming it: it begins crossing index `x`. -/
def State.followCount (s : State) (x : Nat) : State :=
  { s with effects := s.effects.map (fun e => match e.kind with
    | .qstats .. => { e with crossing := x }
    | .disarm => { e with crossing := x }
    | _ => e) }

end Sys2Proof.Machine
end

