-- ==== Sys2Proof/Machine/Riddle.lean ====
section
/-!
DEFINITION. The riddle (chapter 04): field extraction, conversion, error accounting, tracking scales, and the commands
and registers of channels. Emission into the trellis is in Machine/Present.lean.
-/
namespace Sys2Proof.Machine

/-! Exact arithmetic -/

/-- The quotient n / d rounded to the nearest integer, ties to even (R110). -/
def roundHalfEven (n : Int) (d : Nat) : Int :=
  let q := n.fdiv d
  let r := n - q * d
  if 2 * r < d then q else if (d : Int) < 2 * r then q + 1 else if q % 2 = 0 then q else q + 1

/-- A scale m * 2^e (R109). -/
structure Scale where
  m : Nat
  e : Int
  zp : Int
  deriving DecidableEq, Repr

/-- The scale that a word in the RDL_CH_SCALE0 layout holds. -/
def scaleOf (w : Word) : Scale := ⟨bits w.toNat 0 10, signed 6 (bits w.toNat 10 6), signed 16 (bits w.toNat 16 16)⟩

/-- x / (m * 2^e), rounded (R110). -/
def quantise (x : Int) (c : Scale) : Int :=
  if 0 ≤ c.e then roundHalfEven x (c.m * 2 ^ c.e.toNat) else roundHalfEven (x * 2 ^ (-c.e).toNat) c.m

/-- The square of x - (q - zp) * s, rounded half to even (R116). -/
def squaredError (x q : Int) (c : Scale) : Nat :=
  if 0 ≤ c.e then
    let d := x - (q - c.zp) * (c.m * 2 ^ c.e.toNat : Nat)
    (d * d).toNat
  else
    let k := (-c.e).toNat
    let d := x * 2 ^ k - (q - c.zp) * c.m
    (roundHalfEven (d * d) (2 ^ (2 * k))).toNat

/-- The width of a format (R110). -/
def fmtWidth (f : Nat) : Nat := if f = 0 then 4 else if f = 1 then 8 else 16

/-! Channels -/

/-- Does a field of this source and extent fit a lane of this mode (R107)? -/
def fieldFits (header raw : Bool) (off width : Nat) : Bool :=
  off + width ≤ (if header then 27 else if raw then 672 else 640)

/-- The bits of a channel's source: payload, or the header word (R105). -/
def LaneData.source32 (f : LaneData) (header : Bool) : Nat :=
  if header then f.xingLo % 4096 + (f.plen % 128) * 2 ^ 12 + (f.feFlags % 256) * 2 ^ 19 else leNat f.payload

/-- The raw value of a channel (R106). -/
def State.rawValue (s : State) (ch : Nat) (f : LaneData) : Int :=
  let w := s.fld (F.RDL_CH_FIELD.width_m1 ch) + 1
  let v := bits (f.source32 (s.bit (F.RDL_CH_FIELD.src ch))) (s.fld (F.RDL_CH_FIELD.bit_off ch)) w
  if s.bit (F.RDL_CH_FIELD.signed ch) then signed w v else v

/-- The scale word of a channel's set (R113). -/
def State.scaleWord (s : State) (ch set : Nat) : Word :=
  s.reg (if set = 0 then Reg.RDL_CH_SCALE0 ch else Reg.RDL_CH_SCALE1 ch)

/-- Replace the scale word of a channel's set. -/
def State.setScaleWord (s : State) (ch set : Nat) (w : Word) : State :=
  s.setReg (if set = 0 then Reg.RDL_CH_SCALE0 ch else Reg.RDL_CH_SCALE1 ch) w

/-- Limit a value to a channel's format (R110): the output, and whether saturation limited it. -/
def limitTo (fmt : Nat) (sat : Bool) (v : Int) : Int × Bool :=
  let w := fmtWidth fmt
  let hi : Int := 2 ^ (w - 1) - 1
  let lo : Int := -(2 ^ (w - 1))
  if sat then (if v < lo then lo else if hi < v then hi else v, v < lo || hi < v) else (signed w (unsigned w v), false)

/-- The fill value of a channel (R111). -/
def State.fillValue (s : State) (ch : Nat) : Int :=
  signed (fmtWidth (s.fld (F.RDL_CH_FIELD.fmt ch))) (s.fld (F.RDL_CH_FILL.fill ch))

/-- The error sum of a channel (R116). -/
def State.mseSum (s : State) (ch : Nat) : Nat :=
  s.fld (F.RDL_CH_MSE_LO.sum ch) + 2 ^ 32 * s.fld (F.RDL_CH_MSE_HI.sum ch)

/-- Add a sample's squared error, unless the sum or the count would pass its end: then the channel stops (R117). -/
def State.addError (s : State) (ch d2 : Nat) : State :=
  if s.bit (F.RDL_CH_MSE_HI.sat ch) then s
  else
    let n := s.mseSum ch + d2
    let k := s.fld (F.RDL_CH_CNT.count ch) + 1
    if 2 ^ 48 ≤ n || 2 ^ 32 ≤ k then (s.raise (F.RDL_CH_MSE_HI.sat ch)).raise F.RDL_STATUS.mse_sat_seen
    else ((s.setFld (F.RDL_CH_MSE_LO.sum ch) n).setFld (F.RDL_CH_MSE_HI.sum ch) (n / 2 ^ 32)).setFld
      (F.RDL_CH_CNT.count ch) k

/-- Keep the largest magnitude of a tracking channel (R121). -/
def State.track (s : State) (ch : Nat) (x : Int) : State :=
  if s.fld (F.RDL_CH_FIELD.track ch) = 0 then s
  else s.setFld (F.RDL_CH_TMAX.max ch) (max (s.fld (F.RDL_CH_TMAX.max ch)) x.natAbs)

/-- Convert one sample with scale word `w` (R110, R113); with `account`, error accounting and tracking take it too (R116, R118, R121). -/
def State.convert (s : State) (ch : Nat) (w : Word) (f : LaneData) (account : Bool) : Int × State :=
  let x := s.rawValue ch f
  let c := scaleOf w
  let r := limitTo (s.fld (F.RDL_CH_FIELD.fmt ch)) (s.bit (F.RDL_CH_FIELD.sat ch)) (quantise x c + c.zp)
  let s := s.when r.2 (fun s => s.satInc (F.RDL_CH_STAT.sat_count ch))
  (r.1, s.when account (fun s => (s.addError ch (squaredError x r.1 c)).track ch x))

/-- What a channel delivers for an event, whether its lane must be flagged INPUT_BAD for its geometry (R107), and the
state after it. A disabled channel delivers 0 (R108). The mode is that of INL_LANE_CFG, in REPLAY too (log 133). -/
def State.channel (s : State) (lane ch : Nat) (w : Word) (inp : Input) (account : Bool) : Int × Bool × State :=
  if !s.bit (F.RDL_CH_FIELD.en ch) then (0, false, s)
  else match inp with
    | .missing => (s.fillValue ch, false, s)
    | .bad => (s.fillValue ch, false, s)
    | .frame f =>
      if fieldFits (s.bit (F.RDL_CH_FIELD.src ch)) (s.rawMode lane) (s.fld (F.RDL_CH_FIELD.bit_off ch))
          (s.fld (F.RDL_CH_FIELD.width_m1 ch) + 1) then
        let r := s.convert ch w f account
        (r.1, false, r.2)
      else (s.fillValue ch, true, s.satInc (F.RDL_CH_STAT.geom_err ch))

/-- The 64 channels of a lane, as the token of R112, with the geometry mark. -/
def State.laneToken (s : State) (lane : Nat) (sw : Nat → Word) (inp : Input) (account : Bool) : List Lane16 × Bool × State :=
  (List.range 64).foldl (fun a k =>
    let r := a.2.2.channel lane (64 * lane + k) (sw (64 * lane + k)) inp account
    (a.1 ++ [BitVec.ofInt 16 r.1], a.2.1 || r.2.1, r.2.2)) ([], false, s)

/-! Tracking (R121-R125) -/

/-- m * 2^e scaled by 2^32, so that every scale is an integer. -/
def scaleValue (m : Nat) (e : Int) : Nat := m * 2 ^ (e + 32).toNat

/-- ceil(M * 2^-e / T). -/
def trackM (mx t : Nat) (e : Int) : Nat :=
  if 0 ≤ e then (mx + t * 2 ^ e.toNat - 1) / (t * 2 ^ e.toNat) else (mx * 2 ^ (-e).toNat + t - 1) / t

/-- The scale derived from the maximum and the target, and whether it was clamped (R122). -/
def deriveScale (mx t lo hi : Nat) : (Nat × Int) × Bool :=
  let loS := (bits lo 0 10, signed 6 (bits lo 10 6))
  let hiS := (bits hi 0 10, signed 6 (bits hi 10 6))
  match ((List.range 64).map (fun (i : Nat) => Int.ofNat i - 32)).find? (fun e => trackM mx t e ≤ 1023) with
  | none => (hiS, true)
  | some e =>
    let m := trackM mx t e
    if scaleValue m e < scaleValue loS.1 loS.2 then (loS, true)
    else if scaleValue hiS.1 hiS.2 < scaleValue m e then (hiS, true)
    else ((m, e), false)

/-- The set that tracking maintains, plus 1; 0 when the channel does not track (R121). A disabled channel takes no part (R108). -/
def State.tracking (s : State) (ch : Nat) : Nat :=
  if s.bit (F.RDL_CH_FIELD.en ch) then s.fld (F.RDL_CH_FIELD.track ch) else 0

/-- One channel's derivation at an orbit boundary (R122, R123). -/
def State.deriveChannel (s : State) (ch : Nat) : State :=
  let tr := s.tracking ch
  if tr = 0 then s
  else
    let mx := s.fld (F.RDL_CH_TMAX.max ch)
    let t := s.fld (F.RDL_CH_TRACK.target ch)
    let s := s.lower (F.RDL_CH_TMAX.max ch)
    if mx = 0 || t = 0 then
      ((s.raise (F.RDL_CH_TRACK.held ch)).raise F.RDL_STATUS.hold_seen).satInc F.RDL_HOLD_COUNT.count
    else
      let r := deriveScale mx t (s.fld (F.RDL_CH_LIMIT.scale_min ch)) (s.fld (F.RDL_CH_LIMIT.scale_max ch))
      let w := s.scaleWord ch (tr - 1)
      let s := s.setScaleWord ch (tr - 1) (packWord [(r.1.1, 0), (unsigned 6 r.1.2, 10), (bits w.toNat 16 16, 16)])
      let s := (s.lower (F.RDL_CH_TRACK.held ch)).setFld (F.RDL_CH_TRACK.clamped ch) (b2n r.2)
      s.when r.2 (fun s => (s.raise F.RDL_STATUS.clamp_seen).satInc F.RDL_CLAMP_COUNT.count)

/-- The derivations of every tracking channel. -/
def State.deriveScales (s : State) : State := (List.range 6144).foldl (fun s ch => s.deriveChannel ch) s

/-- Is a channel of these lanes clamped in the set that the tag uses (R124)? -/
def State.scaleClamp (s : State) (tag : Nat) (lanes : List Nat) : Bool :=
  lanes.any (fun n => anyBelow 64 (fun k =>
    let ch := 64 * n + k
    s.tracking ch == s.fld (F.RDL_MENU_SSEL.scale_set tag) + 1 &&
      s.bit (F.RDL_CH_TRACK.clamped ch)))

/-! Registers with rules of their own -/

/-- Ignore a riddle write and set cfg_err. -/
def State.riddleErr (s : State) : State := s.raise F.RDL_STATUS.cfg_err

/-- A write of RDL_CH_FIELD (R107, R110, R114, R121). -/
def State.writeChField (s : State) (ch : Nat) (value : Word) : State :=
  let v := value.toNat
  if s.liveOrDraining || bits v 17 2 == 3 || bits v 20 2 == 3 ||
      (nbit v 31 && !fieldFits (nbit v 16) true (bits v 0 10) (bits v 10 5 + 1)) then s.riddleErr
  else s.setReg (Reg.RDL_CH_FIELD ch) (value &&& 0x803FFFFF)

/-- RDL_CH_FIELD_WRITE -/
def execRdlChFieldWrite (ch : Fin 6144) (value : Word) (s : State) : Res :=
  done (if s.up then s.writeChField ch value else s)

/-- A write of RDL_CH_SCALE0 or RDL_CH_SCALE1 (R109, R114). -/
def State.writeChScale (s : State) (ch set : Nat) (value : Word) : State :=
  if s.liveOrDraining || bits value.toNat 0 10 == 0 then s.riddleErr else s.setScaleWord ch set value

/-- RDL_CH_SCALE_WRITE -/
def execRdlChScaleWrite (ch : Fin 6144) (set : Fin 2) (value : Word) (s : State) : Res :=
  done (if s.up then s.writeChScale ch set value else s)

/-- A write of RDL_CH_LIMIT (R109, R114). -/
def State.writeChLimit (s : State) (ch : Nat) (value : Word) : State :=
  if s.liveOrDraining || bits value.toNat 0 10 == 0 || bits value.toNat 16 10 == 0 then s.riddleErr
  else s.setReg (Reg.RDL_CH_LIMIT ch) value

/-- RDL_CH_LIMIT_WRITE -/
def execRdlChLimitWrite (ch : Fin 6144) (value : Word) (s : State) : Res :=
  done (if s.up then s.writeChLimit ch value else s)

/-! Commands -/

/-- The (channel, set, scale word) entries of SET_SCALES. -/
def scaleEntries : List Word → List (Nat × Nat × Word)
  | a :: b :: rest => (bits a.toNat 0 13, bits a.toNat 16 1, b) :: scaleEntries rest
  | _ => []

/-- Have the first words of the pairs no reserved bit set (R438)? -/
def scalePairsOk : List Word → Bool
  | a :: _ :: rest => (a &&& 0xFFFEE000) == 0 && scalePairsOk rest
  | _ => true

/-- SET_SCALES: checked whole, then it waits for crossing X (R115, R451). -/
def execSetScales (q : Fin 16) (s : State) : Res :=
  done (s.command 0x30 q (fun _ => [lifeLoaded, lifeArmed, lifeLive, lifeDraining]) (fun c s =>
    let es := scaleEntries (c.words.drop 2)
    if c.sub != 0 || !scalePairsOk (c.words.drop 2) || !s.farEnough (c.w64 0) ||
        es.any (fun e => 6143 < e.1 || bits e.2.2.toNat 0 10 == 0) then s.finish c.id stParam []
    else (s.addEffect ⟨c.w64 0, c.id, .setScales es⟩).wait c.id))

/-- Write the entries of a SET_SCALES in order: a later one for the same channel and set stands (R451). -/
def State.applyScales (s : State) (es : List (Nat × Nat × Word)) : State :=
  es.foldl (fun s e => s.setScaleWord e.1 e.2.1 e.2.2) s

/-- A SET_SCALES takes effect and completes with the number of its entries (R115). -/
def State.runScales (s : State) (e : Effect) (es : List (Nat × Nat × Word)) : State :=
  let s := s.applyScales es
  let s : State := if s.fld F.CFM_CAP_STAT.state = 1 || s.fld F.CFM_CAP_STAT.state = 2 then
      { s with capture := { s.capture with named := (es.map (fun e => e.1)).foldl (fun l ch => if l.contains ch then l else l ++ [ch]) s.capture.named } }
    else s
  s.finish e.cmd stOk [BitVec.ofNat 32 es.length]

/-- Is it a SET_SCALES? -/
def isSetScales : EffectKind → Bool
  | .setScales _ => true
  | _ => false

/-- Is the next tick an orbit boundary that has not been taken yet? -/
def State.boundaryWaits (s : State) : Bool := !s.time.boundaryDone && s.counter.atEnd && s.nextTick % 32 == 0

/-- SET_SCALES_APPLY: the first due SET_SCALES takes effect. At an orbit boundary the tracking derivation comes first (R127), so
the effect waits for ORBIT_BOUNDARY. -/
def execSetScalesApply (s : State) : Res :=
  done (if s.boundaryWaits then s else match s.takeDue isSetScales with
  | some (e, s) => match e.kind with
    | .setScales es => s.runScales e es
    | _ => s
  | none => s)

/-- READ_QSTATS: checked, an engine taken, then it waits for the next crossing boundary (R119, R464). -/
def execReadQstats (q : Fin 16) (s : State) : Res :=
  done (s.command 0x31 q (fun _ => [lifeLoaded, lifeArmed, lifeLive, lifeDraining, lifeReplay]) (fun c s =>
    let first := c.w 0
    let count := bits (c.w 1) 0 13
    let n := min count (6144 - first)
    if c.sub != 0 || !c.only [0x1FFF, 0x11FFF] || count == 0 || 6144 < count || 6143 < first ||
        !hostRange (c.w64 2) (16 * n) then s.finish c.id stParam []
    else
      let s := s.startEngine c [⟨.buffer, .hostVirtual, 0, 0, c.w64 2, 16 * n⟩]
      match (s.engineIn .running).find? (fun e => (s.engine e).cmd == c.id) with
      | none => s
      | some e => (s.setEngine e { s.engine e with dataWait := true }).addEffect
          ⟨s.xindex + 1, c.id, .qstats first n (nbit (c.w 1) 16) (c.w64 2)⟩))

/-- One channel's record (R119). -/
def State.qstatRecord (s : State) (ch : Nat) : List Byte :=
  leBytes 6 (s.mseSum ch) ++ leBytes 2 ch ++ leBytes 4 (s.fld (F.RDL_CH_CNT.count ch)) ++
    leBytes 2 (s.fld (F.RDL_CH_STAT.sat_count ch)) ++
    leBytes 1 (s.fld (F.RDL_CH_MSE_HI.sat ch) + 2 * s.fld (F.RDL_CH_TRACK.clamped ch) + 4 * s.fld (F.RDL_CH_TRACK.held ch))
    ++ [0]

/-- Zero a channel's sum, count and sat bit (R119). -/
def State.clearMse (s : State) (ch : Nat) : State :=
  ((s.setReg (Reg.RDL_CH_MSE_LO ch) 0).setReg (Reg.RDL_CH_MSE_HI ch) 0).setReg (Reg.RDL_CH_CNT ch) 0

/-- The snapshot of a READ_QSTATS: the records become the data of its engine, with the crossing index kept in the
command (R119). -/
def State.runQstats (s : State) (e : Effect) (first n : Nat) (clear : Bool) : State :=
  let chs := (List.range n).map (fun i => first + i)
  let data := chs.flatMap s.qstatRecord
  let s := s.when clear (fun s => chs.foldl (fun s ch => s.clearMse ch) s)
  match (List.range 8).find? (fun g => (s.engine g).mode != .idle && (s.engine g).cmd == e.cmd) with
  | none => s
  | some g => s.setEngine g { s.engine g with data := data, dataWait := false, mark := e.crossing }

/-- Is it a READ_QSTATS? -/
def isQstats : EffectKind → Bool
  | .qstats .. => true
  | _ => false

/-- READ_QSTATS_SNAPSHOT: at the next crossing boundary the first waiting READ_QSTATS takes its snapshot, after the samples of the
event still presented (R119). -/
def execReadQstatsSnapshot (s : State) : Res :=
  done (if s.presented.isSome then s else match s.takeDue isQstats with
  | some (e, s) => match e.kind with
    | .qstats first n clear _ => s.runQstats e first n clear
    | _ => s
  | none => s)

end Sys2Proof.Machine
end

