-- ==== Sys2Proof/Machine/Stage.lean ====
section
/-!
DEFINITION. The arithmetic of the stages (R138-R140, R160-R163), exact to the bit: what one firing does to the
accumulators, and what an emission passes on.
-/
namespace Sys2Proof.Machine

/-- An integer modulo 2^32, as a signed 32-bit value (R160). -/
def wrap32 (v : Int) : Int := signed 32 (unsigned 32 v)

/-- Is a value outside the signed 32-bit range (R161)? -/
def past32 (v : Int) : Bool := wrap32 v != v

/-- The lanes of a token, sign-extended (R163). -/
def Token.lane (t : Token) (l : Nat) : Lane16 := t.lanes.getD l 0

/-- The 64 values of a token. -/
def Token.vals (t : Token) : List Int := (List.range 64).map (fun l => signed 16 (t.lane l).toNat)

/-- The 64 values of a wide pair, low halves first (R163). -/
def wideVals (lo hi : Token) : List Int :=
  (List.range 64).map (fun l => signed 32 ((lo.lane l).toNat + 65536 * (hi.lane l).toNat))

/-- Bits `[lo, lo + n)` of a 32-bit value, as a signed number. -/
def field (v : Int) (lo n : Nat) : Int := signed n (bits (unsigned 32 v) lo n)

/-- The products of one lane (R139). -/
def macTerm (fmt : Nat) (a w : Int) : Int :=
  if fmt = 0 then field a 0 4 * field w 0 4 + field a 4 4 * field w 4 4
  else if fmt = 1 then field a 0 8 * field w 0 8
  else field a 0 16 * field w 0 16

/-- One ALU operation (R140): the exact value for ADD, SUB and SHL. -/
def aluExact (op : Nat) (a b imm : Int) : Int :=
  let sh := unsigned 32 b % 32
  match op with
  | 0 => a + b
  | 1 => a - b
  | 2 => min a b
  | 3 => max a b
  | 4 => a * 2 ^ sh
  | 5 => a.fdiv (2 ^ sh)
  | 6 => if a = b then 1 else 0
  | 7 => if a < b then 1 else 0
  | 8 => if a ≤ b then 1 else 0
  | _ => if a = 0 then imm else b

/-- Combine a group of lanes (R138, R140). -/
def reduceLanes (op : Nat) (vs : List Int) : Int := match vs with
  | [] => 0
  | v :: rest => rest.foldl (fun a x => if op = 0 then wrap32 (a + x) else if op = 1 then min a x else max a x) v

/-- What a firing leaves in a stage's accumulators, exact, and whether it sets arith_ovf. `k`: the value of lane a[k] that
BCAST takes; `table`: the stage's LUT. -/
def fireStage (st : StageCfg) (acc a b : List Int) (k : Int) (table : Nat → Int) : List Int × Bool :=
  let imm := signed 32 st.imm
  match st.func with
  | 0 => (a, false)
  | 1 => ((List.range 64).map (fun l => acc.getD l 0 + macTerm st.fmt (if st.bcast then k else a.getD l 0) (b.getD l 0)), false)
  | 2 =>
    let vs := (List.range 64).map (fun l => aluExact st.op (a.getD l 0) (b.getD l 0) imm)
    (vs.map wrap32, (st.op == 0 || st.op == 1 || st.op == 4) && vs.any past32)
  | 3 => ((List.range 64).map (fun l => table (min 255 (max 0 (wrap32 (a.getD l 0 + st.lutBias)))).toNat), false)
  | _ =>
    let w := 2 ^ st.seg
    ((List.range 64).map (fun j => if j < 64 / w then reduceLanes st.op ((a.drop (j * w)).take w) else 0), false)

/-- Requantise one lane (R162). -/
def requantLane (st : StageCfg) (m v : Int) : Int :=
  let w := fmtWidth st.outFmt
  let y := roundHalfEven (v * m) (2 ^ st.shift) + st.zp
  max (-(2 ^ (w - 1))) (min (2 ^ (w - 1) - 1) y)

/-- Pack pairs of 4-bit lanes (R163). -/
def packLanes (ys : List Int) : List Int :=
  (List.range 64).map (fun j => if j < 32 then
    ((unsigned 4 (ys.getD (2 * j) 0) + 16 * unsigned 4 (ys.getD (2 * j + 1) 0) : Nat) : Int) else 0)

/-- What an emission passes on from exact accumulators, and whether it sets arith_ovf (R161-R163). `ms`: per-lane M. -/
def emitStage (st : StageCfg) (acc ms : List Int) : List Int × Bool :=
  let full := (List.range 64).map (fun l => acc.getD l 0)
  let vs := full.map wrap32
  let ovf := full.any past32
  if st.requant then
    let ys := (vs.zip (if st.perLane then ms else List.replicate 64 st.m)).map (fun p => requantLane st p.2 p.1)
    (if st.pack4 then packLanes ys else ys, ovf)
  else (vs, ovf)

/-- The lanes of the output tokens of 64 values: the low halves, and with out_wide the high halves after them (R163). -/
def outLanes (wide : Bool) (vs : List Int) : List (List Lane16) :=
  let lo := vs.map (fun v => BitVec.ofNat 16 (unsigned 32 v))
  if wide then [lo, vs.map (fun v => BitVec.ofNat 16 (unsigned 32 v / 65536))] else [lo]

end Sys2Proof.Machine
end

