-- ==== Sys2Proof/Machine/Zones.lean ====
section
/-!
DEFINITION. Landing zones (R302, R309-R313): the zone and buffer of a memory-unit row, its landed and err marks, and the
schedule entries, as the loaded COLSCHED section gives them.
-/
namespace Sys2Proof.Machine

/-- A zone descriptor (R302). -/
structure ZoneCfg where
  unit : Nat
  base : Nat
  rows : Nat
  bufs : Nat
  gen : Nat
  deriving DecidableEq, Repr

/-- Zone `z` as loaded. -/
def State.zoneCfg (s : State) (z : Nat) : ZoneCfg :=
  let a := (s.reg (Reg.COL_ZONE z 0)).toNat
  let b := (s.reg (Reg.COL_ZONE z 1)).toNat
  ⟨bits a 0 11, bits a 16 12, bits b 0 12, bits b 16 2, bits b 18 1⟩

/-- A schedule entry (R302). -/
structure SchedCfg where
  group : Nat
  op : Nat
  feed : Nat
  die : Nat
  gather : Bool
  reduce : Nat
  values : Nat
  es : Nat
  tag : Nat
  zone : Nat
  size : Nat
  packed : Nat
  offset : Nat
  deriving DecidableEq, Repr

/-- Schedule entry `k` as loaded; op 0: no entry. -/
def State.schedCfg (s : State) (k : Nat) : SchedCfg :=
  let a := (s.reg (Reg.COL_SCHED k 0)).toNat
  let b := (s.reg (Reg.COL_SCHED k 1)).toNat
  { group := bits a 0 6, op := bits a 8 3, feed := bits a 16 3, die := bits a 19 1, gather := nbit a 20
    reduce := bits a 21 3, values := bits a 24 3 + 1, es := 2 ^ bits a 28 2, tag := bits b 0 3, zone := bits b 8 6
    size := bits b 16 11, packed := bits (s.reg (Reg.COL_SCHED k 2)).toNat 0 12
    offset := (s.reg (Reg.COL_SCHED k 3)).toNat }

/-- Zone state. -/
def State.zone (s : State) (z : Nat) : LandZone := tget (fun _ => {}) s.coll.zones z

/-- Replace a zone's state and show its marks. -/
def State.setZone (s : State) (z : Nat) (v : LandZone) : State :=
  let s := { s with coll := { s.coll with zones := tset (fun _ => {}) s.coll.zones z v } }
  let n (b : Nat) : Nat := (v.landed.filter (fun e => e.1 == b)).length
  ((((s.setFld (F.COL_LZ_LANDED.buf0 z) (n 0)).setFld (F.COL_LZ_LANDED.buf1 z) (n 1)).setFld (F.COL_LZ_MARK.err0 z)
    (b2n (v.err.any (fun e => e.1 == 0)))).setFld (F.COL_LZ_MARK.err1 z) (b2n (v.err.any (fun e => e.1 == 1))))

/-- Is the unit on a die reserved for SHADOW (R396)? -/
def State.onShadow (s : State) (u : Nat) : Bool := nbit (s.fld F.CFM_SHD_CFG.dies) (uDie u)

/-- The addresses between a unit and its mirror: Δ die-rows of four dies (R397). -/
def State.mirrorStep (s : State) : Nat := 512 * s.fld F.CFM_SHD_CFG.delta

/-- The unit that a unit on a shadow die mirrors; any other is its own (R397). -/
def State.homeOf (s : State) (u : Nat) : Nat := if s.onShadow u then u - s.mirrorStep else u

/-- The err mark of a row that the running shadow entry brings; a row of an aborted instance that it does not bring is marked
(R398). -/
def State.shadowRow (s : State) (z r : Nat) : Option Bool := match s.shadow.run with
  | none => none
  | some x => match x.rows.find? (fun e => e.1 == z && e.2.1 == r) with
    | some e => some e.2.2.2
    | none => if x.aborted.any (fun k => (s.schedCfg k).zone == z) then some true else none

/-- The zone that holds a row of a memory unit: zone, buffer, row in the buffer. -/
def State.zoneAt (s : State) (u row : Nat) : Option (Nat × Nat × Nat) :=
  ((List.range 64).find? (fun z =>
    let c := s.zoneCfg z
    c.rows != 0 && c.unit == s.homeOf u && c.base ≤ row && row < c.base + c.rows * c.bufs)).map (fun z =>
      let c := s.zoneCfg z
      (z, (row - c.base) / c.rows, (row - c.base) % c.rows))

/-- Has the row landed? A row in no zone waits for nothing. -/
def State.rowLanded (s : State) (u row : Nat) : Bool := match s.zoneAt u row with
  | none => true
  | some (z, b, r) => if s.onShadow u then (s.shadowRow z r).isSome else (s.zone z).landed.contains (b, r)

/-- Is the row marked err (R313)? -/
def State.rowErr (s : State) (u row : Nat) : Bool := match s.zoneAt u row with
  | none => false
  | some (z, b, r) => if s.onShadow u then (s.shadowRow z r).getD false else (s.zone z).err.contains (b, r)

/-- The entry that lands in a zone. -/
def State.entryOfZone (s : State) (z : Nat) : Option Nat :=
  (List.range 256).find? (fun k => (s.schedCfg k).op != 0 && (s.schedCfg k).zone == z)

/-- May an arrival-gated pass emit the row (R312)? In gather-first mode every row of its region must have landed. -/
def State.gateOpen (s : State) (u row lo hi : Nat) : Bool := match s.zoneAt u row with
  | none => true
  | some (z, _, _) =>
    if (s.entryOfZone z).elim false (fun k => (s.schedCfg k).gather) then
      (List.range (hi + 1 - lo)).all (fun i => s.rowLanded u (lo + i))
    else s.rowLanded u row

end Sys2Proof.Machine
end

