-- ==== Sys2Proof/Machine/Trellis.lean ====
section
/-!
DEFINITION. The units of the trellis (chapters 05 and 06): queues and routes, faults and ERROR substitution, slot
selection, counters. What each row of the table does with them is in Machine/Compute.lean, Machine/Control.lean and
Machine/Generate.lean.
-/
namespace Sys2Proof.Machine

/-! Units and queues -/

/-- Unit `u`. -/
def State.unit (s : State) (u : Nat) : TUnit := tget (fun _ => {}) s.trellis.units u

/-- Replace unit `u`. -/
def State.setUnit (s : State) (u : Nat) (v : TUnit) : State :=
  { s with trellis := { s.trellis with units := tset (fun _ => {}) s.trellis.units u v } }

/-- Does the address name a unit (R133)? -/
def isUnit (u : Nat) : Bool := uCol u < 13

/-- Queue `q` of a unit, without its spilled tokens. -/
def TUnit.queue (v : TUnit) (q : Nat) : List Token := tget (fun _ => []) v.queues q

/-- The spilled list of queue `q` (R183). -/
def TUnit.spill (v : TUnit) (q : Nat) : List (Nat × Token) := tget (fun _ => []) v.spilled q

/-- The tokens of queue `q` in order, spilled ones first (R183). -/
def TUnit.tokens (v : TUnit) (q : Nat) : List Token := (v.spill q).map (fun e => e.2) ++ v.queue q

/-- Generator `g` of a memory unit. -/
def TUnit.gen (v : TUnit) (g : Nat) : Gen := tget (fun _ => {}) v.gens g

/-- Replace a generator. -/
def TUnit.setGen (v : TUnit) (g : Nat) (x : Gen) : TUnit := { v with gens := tset (fun _ => {}) v.gens g x }

/-- The accumulators of a stage. -/
def TUnit.accOf (v : TUnit) (j : Nat) : List Int := tget (fun _ => []) v.acc j

/-- A token enters or leaves a queue of a die (R181). -/
def State.noteMove (s : State) (d : Nat) : State :=
  { s with trellis := { s.trellis with moved := tset (fun _ => none) s.trellis.moved d (some s.time.spool) } }

/-- Add a token behind a queue. -/
def State.enqueue (s : State) (u q : Nat) (t : Token) : State :=
  let v := s.unit u
  (s.setUnit u { v with queues := tset (fun _ => []) v.queues q (v.queue q ++ [t]) }).noteMove (uDie u)

/-- Set flags of the unit's event (R148). -/
def State.unitFlag (s : State) (u i : Nat) : State :=
  let v := s.unit u
  s.setUnit u { v with flags := setBit v.flags i }

/-- The column of the spill memory unit of a column (R182). -/
def spillCol (c : Nat) : Nat := if c ≤ 3 then 2 else if c ≤ 6 then 5 else if c ≤ 9 then 8 else 11

/-- The site index of the spill memory unit of a unit. -/
def State.spillSite (s : State) (u : Nat) : Nat := 13 * uRow u + spillCol (s.physCol u)

/-- Consume the head of queue `q`: a spilled token first, whose entry is freed and whose event is marked SPILLED (R183,
R184). -/
def State.consume (s : State) (u q : Nat) : State :=
  let v := s.unit u
  match v.spill q with
  | _ :: rest =>
    let f := F.TRL_SITE_SPILL.used (uDie u) (s.spillSite u)
    let s := (s.setFld f (s.fld f - 1)).noteMove (uDie u)
    s.setUnit u { v with spilled := tset (fun _ => []) v.spilled q rest, flags := setBit v.flags 1 }
  | [] => (s.setUnit u { v with queues := tset (fun _ => []) v.queues q ((v.queue q).drop 1) }).noteMove (uDie u)

/-- Consume `n` heads. -/
def State.consumeN (s : State) (u q n : Nat) : State := Nat.repeat (fun s => s.consume u q) n s

/-! Tokens -/

/-- Is it a data token? -/
def Token.isData (t : Token) : Bool := t.kind == 0
/-- Is it a control token of this code (R148)? -/
def Token.isCtl (t : Token) (code : Nat) : Bool := t.kind == 1 && t.code == code
/-- Does an ERROR token stand for a withheld wrap_token (R190)? -/
def Token.standIn (t : Token) : Bool := t.isCtl 3 && nbit (t.lane 2).toNat 0
/-- Is it an ERROR token that stands for data (R188)? -/
def Token.errData (t : Token) : Bool := t.isCtl 3 && !t.standIn
/-- Is its kind and code defined (R147, R150)? -/
def Token.defined (t : Token) : Bool := t.kind == 0 || (t.kind == 1 && t.code ≤ 4)
/-- Does it count as a data operand (R188)? -/
def Token.operand (t : Token) : Bool := t.isData || t.errData

/-- A control token. -/
def ctlToken (code tag ctx : Nat) (lanes : List Nat) (ev : EvRef) : Token :=
  ⟨1, tag, ctx, code, lanes.map (fun n => BitVec.ofNat 16 n), ev⟩

/-! Routes -/

/-- Tokens on their way to an input queue. -/
def State.coming (s : State) (u q : Nat) : Nat := (s.trellis.flight.filter (fun f => f.dest == .unit u q)).length

/-- Is there room for `n` more tokens at a route's end (R151)? -/
def State.roomAt (s : State) (d : Dest) (n : Nat) : Bool := match d with
  | .unit u q => (((s.unit u).queue q).length + s.coming u q + n) ≤ 8
  | _ => true

/-- Put a token on its way. -/
def State.launch (s : State) (f : Flight) : State :=
  { s with trellis := { s.trellis with flight := s.trellis.flight ++ [f] } }

/-- Put a token of a tether die on its way into the trellis. -/
def State.fly (s : State) (d : Dest) (t : Token) : State := s.launch { dest := d, tok := t, ctl := true }

/-- Unit `u` puts a token on a route. A route into an express input crosses no bridge (R151). -/
def State.sendRoute (s : State) (u : Nat) (r : RouteCfg) (t : Token) : State :=
  let path := if 4 ≤ r.queue && uCol r.dest < 13 then [] else hopDies (uDie u) (uRow u) (s.physCol u) r.codes
  s.launch { dest := r.target, tok := t, origin := some (uDie u), path := some path, ctl := r.control }

/-- Does a data token take the route (R149)? ERROR tokens in place of data ignore steer (R187). The spec gives the 2-bit steer field no
codes: in the order of R149's list 0 is always, 1 only when the bit is 0, 2 only when it is 1 (log 141). -/
def RouteCfg.takes (r : RouteCfg) (t : Token) : Bool :=
  r.data && (r.steer == 0 || !t.isData || (if r.steer == 1 then !nbit (t.lane 0).toNat 0 else nbit (t.lane 0).toNat 0))

/-- Send a data token, or the ERROR token in its place, on every route that takes it. -/
def State.sendData (s : State) (u : Nat) (rs : List RouteCfg) (t : Token) (only : Option Nat := none) : State :=
  (rs.zipIdx).foldl (fun s e =>
    if e.1.takes t && only.getD e.2 == e.2 then s.sendRoute u e.1 t else s) s

/-- Send a control token on every route whose mask includes control. -/
def State.sendCtl (s : State) (u : Nat) (rs : List RouteCfg) (t : Token) : State :=
  rs.foldl (fun s r => if r.control then s.sendRoute u r t else s) s

/-- The routes of the active slot. -/
def State.routesOf (s : State) (u : Nat) : List RouteCfg := match (s.unit u).slot with
  | none => []
  | some i => readRoutes (s.slotBytes u i)

/-- The ERROR token that unit `u` sends (R148, R192). -/
def State.errToken (s : State) (u ctx : Nat) (standIn : Bool) : Token :=
  let v := s.unit u
  let o := v.origin.getD (0, 0)
  ctlToken 3 v.tag ctx [o.1, o.2, b2n standIn] v.ev

/-! Faults (R187-R199) -/

/-- Does a die follow the REPLAY column of R174: in REPLAY, or reserved for SHADOW? -/
def State.replayDie (s : State) (d : Nat) : Bool := s.life == lifeReplay || nbit (s.fld F.CFM_SHD_CFG.dies) d

/-- The wall time in 2^-64 s. -/
def State.wallTime (s : State) : Nat := s.time.wallSec * 2 ^ 64 + s.time.wallAcc

/-- Is the unit quarantined, or its die fenced (R199, R225)? -/
def State.quarantined (s : State) (u : Nat) : Bool :=
  s.bit (F.TRL_SITE_FSTAT.quarantined (uDie u) (s.site u)) || s.fenced (uDie u)

/-- The counters of the chain in which a fault strikes, with their values: those of generator `sub`, or the unit's. -/
def State.chain (s : State) (u sub : Nat) : List Ctr × List Nat :=
  let v := s.unit u
  if isMu u then (readGen (s.slotBytes u (if (v.gen sub).active then (v.gen sub).slot else v.slot.getD 0)) sub |>.ctrs, (v.gen sub).cnt)
  else (readCtrs (s.slotBytes u (v.slot.getD 0)), v.cnt)

/-- The outermost active counters (R190) of the chains whose lowest counter has source `src`. -/
def outermosts (cs : List Ctr) (src : Nat) : List Nat :=
  ((cs.zipIdx).filter (fun e => e.1.source == src)).map (fun e =>
    e.2 + ((cs.drop (e.2 + 1)).takeWhile (fun c => c.source == 2)).length)

/-- A counter that is off. -/
def offCtr : Ctr := ⟨0, 0, false, 0, 0, 0⟩

/-- Of the chains that a fault advances the outermost counters that stand at their limit, with their numbers (R190). `src` is the source that
the fault's firing or emission counts for (0: it counts for none); in a memory unit it is that of the generator. -/
def State.atLimit (s : State) (u sub src : Nat) : List (Ctr × Nat) :=
  let (cs, vals) := s.chain u sub
  let src := if isMu u && src != 0 then (cs.getD 0 offCtr).source else src
  if src = 0 then [] else ((outermosts cs src).map (fun k => (cs.getD k offCtr, k))).filter (fun e => vals.getD e.2 0 == e.1.limit)

/-- The wrap_tokens that a fault withholds (R190), as 4 * generator + counter. -/
def withheldBy (u sub : Nat) (l : List (Ctr × Nat)) : List Nat :=
  (l.filter (fun e => e.1.token != 0)).map (fun e => 4 * (if isMu u then sub else 0) + e.2)

/-- Write a fault record of a unit (R193, R196). For a fault between events the spec names no event: the record names the unit's last event,
tag and slot (log 140). -/
def State.faultRecord (s : State) (u code detail sub : Nat) (last : Bool) : State :=
  let d := uDie u
  let v := s.unit u
  let cnt := (s.chain u sub).2
  let ws : List Word := [
    packWord [(code, 0), (d, 8), (uRow u, 12), (uCol u, 15), (b2n (isMu u), 19), (sub % 4, 20), (v.slot.getD 0, 22),
      (v.tag, 26), (b2n last, 29), (b2n (!s.replayDie d), 30)],
    packWord [(cnt.getD 0 0, 0), (cnt.getD 1 0, 16)],
    packWord [(cnt.getD 2 0, 0), (cnt.getD 3 0, 16)],
    packWord [(v.ev.crossing, 0), (s.fld (F.TRL_FAULT_HEAD.head d), 16)],
    BitVec.ofNat 32 v.ev.orbit, BitVec.ofNat 32 detail, BitVec.ofNat 32 s.time.spool, BitVec.ofNat 32 s.time.wallSec]
  let (ok, s) := s.logWrite (F.TRL_FAULT_HEAD.head d) (F.TRL_FAULT_TAIL.tail d) (Reg.TRL_FAULT_LOG d 0 0) 0x20 32 ws
  if ok then s.raise (F.TRL_FAULT_EVT.fault d) else s.satInc (F.TRL_FAULT_STAT.dropped d)

/-- The hub's memory of the faults of the unit at a place (R199): a third fault within 1.0 s of the earlier of the last two quarantines
the unit, and prunes it where auto_prune says so. -/
def State.countFault (s : State) (u code : Nat) : State :=
  let d := uDie u
  let k := s.site u
  let v := s.unit u
  let now := s.wallTime
  let last := tget (fun _ => []) s.trellis.faultTimes (s.place u)
  let third := last.length == 2 && now - last.getD 0 0 ≤ 2 ^ 64
  let times := (last ++ [now]).drop (last.length + 1 - 2)
  let s := { s with trellis := { s.trellis with faultTimes := tset (fun _ => []) s.trellis.faultTimes (s.place u) times } }
  let s := ((s.satInc (F.TRL_SITE_FCOUNT.count d k)).setFld (F.TRL_SITE_FSTAT.last_code d k) code).setFld
    (F.TRL_SITE_FSTAT.recent d k) times.length
  if !third then s
  else
    let s := (s.raise (F.TRL_SITE_FSTAT.quarantined d k)).trace 5 u 0 0 v.tag v.ev
    match cuPos (s.physCol u) with
    | none => s
    | some p =>
      if s.bit (F.TRL_FAULT_CFG.auto_prune d) && s.prunedMask d (uRow u) == 0 &&
          !s.spares.jobs.any (fun j => j.die == d && j.row == uRow u && j.pos == p) then
        (s.acceptJob { die := d, row := uRow u, pos := p }).raise (F.TRL_SITE_FSTAT.prune_pending d k)
      else s

/-- The code that the ERROR tokens of a quarantined unit carry (R199): that of its last recorded fault. A unit of a fenced die may have
recorded none, and code 0 is never used (R195): then it is a free value. -/
def State.quarantineCode (s : State) (u : Nat) : Nat :=
  let code := s.fld (F.TRL_SITE_FSTAT.last_code (uDie u) (s.site u))
  if code = 0 then (Config.fenceCode u).val + 1 else code

/-- Put a unit under ERROR substitution for a fault of its own with this code (R187, R192). -/
def State.substitute (s : State) (u code : Nat) (withhold : List Nat) : State :=
  let v := s.unit u
  s.setUnit u { v with
    faulted := true, subst := true, origin := some (code, u), flags := setBit v.flags 2, withhold := v.withhold ++ withhold }

/-- A detection in unit `u` (R187, R191): its first of the event is recorded and puts the unit under ERROR
substitution; `sub` is the stage or generator, `l` the outermost counters at their limit (R190). A quarantined unit writes no record
(R205). -/
def State.faultAt (s : State) (u code detail sub : Nat) (l : List (Ctr × Nat)) : State :=
  if (s.unit u).faulted then s.satInc (F.TRL_FAULT_STAT.suppressed (uDie u))
  else
    if s.quarantined u then
      (s.satInc (F.TRL_FAULT_STAT.suppressed (uDie u))).substitute u (s.quarantineCode u) (withheldBy u sub l)
    else ((s.faultRecord u code detail sub (!l.isEmpty)).countFault u code).substitute u code (withheldBy u sub l)

/-- A detection at a firing or emission that counts for source `src`, as in `atLimit`. -/
def State.faultUnit (s : State) (u code detail sub src : Nat) : State := s.faultAt u code detail sub (s.atLimit u sub src)

/-- A unit consumes an ERROR token: the first one gives the origin lanes of its own, unless it faults itself (R192). -/
def State.noteError (s : State) (u : Nat) (t : Token) : State :=
  let v := s.unit u
  s.setUnit u { v with flags := setBit v.flags 2, origin := v.origin.or (some ((t.lane 0).toNat, (t.lane 1).toNat)) }

/-- An ERROR token consumed as a data operand (R188): the unit proceeds under R187. -/
def State.takeError (s : State) (u : Nat) (t : Token) : State :=
  let s := s.noteError u t
  s.setUnit u { s.unit u with subst := true }

/-- Set arith_ovf of the unit's event and count the event once on its die (R161). -/
def State.noteOvf (s : State) (u : Nat) : State :=
  let v := s.unit u
  let key := (uDie u, v.ev)
  let s := s.unitFlag u 0
  if s.trellis.ovfSeen.contains key then s
  else { s.satInc (F.TRL_OVF_COUNT.count (uDie u)) with
    trellis := { s.trellis with ovfSeen := s.trellis.ovfSeen ++ [key] } }

/-! Slot selection (R157, R198, R217) -/

/-- Take up the slot of a tag and context, those of the token at the head of the primary input (R157). With no match the unit faults and runs
the fallback slot; with no valid slot it discards the event (R198). In a slot taken up new no pass has ended yet (R179). -/
def State.select (s : State) (u tag ctx src : Nat) : State :=
  let v := s.unit u
  let take (i : Nat) : TUnit := { v with
    slot := some i, want := (tag, ctx), gens := if v.slot = some i then v.gens else v.gens.map (fun e => (e.1, { e.2 with ended := false })) }
  match s.findSlot u tag ctx with
  | some i => s.setUnit u (take i)
  | none => match s.fallbackSlot u tag with
    | some i => (s.setUnit u (take i)).faultUnit u 5 (tag + 8 * ctx) 0 src
    | none =>
      let s := (s.setUnit u { v with slot := none, want := (tag, ctx) }).faultUnit u 5 (tag + 8 * ctx) 0 0
      s.setUnit u { s.unit u with discard := true }

/-- Does the unit run the slot of this tag and context already? -/
def State.slotMatches (s : State) (u tag ctx : Nat) : Bool := (s.unit u).slot.isSome && (s.unit u).want == (tag, ctx)

/-- Take up the slot of the head token, unless the unit runs it. -/
def State.followToken (s : State) (u : Nat) (t : Token) (src : Nat) : State :=
  if s.slotMatches u t.tag t.ctx then s else s.select u t.tag t.ctx src

/-! Counters (R154) -/

/-- One advance of the counters with source `src` and of the chains above them: new values and the counters that
wrapped, lowest first (R154, R168). -/
def advance (cs : List Ctr) (src : Nat) (vals : List Nat) : List Nat × List Nat :=
  (cs.zipIdx).foldl (fun (a : List Nat × List Nat) e =>
    let k := e.2
    let x := vals.getD k 0
    if e.1.source == src || (e.1.source == 2 && k != 0 && a.2.contains (k - 1)) then
      if e.1.limit ≤ x then (a.1 ++ [0], a.2 ++ [k]) else (a.1 ++ [x + 1], a.2)
    else (a.1 ++ [x], a.2)) ([], [])

/-- Advance a CU's counters of a source; wraps wait behind those already due. The wait timer restarts (R175). -/
def State.advanceUnit (s : State) (u src : Nat) : State × List Nat :=
  match (s.unit u).slot with
  | none => (s, [])
  | some i =>
    let v := s.unit u
    let r := advance (readCtrs (s.slotBytes u i)) src v.cnt
    (s.setUnit u { v with cnt := r.1, wraps := v.wraps ++ r.2, since := s.time.spool }, r.2)

/-! Triggers of generators (R143, R165) -/

/-- Trigger the generators of a memory unit's active slot that have this trigger. -/
def State.triggerGens (s : State) (u trigger tag ctx : Nat) : State :=
  if !isMu u then s else match (s.unit u).slot with
  | none => s
  | some i =>
    [0, 1].foldl (fun s g =>
      let a := readGen (s.slotBytes u i) g
      if a.used && a.trigger == trigger then
        let v := s.unit u
        s.setUnit u (v.setGen g { v.gen g with trig := (v.gen g).trig ++ [(tag, ctx)] })
      else s) s

/-- Has the unit no pass running or due, and no wrap due (R171, R180)? -/
def State.unitQuiet (s : State) (u : Nat) : Bool :=
  let v := s.unit u
  v.wraps.isEmpty && [0, 1].all (fun g => !(v.gen g).active && (v.gen g).trig.isEmpty && (v.gen g).wraps.isEmpty)

/-- The fold index `n` steps on (R216). -/
def State.foldAfter (s : State) (u n : Nat) : Nat :=
  ((s.unit u).fold + n) % max 1 ((s.unit u).slot.elim 1 (fun i => (s.slotHeader u i).fold))

/-- A step of the fold index (R216); a memory unit starts its trigger-2 passes. The slot follows the head token (R157). -/
def State.foldStep (s : State) (u : Nat) : State :=
  let v := s.unit u
  let c := s.foldAfter u 1
  let s := s.setUnit u { v with fold := c }
  let s := s.when (s.bit F.DET_CTRL.trace_fold) (fun s => s.trace 1 u 0 c v.tag v.ev)
  s.triggerGens u 2 v.tag c

/-- Send a counter's wrap_token (R155), or the ERROR token that stands for a withheld one (R190); the leader has a step
due (R217). `key`: 4 * generator + counter. The token carries the fold index after that step, so that the units that it steps take up the
slot of the new index (R157) and the passes that it triggers carry it (R144; log 139). -/
def State.sendWrapToken (s : State) (u key : Nat) (rs : List RouteCfg) : State :=
  let v := s.unit u
  let c := s.foldAfter u (v.steps + 1)
  let s :=
    if v.withhold.contains key then (s.setUnit u { v with withhold := v.withhold.erase key }).sendCtl u rs (s.errToken u c true)
    else s.sendCtl u rs (ctlToken 2 v.tag c [] v.ev)
  s.setUnit u { s.unit u with steps := v.steps + 1 }

/-- Steps that are due take effect once the work of the current context has been emitted (R171, R180, R216). -/
def State.takeSteps (s : State) (u : Nat) : State :=
  let v := s.unit u
  if v.steps != 0 && s.unitQuiet u then Nat.repeat (fun s => s.foldStep u) v.steps (s.setUnit u { v with steps := 0 }) else s

/-- Do the tokens on these routes fit their queues (R151)? -/
def State.fits (s : State) (rs : List RouteCfg) : Bool :=
  rs.all (fun r => !r.used || s.roomAt r.target 0)

/-- What a unit would do now: the routes on which it would send, and the state that it would leave; none when it has nothing to do. -/
abbrev Try := Option (List RouteCfg × State)

/-- Does it happen: do the tokens that it sends fit? -/
def Try.goes (x : Try) : Bool := x.elim false (fun r => r.2.fits r.1)

/-- A step that sends tokens happens only when they fit; otherwise it waits and nothing changes. -/
def State.attempt (s : State) (x : Try) : State := match x with
  | none => s
  | some (rs, t) => if t.fits rs then t else s

end Sys2Proof.Machine
end

