-- ==== Sys2Proof/Machine/Landing.lean ====
section
/-!
DEFINITION. Landing zones at work (R309-R313, R316, R329, R336): chunks that may land, the early store, rows written
into a memory unit, completion stamps, and the release of a buffer.
-/
namespace Sys2Proof.Machine

/-- The release count of a zone (R311). -/
def State.rz (s : State) (z : Nat) : Nat := s.fld (F.COL_LZ_REL.rz z)

/-- Buffers of a zone. -/
def ZoneCfg.nb (c : ZoneCfg) : Nat := max 1 c.bufs

/-- How far generation `q` lies ahead of the release count. -/
def State.ahead (s : State) (z q : Nat) : Nat := (q + 65536 - s.rz z) % 65536

/-- Rows of the slot of one pair of an EXCHANGE_V (R316). -/
def SchedCfg.slotRows (k : SchedCfg) : Nat := (64 + 64 * k.size + 127) / 128

/-- Rows that a run of entry `k` fills in a group of `n` members (R329). -/
def SchedCfg.fills (k : SchedCfg) (n : Nat) : Nat :=
  if k.op = 1 then n * k.size / 2 else if k.op = 2 then n * k.slotRows else 1

/-- Replace a run. -/
def State.setRun (s : State) (r : Run) : State :=
  { s with coll := { s.coll with runs := s.coll.runs.map (fun x => if x.id = r.id then r else x) } }

/-- The run that lands in buffer generation `q` of a zone. -/
def State.runAt (s : State) (z q : Nat) : Option Run :=
  s.coll.runs.find? (fun r => (s.schedCfg r.entry).zone == z && r.gen == q && r.ready)

/-- Give a run its completion stamp once all rows that it fills have landed (R329). -/
def State.stampRun (s : State) (z q : Nat) : State := match s.runAt z q with
  | none => s
  | some r =>
    let k := s.schedCfg r.entry
    let b := q % (s.zoneCfg z).nb
    if r.done.isNone && (List.range (k.fills (s.fld (brCount r.group)))).all (fun i => (s.zone z).landed.contains (b, i)) then
      s.setRun { r with done := some s.time.spool }
    else s

/-- Count a landed row at the arrival counters whose region holds it, while their pass runs (R312). -/
def State.countArrival (s : State) (u row : Nat) : State :=
  [0, 1].foldl (fun s g =>
    let v := s.unit u
    let x := v.gen g
    let a := readGen (s.slotBytes u x.slot) g
    if x.active && (a.ctrs.getD 0 ⟨0, 0, false, 0, 0, 0⟩).source == 4 && a.lo ≤ row && row ≤ a.hi then
      s.setUnit u (v.setGen g { x with arrivals := x.arrivals + 1 })
    else s) s

/-- Write one row into its buffer: the row's landed bit, its err mark, arrivals, completion (R309, R313, R329). -/
def State.landRow (s : State) (r : LandRow) : State :=
  let c := s.zoneCfg r.zone
  let b := r.gen % c.nb
  let row := c.base + b * c.rows + r.row
  let z := s.zone r.zone
  let s := s.memWrite (rowAddr c.unit row) (padTo 128 r.data)
  let fresh := !z.landed.contains (b, r.row)
  let s := s.setZone r.zone { z with
    landed := if fresh then z.landed ++ [(b, r.row)] else z.landed
    err := if r.err then z.err ++ [(b, r.row)] else z.err }
  (s.when fresh (fun s => s.countArrival c.unit row)).stampRun r.zone r.gen

/-- Are all these rows of a generation landed, or on the landing path? -/
def State.hasRows (s : State) (z q first n : Nat) : Bool :=
  (List.range n).all (fun i => (s.zone z).landed.contains (q % (s.zoneCfg z).nb, first + i) ||
    s.coll.landing.any (fun l => l.zone == z && l.gen == q && l.row == first + i))

/-- The rows that a chunk brings: its data, and behind the last chunk of a pair zeros to the end of the slot (R316). -/
def State.chunkRows (s : State) (c : Chunk) : List LandRow :=
  let n := (c.data.length + 127) / 128
  let rows := (List.range n).map (fun i =>
    { zone := c.zone, gen := c.gen, row := c.row + i, data := (c.data.drop (128 * i)).take 128, err := nbit c.flags 2 : LandRow })
  if nbit c.flags 0 && nbit c.flags 1 then
    let k := (s.entryOfZone c.zone).elim 1 (fun e => (s.schedCfg e).slotRows)
    let stop := (c.row / max 1 k + 1) * max 1 k
    rows ++ (List.range (stop - (c.row + n))).map (fun i =>
      { zone := c.zone, gen := c.gen, row := c.row + n + i, data := [], err := false : LandRow })
  else rows

/-- Put the rows of a chunk that may land on the landing path (R309). -/
def State.landChunk (s : State) (c : Chunk) : State :=
  { s with coll := { s.coll with landing := s.coll.landing ++ s.chunkRows c } }

/-- Channel state. -/
def State.vchan (s : State) (v : Nat) : Channel := tget (fun _ => {}) s.coll.channels v

/-- Replace a channel's state and show what it holds. -/
def State.setVchan (s : State) (v : Nat) (c : Channel) : State :=
  let s := { s with coll := { s.coll with channels := tset (fun _ => {}) s.coll.channels v c } }
  (s.setFld (F.COL_VC_HOLD.early v) c.early.length).setFld (F.COL_VC_HOLD.items v) c.items.length

/-- Land a chunk whose buffer is free, unless its rows have landed already (R309). -/
def State.landOnce (s : State) (c : Chunk) : State :=
  if s.hasRows c.zone c.gen c.row ((c.data.length + 127) / 128) then s.satInc F.COL_CHUNK_STAT.chunk_dup else s.landChunk c

/-- Is the buffer of a chunk of the zone free? -/
def State.mayLand (s : State) (z : Nat) (c : Chunk) : Bool := c.zone == z && s.ahead z c.gen < (s.zoneCfg z).nb

/-- A chunk that had to wait, and whose release comes in the tick in which it came, was not early (R324). -/
def State.notEarly (s : State) (c : Chunk) : State :=
  let n := s.fld F.COL_EARLY_STAT.held
  if c.tick = s.time.spool && n != 0 && n != 65535 then s.setFld F.COL_EARLY_STAT.held (n - 1) else s

/-- Chunks that may land now do so (R311): those in early stores, and those of this tick that found the store full (R324). -/
def State.landEarly (s : State) (z : Nat) : State :=
  let s := (List.range 16).foldl (fun s v =>
    let c := s.vchan v
    let go := c.early.filter (s.mayLand z)
    if go.isEmpty then s
    else go.foldl (fun s x => (s.notEarly x).landOnce x) (s.setVchan v { c with early := c.early.filter (fun x => !s.mayLand z x) })) s
  let ok (e : Chunk × Nat) : Bool := e.2 == s.time.spool && s.mayLand z e.1
  let go := s.coll.overrun.filter ok
  go.foldl (fun s e => s.landOnce e.1) { s with coll := { s.coll with overrun := s.coll.overrun.filter (fun e => !ok e) } }

/-- Does anything hold the buffer that Rz names: landed rows, or a run? -/
def State.bufferHeld (s : State) (z : Nat) : Bool :=
  (s.zone z).landed.any (fun e => e.1 == s.rz z % (s.zoneCfg z).nb) || (s.runAt z (s.rz z)).isSome

/-- Mark every row of a generation's buffer that has not landed as landed and err (R335, R336). -/
def State.markBuffer (s : State) (z q : Nat) : State :=
  let c := s.zoneCfg z
  let b := q % c.nb
  let v := s.zone z
  let rows := (List.range c.rows).filter (fun r => !v.landed.contains (b, r))
  let s := s.setZone z { v with landed := v.landed ++ rows.map (fun r => (b, r)), err := v.err ++ rows.map (fun r => (b, r)) }
  rows.foldl (fun s r => s.countArrival c.unit (c.base + b * c.rows + r)) s

/-- An event of an entry whose group is not READY takes the buffer that Rz names, once that is released (R336). -/
def State.takeOwed (s : State) (z : Nat) : State :=
  let v := s.zone z
  if 0 < v.owed && !s.bufferHeld z then (s.setZone z { v with owed := v.owed - 1 }).markBuffer z (s.rz z) else s

/-- The rows of a buffer as an event leaves them, for its re-execution (R398). -/
def State.keepRows (s : State) (z : Nat) (ev : EvRef) : State :=
  let c := s.zoneCfg z
  let b := s.rz z % c.nb
  let v := s.zone z
  let rows := (v.landed.filter (fun e => e.1 == b)).map (fun e =>
    (z, e.2, s.memRead (rowAddr c.unit (c.base + b * c.rows + e.2)) 128, v.err.contains e))
  { s with events := s.events.map (fun e =>
    if e.index == ev.index && !ev.shadow then { e with rows := e.rows ++ rows } else e) }

/-- Did the run abort? -/
def Run.failed (r : Run) : Bool := match r.verdict with
  | .aborted _ => true
  | _ => false

/-- The buffers that aborted runs of a zone use by now are marked (R335). -/
def State.markAborted (s : State) (z : Nat) : State :=
  s.coll.runs.foldl (fun s r =>
    if r.ready && r.failed && (s.schedCfg r.entry).zone == z && s.ahead z r.gen < (s.zoneCfg z).nb then s.markBuffer z r.gen
    else s) s

/-- An event is to release a buffer of a zone; `gen`: the generation of its instance, none where the group was not READY. -/
def State.ownZone (s : State) (z : Nat) (ev : EvRef) (gen : Option Nat) : State :=
  s.setZone z { s.zone z with owners := (s.zone z).owners ++ [(ev, gen)] }

/-- Aborted runs whose event has gone and whose buffer has been marked are forgotten. -/
def State.forgetMarked (s : State) (z : Nat) : State :=
  { s with coll := { s.coll with runs := s.coll.runs.filter (fun r =>
    !(r.ready && r.failed && (s.schedCfg r.entry).zone == z && !s.events.any (fun e => e.runs.contains r.id)) ||
      ((s.zoneCfg z).nb ≤ s.ahead z r.gen && s.ahead z r.gen < 32768)) } }

/-- The release generator of a zone ended a pass for an event (R311): once for each event of the zone, and only for the event of generation
Rz, the marks of the buffer clear, Rz counts up, and held chunks land. -/
def State.releaseZone (s : State) (z : Nat) (ev : EvRef) : State :=
  let v := s.zone z
  match v.owners.find? (fun o => o.1 == ev) with
  | none => s
  | some o =>
    if o.2.any (fun q => q != s.rz z) then s
    else
      let s := s.keepRows z ev
      let b := s.rz z % (s.zoneCfg z).nb
      let s := s.setZone z { v with
        landed := v.landed.filter (fun e => e.1 != b)
        err := v.err.filter (fun e => e.1 != b)
        owners := v.owners.erase o }
      ((((s.wrapInc (F.COL_LZ_REL.rz z)).landEarly z).takeOwed z).markAborted z).forgetMarked z

/-- A pass of generator `g` of unit `u` has ended: the zones that it releases. -/
def State.passReleases (s : State) (u g : Nat) (ev : EvRef) : State :=
  ((List.range 64).filter (fun z => (s.zoneCfg z).rows != 0 && (s.zoneCfg z).unit == u && (s.zoneCfg z).gen == g)).foldl
    (fun s z => s.releaseZone z ev) s

/-- A whole chunk that has passed its checks: landed, discarded as a duplicate, or held early; true when it breaks the
order instead (R309, R311). A generation behind the release count has landed already (log 25). One that finds the early store full waits for
the end of its tick, in which a release may still come (R324); one more than 16 generations past the buffers lies further ahead than the
store allows (log 156). -/
def State.acceptChunk (s : State) (c : Chunk) : Bool × State :=
  let z := c.zone
  let d := s.ahead z c.gen
  let nb := (s.zoneCfg z).nb
  if 32768 ≤ d then (false, s.satInc F.COL_CHUNK_STAT.chunk_dup)
  else if d < nb then (false, s.landOnce c)
  else match s.vcOf c.group with
    | none => (true, s)
    | some v =>
      if nb + 16 ≤ d then (true, s.raise F.COL_ENG_EVT.order_err)
      else if 16 ≤ (s.vchan v).early.length then (false, { s with coll := { s.coll with overrun := s.coll.overrun ++ [(c, s.time.spool)] } })
      else
        let c := { c with tick := s.time.spool }
        (false, (s.setVchan v { s.vchan v with early := (s.vchan v).early ++ [c] }).satInc F.COL_EARLY_STAT.held)

end Sys2Proof.Machine
end

