-- ==== Sys2Proof/Machine/Control.lean ====
section
/-!
DEFINITION. Tokens that arrive at units, and the control tokens at their heads (R136, R147-R151, R156, R157, R171, R188,
R190, R198, R199, R216, R217), with the two registers that clear a die's counts.
-/
namespace Sys2Proof.Machine

/-! Arrival -/

/-- The oldest token on its way to a place, and the state without it. -/
def State.takeFlight (s : State) (d : Dest) : Option (Flight × State) :=
  (takeFirst (fun f => f.dest == d) s.trellis.flight).map
    (fun r => (r.1, { s with trellis := { s.trellis with flight := r.2 } }))

/-- The sidestep pause of a die (R371). -/
def State.pauseOf (s : State) (d : Nat) : Option Pause := tget (fun _ => none) s.spares.pauses d

/-- Does the token wait at the entry of a paused die (R371)? -/
def State.waitsAt (s : State) (d : Nat) (f : Flight) : Bool :=
  (s.pauseOf d).elim false (fun p => p.start ≤ f.tok.ev.index && f.origin != some d && !f.tok.ev.shadow)

/-- Is the unit between EVENT_START and EVENT_END behind the tokens that stand in queue `q`? -/
def State.startedOn (s : State) (u q : Nat) : Bool :=
  match (((s.unit u).tokens q).filter (fun t => t.isCtl 0 || t.isCtl 1)).getLast? with
  | some t => t.isCtl 0
  | none => (s.unit u).inEvent

/-- Keep flags for an event of the unit, and the lanes of an ERROR token: now, or until it starts. -/
def State.sideFlags (s : State) (u : Nat) (ev : EvRef) (n : Nat) (lanes : Option (Nat × Nat)) : State :=
  let v := s.unit u
  if v.inEvent && v.ev == ev && n < 8 then s.setUnit u { v with flags := v.flags ||| n, origin := v.origin.or lanes }
  else s.setUnit u { v with side := v.side ++ [(ev, n, lanes)] }

/-- The routes of every slot of a unit that are used, each end once. -/
def State.allRoutes (s : State) (u : Nat) : List RouteCfg :=
  (((s.validSlots u).flatMap (fun e => readRoutes (s.slotBytes u e.1))).filter RouteCfg.used).foldl
    (fun l r => if l.any (fun x => x.target == r.target) then l else l ++ [r]) []

/-- FLUSH (R148): queued tokens, accumulators and counters go, and FLUSH goes on on every route of the unit, one token to each end. -/
def State.flushUnit (s : State) (u : Nat) (ev : EvRef) : State :=
  let v := s.unit u
  let n := v.spilled.foldl (fun n e => n + e.2.length) 0
  let f := F.TRL_SITE_SPILL.used (uDie u) (s.spillSite u)
  let s := ((s.setFld f (s.fld f - n)).setUnit u { slot := v.slot }).noteMove (uDie u)
  (s.allRoutes u).foldl (fun s r => s.sendRoute u r (ctlToken 4 v.tag 0 [] ev)) s

/-- A token comes to queue `q`; `ctl`: on a route that carries control tokens. Controls on other inputs than the primary one are consumed at
once, the flags of an EVENT_END kept (R149); protocol faults drop the token (R150). On a data-only route no EVENT_START can come, so
its data waits for none (log 143). -/
def State.arrive (s : State) (u q : Nat) (t : Token) (ctl : Bool) : State :=
  let v := s.unit u
  let prim := s.primaryFor u t.tag t.ctx q == q
  if t.isCtl 4 then s.flushUnit u t.ev
  else if v.discard && v.ev == t.ev then
    if t.isCtl 1 && q == v.prim then s.setUnit u { v with discard := false, inEvent := false } else s
  else if !t.defined then s.faultUnit u 3 3 0 0
  else if prim then
    if t.operand && !s.startedOn u q then s.faultUnit u 3 1 0 0 else s.enqueue u q t
  else if t.operand then
    if ctl && !v.opened.contains (q, t.ev) then s.faultUnit u 3 1 0 0 else s.enqueue u q t
  else if t.isCtl 0 then
    let t := s.setUnit u { v with opened := v.opened.filter (fun o => o.1 != q) ++ [(q, t.ev)] }
    t.when (v.opened.any (fun o => o.1 == q)) (fun s => s.faultUnit u 3 2 0 0)
  else if t.isCtl 1 then
    (s.setUnit u { v with opened := v.opened.filter (fun o => o.1 != q) }).sideFlags u t.ev ((t.lane 0).toNat % 8) none
  else if t.standIn then s.sideFlags u t.ev 4 (some ((t.lane 0).toNat, (t.lane 1).toNat))
  else s

/-- DATA_TOKEN: the oldest token on its way to an input queue enters it, if there is room (R151) and no sidestep pause
holds it. -/
def State.dataToken (s : State) (u q : Nat) : State := match s.takeFlight (.unit u q) with
  | none => s
  | some (f, s') =>
    if s.waitsAt (uDie u) f || 8 ≤ ((s.unit u).queue q).length then s else s'.arrive u q f.tok f.ctl

/-- Does a token cross a bridge into die `die` on its way (R135)? One that comes from a tether die may cross any (log 159). -/
def Flight.crosses (f : Flight) (die : Nat) : Bool := f.path.elim true (fun l => l.contains die)

/-- The token has crossed its bridge into die `die`. -/
def Flight.across (f : Flight) (die : Nat) : Flight :=
  { f with fails := 0, path := f.path.map (fun l => (l.dropWhile (fun d => d != die)).drop 1) }

/-- BRIDGE_TRANSFER (R136): the transfer into die `die` of the oldest token on its way to a queue passes or fails its parity
check. The third failure in a row faults the receiving unit in the token's event; the token goes on. -/
def State.bridgeTransfer (s : State) (die u q : Nat) (ok : Bool) : State :=
  match s.trellis.flight.findIdx? (fun f => f.dest == .unit u q) with
  | none => s
  | some i =>
    let f := s.trellis.flight.getD i { dest := .unit u q, tok := ⟨0, 0, 0, 0, [], {}⟩ }
    if !f.crosses die then s
    else
      let g := if ok || f.fails = 2 then f.across die else { f with fails := f.fails + 1 }
      let s := { s with trellis := { s.trellis with flight := s.trellis.flight.set i g } }
      if ok then s
      else
        let s := s.satInc (F.TRL_BRIDGE_RETRY.count die)
        if f.fails != 2 then s
        else if (s.unit u).inEvent && (s.unit u).ev == f.tok.ev then s.faultUnit u 3 5 0 0
        else s.sideFlags u f.tok.ev 8 none

/-! Reading back spilled tokens (R142, R183) -/

/-- What a row reads back from the spill area: the queue, the single-bit errors corrected, and whether a double-bit error was met. -/
abbrev Refill := Option (Fin 6 × Fin 18 × Bool)

/-- The row reads the head of a spilled list back: corrected errors count, and a double-bit error faults the spill memory unit, which reads it;
in place of a data token comes an ERROR token with that origin (R142, R187; log 145). -/
def State.refill (s : State) (u : Nat) (r : Refill) : State := match r with
  | none => s
  | some (q, n, bad) => match (s.unit u).spill q with
    | [] => s
    | (j, t) :: rest =>
      let m := unitAddr (uDie u) (uRow u) (spillCol (s.physCol u))
      let s := s.satAdd (F.TRL_ECC_CORR.count (uDie u)) n
      if !bad then s
      else
        let s := s.faultUnit m 1 (0xF80 + j) 0 0
        let v := s.unit u
        if t.isData then s.setUnit u { v with
          spilled := tset (fun _ => []) v.spilled q ((j, ctlToken 3 t.tag t.ctx [1, m] t.ev) :: rest) } else s

/-! Control tokens at the head of the primary input -/

/-- The primary input of the active slot. -/
def State.primaryNow (s : State) (u : Nat) : Option Nat := (s.unit u).slot.map (fun i => (s.slotHeader u i).primary)

/-- The queue whose head satisfies `p` and which is the primary input for it. -/
def State.headOf (s : State) (u : Nat) (p : Token → Bool) : Option (Nat × Token) :=
  ([0, 1, 2, 3, 4, 5].filterMap (fun q => (((s.unit u).tokens q).head?).bind (fun t =>
    if p t && s.primaryFor u t.tag t.ctx q == q then some (q, t) else none))).head?

/-- Drop what stands at the heads of all queues of the event that the unit discards, up to its EVENT_END on the primary input (R198). -/
def State.dropEvent (s : State) (u : Nat) : State :=
  let ev := (s.unit u).ev
  [0, 1, 2, 3, 4, 5].foldl (fun s q =>
    let ts := ((s.unit u).tokens q).takeWhile (fun t => t.ev == ev)
    let s := s.consumeN u q ts.length
    if q == (s.unit u).prim && ts.any (fun t => t.isCtl 1) then s.setUnit u { s.unit u with discard := false, inEvent := false } else s) s

/-- A quarantined unit handles the event as though it had faulted at its first firing, with every counter at 0 (R190, R199). -/
def State.quarantineEvent (s : State) (u : Nat) : State :=
  if !s.quarantined u then s
  else
    let held := (if isMu u then [0, 1] else [0]).flatMap (fun g => withheldBy u g (s.atLimit u g 1))
    (s.substitute u (s.quarantineCode u) held).satInc (F.TRL_FAULT_STAT.suppressed (uDie u))

/-- EVENT_START (R156): counters cleared, the slot taken up, the token forwarded, generators triggered. A second one
before EVENT_END is a fault (R150). -/
def State.startTry (s : State) (u : Nat) : Try := match s.headOf u (fun t => t.isCtl 0) with
  | none => none
  | some (q, t) =>
    let v := s.unit u
    if v.inEvent then
      if s.primaryNow u == some q then some ([], (s.consume u q).faultUnit u 3 2 0 0) else none
    else
      let mine := v.side.filter (fun e => e.1 == t.ev)
      let side := mine.foldl (fun n e => n ||| e.2.1) 0
      let s1 := (s.setUnit u { v with
        inEvent := true, prim := q, ev := t.ev, tag := t.tag, fold := 0, cnt := [0, 0, 0, 0], acc := [], wraps := [], emits := []
        flags := side % 8, side := v.side.filter (fun e => e.1 != t.ev), faulted := false, subst := false
        origin := mine.findSome? (fun e => e.2.2), withhold := [], holding := false, discard := false, gens := [], steps := 0
        since := s.time.spool }).consume u q
      let s1 := (s1.select u t.tag t.ctx 5).quarantineEvent u
      if (s1.unit u).discard then some ([], s1.dropEvent u)
      else
        let rs := s1.routesOf u
        let s1 := s1.when (nbit side 3) (fun s => s.faultUnit u 3 5 0 0)
        let s1 := (s1.sendCtl u rs { t with ctx := 0 }).triggerGens u 0 t.tag 0
        some (rs, if isMu u then s1 else (s1.advanceUnit u 5).1)

/-- EVENT_START at a unit. -/
def State.eventStart (s : State) (u : Nat) : State := s.attempt (s.startTry u)

/-- The first counter with must_zero that is not at 0: (generator, counter) (R156). -/
def State.nonZero (s : State) (u : Nat) : Option (Nat × Nat) := match (s.unit u).slot with
  | none => none
  | some i =>
    let bs := s.slotBytes u i
    let all : List (Nat × Nat × Ctr × Nat) :=
      if isMu u then [0, 1].flatMap (fun g => ((readGen bs g).ctrs.zipIdx).map (fun e => (g, e.2, e.1, ((s.unit u).gen g).cnt.getD e.2 0)))
      else ((readCtrs bs).zipIdx).map (fun e => (0, e.2, e.1, (s.unit u).cnt.getD e.2 0))
    (all.find? (fun e => e.2.2.1.mustZero && e.2.2.2 != 0)).map (fun e => (e.1, e.2.1))

/-- Are the inputs other than the primary one done with the unit's event: no EVENT_START of it waits for its EVENT_END? The unit holds its
EVENT_END for the flags that these bring (R149, R170; log 144). -/
def State.sidesDone (s : State) (u : Nat) : Bool := !(s.unit u).opened.any (fun o => o.2 == (s.unit u).ev)

/-- EVENT_END (R149, R156): once all work of the event is out, the must_zero check, and the token with the OR of the
flags. -/
def State.endTry (s : State) (u : Nat) : Try := match s.headOf u (fun t => t.isCtl 1) with
  | none => none
  | some (q, t) =>
    let v := s.unit u
    if !v.inEvent then some ([], s.consume u q)
    else if s.primaryNow u != some q || !s.unitQuiet u || !s.sidesDone u then none
    else
      let s1 := s.followToken u t 0
      if (s1.unit u).discard then some ([], s1.dropEvent u)
      else
        let rs := s1.routesOf u
        let s1 := s1.consume u q
        let s1 := match (if (s1.unit u).subst then none else s1.nonZero u) with
          | none => s1
          | some (g, k) => s1.faultUnit u 4 k g 0
        let w := s1.unit u
        let n := w.flags ||| (t.lane 0).toNat % 8
        let s1 := s1.sendCtl u rs (ctlToken 1 w.tag w.fold [n] w.ev)
        some (rs, s1.setUnit u { w with inEvent := false, flags := n })

/-- EVENT_END at a unit. -/
def State.eventEnd (s : State) (u : Nat) : State := s.attempt (s.endTry u)

/-- CONTEXT_NEXT, or the ERROR token that stands for it (R190, R217), once the work of the current context is out (R171, R180): the unit takes
up the slot that the token names (R157); a fold leader consumes it; any other unit steps and forwards it with its new fold index (R216). -/
def State.nextTry (s : State) (u : Nat) : Try := match s.headOf u (fun t => t.isCtl 2 || t.standIn) with
  | none => none
  | some (q, t) =>
    if !(s.unit u).inEvent || s.primaryNow u != some q || !s.unitQuiet u then none
    else
      let s1 := s.followToken u t 0
      match (s1.unit u).slot with
      | none => some ([], s1.dropEvent u)
      | some i =>
        let s1 := (s1.consume u q).when t.standIn (fun s => s.noteError u t)
        if isLeader (s1.slotBytes u i) then some ([], s1)
        else
          let rs := s1.routesOf u
          let s1 := s1.foldStep u
          some (rs, s1.sendCtl u rs { t with ctx := (s1.unit u).fold })

/-- CONTEXT_NEXT at a unit. -/
def State.contextNext (s : State) (u : Nat) : State := s.attempt (s.nextTry u)

/-- The oldest token on its way to an input is FLUSH (R148). -/
def State.flushToken (s : State) (u q : Nat) : State := match s.takeFlight (.unit u q) with
  | none => s
  | some (f, s') => if f.tok.isCtl 4 then s'.flushUnit u f.tok.ev else s

/-! Clearing a die's counts -/

/-- A write of TRL_CNT_CLEAR: the counters of a die. -/
def State.writeCntClear (s : State) (d : Nat) (value : Word) : State :=
  let s := s.setReg (Reg.TRL_CNT_CLEAR d) (value &&& 1)
  if nbit value.toNat 0 then
    ((s.lower (F.TRL_OVF_COUNT.count d)).lower (F.TRL_ECC_CORR.count d)).lower (F.TRL_BRIDGE_RETRY.count d)
  else s

/-- TRL_CNT_CLEAR -/
def execTrlCntClear (die : Fin 16) (value : Word) (s : State) : Res := done (if s.up then s.writeCntClear die value else s)

/-- A write of TRL_FSTAT_CLEAR: TRL_FAULT_STAT, TRL_SPILL_STAT, TRL_SCHED_LOG and every TRL_SITE_WAITMAX of a die. -/
def State.writeFstatClear (s : State) (d : Nat) (value : Word) : State :=
  let s := s.setReg (Reg.TRL_FSTAT_CLEAR d) (value &&& 1)
  if nbit value.toNat 0 then
    let s := ((s.setReg (Reg.TRL_FAULT_STAT d) 0).setReg (Reg.TRL_SPILL_STAT d) 0).setReg (Reg.TRL_SCHED_LOG d) 0
    (List.range 104).foldl (fun s k => s.setReg (Reg.TRL_SITE_WAITMAX d k) 0) s
  else s

/-- TRL_FSTAT_CLEAR -/
def execTrlFstatClear (die : Fin 16) (value : Word) (s : State) : Res :=
  done (if s.up then s.writeFstatClear die value else s)

end Sys2Proof.Machine
end

