-- ==== Sys2Proof/Machine/ImageFormat.lean ====
section
/-!
DEFINITION. The image container (R207-R209) and the records of its sections. R209 names the content of the MENUS, BANKSETS,
WEIGHTS, RIDDLE, DECMAP and BRIDLE sections without their bytes: the byte layouts of these records are the model's own
(log 11). COLSCHED and SEEDS follow R302, R341 and R363.
-/
namespace Sys2Proof.Machine

/-- The sections of an image, in the order of its table (R209). -/
def readSections (img : List Byte) : List Section :=
  (List.range (u16 img 0x10)).map (fun i =>
    let o := u64 img 0x18 + 32 * i
    ⟨u16 img o, nbit (u16 img (o + 2)) 0, u32 img (o + 4), u64 img (o + 8), u64 img (o + 16)⟩)

/-- The first section of a type. -/
def findSection (ss : List Section) (kind : Nat) : Option Section := ss.find? (fun x => x.kind == kind)

/-- The bytes of the section of a type; none: empty. -/
def sectionBytes (img : List Byte) (kind : Nat) : List Byte :=
  (findSection (readSections img) kind).elim [] (fun x => sub img x.off x.len)

/-- The entry count of the section of a type. -/
def sectionCount (img : List Byte) (kind : Nat) : Nat :=
  (findSection (readSections img) kind).elim 0 (fun x => x.count)

/-- Where the section of a type begins. -/
def sectionOff (img : List Byte) (kind : Nat) : Nat :=
  (findSection (readSections img) kind).elim 0 (fun x => x.off)

/-- The set bits of a map of `n` bits at byte `o`. -/
def bitList (bs : List Byte) (o n : Nat) : List Nat := (List.range n).filter (fun i => nbit (u8 bs (o + i / 8)) (i % 8))

/-- MENUS record, 64 B: number, tag, bank set, F, DLAT_X, late policy, entry unit and queue [13:11], DEFAULT_MASK at 0x8,
claimed ns at 0x10, input lanes at 0x14, output lanes at 0x20, taps at 0x28. -/
def readMenu (bs : List Byte) : Menu where
  number := u8 bs 0
  tag := u8 bs 1
  set := u8 bs 2
  fold := u8 bs 3
  dlat := u8 bs 4
  maskPolicy := u8 bs 5 == 1
  entry := bits (u16 bs 6) 0 11
  queue := bits (u16 bs 6) 11 3
  mask := BitVec.ofNat 64 (u64 bs 8)
  claimed := u32 bs 0x10
  lanesIn := bitList bs 0x14 96
  lanesOut := bitList bs 0x20 8
  taps := bitList bs 0x28 64

/-- The menus of an image. -/
def readMenus (img : List Byte) : List Menu :=
  let bs := sectionBytes img 1
  (List.range (sectionCount img 1)).map (fun i => readMenu (sub bs (64 * i) 64))

/-- A BANKSETS record, 2,576 B: set, slot index 0-7, unit at 0x2, the slot at 0x10, its four LUT tables at 0x210. -/
structure BankSlot where
  set : Nat
  idx : Nat
  unit : Nat
  slot : List Byte
  luts : List Byte
  deriving DecidableEq, Repr

/-- Length of a BANKSETS record. -/
def bankSlotLen : Nat := 2576

/-- The `n` records of BANKSETS. -/
def banksOf (bs : List Byte) (n : Nat) : List BankSlot :=
  (List.range n).map (fun i =>
    let r := sub bs (bankSlotLen * i) bankSlotLen
    ⟨u8 r 0, u8 r 1, u16 r 2, sub r 0x10 512, sub r 0x210 2048⟩)

/-- The bank slots of an image. -/
def readBanks (img : List Byte) : List BankSlot := banksOf (sectionBytes img 2) (sectionCount img 2)

/-- A weight block: unit, first row, row count, owning menu, and where its data begins in the section. -/
structure Block where
  unit : Nat
  row : Nat
  rows : Nat
  owner : Nat
  off : Nat
  deriving DecidableEq, Repr

/-- The blocks of WEIGHTS: a 16 B head (unit, first row, row count, owner), then 128 B a row. -/
def readBlocks (bs : List Byte) : Nat → Nat → List Block
  | 0, _ => []
  | n + 1, o =>
    let b : Block := ⟨u16 bs o, u16 bs (o + 2), u16 bs (o + 4), u8 bs (o + 6), o + 16⟩
    b :: readBlocks bs n (o + 16 + 128 * b.rows)

/-- The weight blocks of an image. -/
def imageBlocks (img : List Byte) : List Block := readBlocks (sectionBytes img 3) (sectionCount img 3) 0

/-- RIDDLE: eight words of RDL_MENU_SSEL, then records of 28 B: channel, FIELD, SCALE0, SCALE1, FILL, LIMIT, TRACK. -/
def readRiddle (img : List Byte) : List Nat × List (Nat × List Nat) :=
  let bs := sectionBytes img 4
  ((List.range 8).map (fun t => u32 bs (4 * t)),
    (List.range (sectionCount img 4)).map (fun i =>
      (u32 bs (32 + 28 * i), [1, 2, 3, 4, 5, 6].map (fun k => u32 bs (32 + 28 * i + 4 * k)))))

/-- DECMAP: eight lanes of 4 B (kind, tags), a record of 4 B for each menu number (R - 1, die), then features of 8 B (menu, lane,
word, token, token lane). -/
structure DecMap where
  lanes : List (Nat × Nat)
  menus : List (Nat × Nat)
  features : List FeatureSrc
  deriving DecidableEq, Repr

/-- The decision map of an image. -/
def readDecMap (img : List Byte) : DecMap :=
  let bs := sectionBytes img 5
  ⟨(List.range 8).map (fun n => (u8 bs (4 * n), u8 bs (4 * n + 1))),
    (List.range 16).map (fun m => (u8 bs (32 + 4 * m), u8 bs (33 + 4 * m))),
    (List.range (sectionCount img 5)).map (fun i =>
      let o := 96 + 8 * i
      ⟨u8 bs o, u8 bs (o + 1), u8 bs (o + 2), u8 bs (o + 3), u8 bs (o + 4)⟩)⟩

/-- BRIDLE record, 72 B: group, flags (bit 0 trace), the bitmap at 0x8. -/
def readBridle (img : List Byte) : List (Nat × Bool × List Byte) :=
  let bs := sectionBytes img 6
  (List.range (sectionCount img 6)).map (fun i => (u8 bs (72 * i), nbit (u8 bs (72 * i + 1)) 0, sub bs (72 * i + 8) 64))

/-- COLSCHED: a 16 B head with the numbers of entries, zones and variants, then the records of R302 and R341. -/
structure ColSched where
  entries : List (List Byte)
  zones : List (List Byte)
  variants : List (List Byte)
  deriving DecidableEq, Repr

/-- The collective schedules of an image. -/
def readColSched (img : List Byte) : ColSched :=
  let bs := sectionBytes img 7
  let n := u16 bs 0
  let z := u16 bs 2
  let v := u16 bs 4
  ⟨(List.range n).map (fun i => sub bs (16 + 32 * i) 32), (List.range z).map (fun i => sub bs (16 + 32 * n + 16 * i) 16),
    (List.range v).map (fun i => sub bs (16 + 32 * n + 16 * z + 80 * i) 80)⟩

/-- A schedule entry (R302). -/
def readEntry (bs : List Byte) : SchedCfg where
  group := bits (u8 bs 0) 0 6
  op := bits (u8 bs 1) 0 3
  feed := bits (u8 bs 2) 0 3
  die := bits (u8 bs 2) 3 1
  gather := nbit (u8 bs 2) 4
  reduce := bits (u8 bs 2) 5 3
  values := bits (u8 bs 3) 0 3 + 1
  es := 2 ^ bits (u8 bs 3) 4 2
  tag := bits (u8 bs 4) 0 3
  zone := bits (u8 bs 5) 0 6
  size := bits (u16 bs 6) 0 11
  packed := bits (u16 bs 8) 0 12
  offset := u32 bs 0xC

/-- A zone descriptor (R302). -/
def readZone (bs : List Byte) : ZoneCfg :=
  ⟨bits (u16 bs 0) 0 11, bits (u16 bs 2) 0 12, bits (u16 bs 4) 0 12, bits (u8 bs 6) 0 2, bits (u8 bs 6) 2 1⟩

/-- A graft variant (R341). -/
def readVariant (bs : List Byte) : Variant := ⟨bits (u8 bs 0) 0 6, bits (u16 bs 1) 0 9, u8 bs 3, sub bs 0x10 64⟩

/-- SEEDS (R363): the shadow seed, the prescaler records (unit, row, seed) and the tap descriptors (R356). -/
structure Seeds where
  shadow : Nat
  prescalers : List (Nat × Nat × Nat)
  taps : List TapDesc
  deriving DecidableEq, Repr

/-- A tap descriptor (R356). -/
def readTap (bs : List Byte) : TapDesc :=
  ⟨bits (u8 bs 0) 0 6, bits (u8 bs 1) 0 3, bits (u8 bs 1) 3 3, bits (u16 bs 2) 0 11, bits (u16 bs 2) 11 2,
    bits (u32 bs 4) 0 20, bits (u8 bs 8) 0 7, u16 bs 0xA, bits (u32 bs 0xC) 0 21⟩

/-- The seeds of an image. -/
def readSeeds (img : List Byte) : Seeds :=
  let bs := sectionBytes img 8
  let n := u16 bs 8
  ⟨u64 bs 0, (List.range n).map (fun i =>
      let o := 16 + 16 * i
      (bits (u16 bs o) 0 11, bits (u16 bs (o + 2)) 0 12, u64 bs (o + 8))),
    (List.range (u16 bs 10)).map (fun i => readTap (sub bs (16 + 16 * n + 16 * i) 16))⟩

/-- The slots that a bank set holds for a menu; a fill marks every one valid (R214). -/
def menuSlots (banks : List BankSlot) (m : Menu) : List BankSlot :=
  banks.filter (fun b => b.set == m.set && (readHeader b.slot).tag == m.tag)

/-- The dies that a menu uses: those of its slots and of its weight blocks. -/
def menuDies (banks : List BankSlot) (blocks : List Block) (m : Menu) : Nat :=
  let us := (menuSlots banks m).map (fun b => b.unit) ++ (blocks.filter (fun b => b.owner == m.number)).map (fun b => b.unit)
  us.foldl (fun n u => setBit n (uDie u)) 0

/-- Do two blocks share a row? -/
def Block.meets (a b : Block) : Bool := a.unit == b.unit && a.row < b.row + b.rows && b.row < a.row + a.rows

end Sys2Proof.Machine
end

