-- ==== Sys2Proof/Machine/Resident.lean ====
section
/-!
DEFINITION. What is resident (R67, R215, R218, R397): banks, weights, menus in use, shadow mirrors, and the end of a
fallow load, whole or cut short (R219).
-/
namespace Sys2Proof.Machine

/-! Residency -/

/-- The bank set that a bank holds while it is ready. -/
def State.bankSet (s : State) (b : Nat) : Option Nat := if b = 0 then s.image.bank0 else s.image.bank1

/-- Replace what a bank holds. -/
def State.setBankSet (s : State) (b : Nat) (k : Option Nat) : State :=
  if b = 0 then { s with image := { s.image with bank0 := k } } else { s with image := { s.image with bank1 := k } }

/-- The bank that holds the bank set of a menu: its slots are ready (R215). -/
def State.bankOf (s : State) (m : Menu) : Option Nat := [0, 1].find? (fun b => s.bankSet b == some m.set)

/-- Are all weight blocks of a menu in place (R215)? -/
def State.weightsReady (s : State) (m : Menu) : Bool := s.image.weighted.contains m.number

/-- Is a menu resident (R215)? -/
def State.isResident (s : State) (m : Menu) : Bool := (s.bankOf m).isSome && s.weightsReady m

/-- The menu resident under a tag (R67). -/
def State.residentAt (s : State) (t : Nat) : Option Menu := s.image.menus.find? (fun m => m.tag == t && s.isResident m)

/-- The bank that a fill is writing with the bank set of a menu. -/
def State.fillingBank (s : State) (m : Menu) : Option Nat :=
  s.image.fill.bind (fun f => if f.set == m.set then some f.bank else none)

/-- The menu that stands under a tag: the resident one, else one whose slots are ready, else one whose slots are being
filled (log 134). -/
def State.menuAt (s : State) (t : Nat) : Option Menu :=
  ((s.residentAt t).or (s.image.menus.find? (fun m => m.tag == t && (s.bankOf m).isSome))).or
    (s.image.menus.find? (fun m => m.tag == t && (s.fillingBank m).isSome))

/-- Is a graft under way that switches the menu at its orbit: it counts as a pending SELECT_MENU (R344)? -/
def State.graftSwitch (s : State) : Bool := s.groups.any (fun e => e.2.graft.elim false (fun g => g.menu != 0xFF))

/-- A DRAIN that takes effect before the orbit of a graft cancels its switch (R349). -/
def State.dropGraftSwitch (s : State) : State :=
  { s with groups := s.groups.map (fun e => (e.1, { e.2 with graft := e.2.graft.map (fun g => { g with menu := 0xFF }) })) }

/-- Is a graft under way that switches to tag `t`? -/
def State.graftTo (s : State) (t : Nat) : Bool := s.groups.any (fun e =>
  e.2.graft.elim false (fun g => s.image.menus.any (fun m => m.number == g.menu && m.tag == t)))

/-- Is a switch of the menu pending? -/
def State.switchPending (s : State) : Bool := s.bit F.HUB_MENU_CUR.pend_valid || s.graftSwitch

/-- Is a tag in use (R218)? -/
def State.tagInUse (s : State) (t : Nat) : Bool :=
  s.fld F.HUB_MENU_CUR.cur_tag == t || (s.bit F.HUB_MENU_CUR.pend_valid && s.fld F.HUB_MENU_CUR.pend_tag == t) ||
    s.events.any (fun e => e.tag == t) || s.graftTo t

/-- The menus in use (R218). -/
def State.usedMenus (s : State) : List Menu := s.image.menus.filter (fun m => s.tagInUse m.tag && (s.bankOf m).isSome)

/-- A menu that is resident now: DEC_MENU_MAP holds its values (R233); under another number or image than remembered, the counts of its tag
start at 0 (R67). -/
def State.noteResident (s : State) (m : Menu) : State :=
  let lanes := (List.range 8).foldl (fun n l => if nbit (s.fld (F.DEC_LANE_CFG.tags l)) m.tag then setBit n l else n) 0
  let s := s.setReg (Reg.DEC_MENU_MAP m.tag) (packWord [(m.results - 1, 0), (m.outDie, 2), (lanes, 8)])
  let now := (m.number, s.fld F.HUB_IMG_ID.id)
  if tget (fun _ => none) s.time.tagMemory m.tag = some now then s
  else
    let s := (List.range 16).foldl (fun s j => s.lower (F.TIM_DSLACK_HIST.count m.tag j)) s
    let s := s.lower (F.TIM_MENU_LATE_COUNT.count m.tag)
    { s with time := { s.time with tagMemory := tset (fun _ => none) s.time.tagMemory m.tag (some now) } }

/-- Note every resident menu. -/
def State.noteMenus (s : State) : State := (s.image.menus.filter s.isResident).foldl State.noteResident s

/-! Shadow mirrors (R397) -/

/-- Is a menu shadowable (R397)? -/
def State.shadowable (s : State) (m : Menu) : Bool :=
  s.fld F.CFM_SHD_CFG.dies != 0 && (List.range 16).all (fun d => !nbit m.dies d ||
    (d + 4 * s.fld F.CFM_SHD_CFG.delta < 16 && nbit (s.fld F.CFM_SHD_CFG.dies) (d + 4 * s.fld F.CFM_SHD_CFG.delta)))

/-- The mirror of a tag is no longer whole. -/
def State.dropMirror (s : State) (t : Nat) : State :=
  let s := s.setMapBit F.CFM_SHD_CFG.ready t false
  { s with shadow := { s.shadow with mirrors := s.shadow.mirrors.filter (fun x => x != t) } }

/-- Begin to mirror a menu again, if it is resident and shadowable. -/
def State.remirror (s : State) (m : Menu) : State :=
  let s := s.dropMirror m.tag
  if s.isResident m && s.shadowable m then { s with shadow := { s.shadow with mirrors := s.shadow.mirrors ++ [m.tag] } } else s

/-! Staging -/

/-- The section of a type in staging, with its entry count. -/
def State.stagedSection (s : State) (kind : Nat) : List Byte × Nat := match findSection s.image.sections kind with
  | none => ([], 0)
  | some x => (s.coldRead x.off x.len, x.count)

/-- The bank slots in staging. -/
def State.stagedBanks (s : State) : List BankSlot := banksOf (s.stagedSection 2).1 (s.stagedSection 2).2

/-- The weight blocks in staging. -/
def State.stagedBlocks (s : State) : List Block := readBlocks (s.stagedSection 3).1 (s.stagedSection 3).2 0

/-- Is staging closed to fills: a LOAD_IMAGE runs, or one ended without success (R489, log 33)? -/
def State.stagingClosed (s : State) : Bool := s.image.load.isSome || !s.image.staged

/-! Weight blocks -/

/-- Menus other than `n` whose blocks share a row with a block of `n` lose weights_ready (R219). -/
def State.loseWeights (s : State) (n : Nat) : State :=
  let bs := s.stagedBlocks
  let lost (m : Nat) : Bool := m != n && bs.any (fun a => a.owner == n && bs.any (fun b => b.owner == m && b.meets a))
  let gone := s.image.menus.filter (fun m => lost m.number)
  let s : State := { s with image := { s.image with weighted := s.image.weighted.filter (fun m => !lost m) } }
  gone.foldl (fun s m => if s.isResident m then s else if s.bankOf m == none then s else s.dropMirror m.tag) s

/-- A fallow load has ended: with all blocks written (`whole`), or cut short. -/
def State.endFallow (s : State) (f : Fallow) (whole : Bool) : State :=
  let s : State := { s with image := { s.image with fallow := none } }
  let s := s.lower F.HUB_IMG_STAT.fallow_busy
  if !whole then s
  else
    let had := s.image.weighted.contains f.menu
    let s : State := { s with image := { s.image with
      weighted := if had then s.image.weighted else s.image.weighted ++ [f.menu]
      expectDue := true } }
    (s.image.menus.filter (fun m => m.number == f.menu)).foldl State.remirror s.noteMenus

/-! Results -/

/-- The result words of a LOAD_IMAGE. -/
def State.loadWords (s : State) : List Word := [s.reg Reg.HUB_IMG_ID, s.reg Reg.HUB_IMG_ERRLOC, s.reg Reg.HUB_IMG_ERROFF]

/-- The engine that a command holds (R464). -/
def State.engineOf (s : State) (id : Nat) : Option Nat :=
  (List.range 8).find? (fun e => (s.engine e).mode != .idle && (s.engine e).cmd == id)

/-- The result words of a chunked command whose engine has moved `n` bytes; `mark`: the crossing index of a snapshot. -/
def State.resultWords (s : State) (c : Cmd) (n mark : Nat) : List Word := match c.op with
  | 0x02 => [BitVec.ofNat 32 n]
  | 0x08 => s.loadWords
  | 0x09 => [s.reg Reg.HUB_IMG_STAT]
  | 0x0B => [s.reg Reg.HUB_IMG_STAT]
  | 0x29 => [BitVec.ofNat 32 (min (c.w 2) (n / 9344)), BitVec.ofNat 32 n]
  | 0x31 => BitVec.ofNat 32 (n / 16) :: loHi mark
  | _ => []

/-- The result words of a chunked command at its present progress (R478). -/
def State.partWords (s : State) (c : Cmd) : List Word := match s.engineOf c.id with
  | none => s.resultWords c 0 0
  | some e => s.resultWords c (s.engine e).total (s.engine e).mark

/-- What a chunked command lets go of when it ends before its time (R219, R489). -/
def State.letGo (s : State) (c : Cmd) : State :=
  if c.op = 0x08 then { s with image := { s.image with load := none } }
  else if c.op = 0x0B then match s.image.fallow with
    | some f => if f.cmd = c.id then s.endFallow f false else s
    | none => s
  else s

/-- A chunked command ends before its time, with the progress that it has reached. -/
def State.endEarly (s : State) (c : Cmd) (status : Nat) : State :=
  let s := s.letGo c
  s.finish c.id status (s.partWords c)

end Sys2Proof.Machine
end

