-- ==== Sys2Proof/Machine/Cancel.lean ====
section
/-!
DEFINITION. Ending commands before their time: what a cancel undoes (R461), cancels of a queue (R423), entry to FAULT
(R459, R547), leaving ARMED (R242), and the end of a replay (R394, R395).
-/
namespace Sys2Proof.Machine

/-! The barrier -/

/-- Barrier states of DEC_SYNC_STAT. -/
def syHolding : Nat := 0
/-- WAITING -/
def syWaiting : Nat := 1
/-- RISEN -/
def syRisen : Nat := 2
/-- CONFIRMED -/
def syConfirmed : Nat := 3

/-- The mode of SYNC_N: 3 acts as 1 (R241). -/
def State.syncMode (s : State) : Nat := if s.fld F.DEC_SYNC_CFG.mode = 3 then 1 else s.fld F.DEC_SYNC_CFG.mode

/-- Is tick 0 of a crossing at hand: it is the next tick, or this one? -/
def State.atTick0 (s : State) : Bool := s.time.spool % 32 == 31 || s.time.spool % 32 == 0

/-- The barrier goes to HOLDING: the line is driven low unless the mode is OFF; in BARRIER only from a tick 0 on (R242). -/
def State.holdBarrier (s : State) : State :=
  let s := s.setFld F.DEC_SYNC_STAT.state syHolding
  { s with decision := { s.decision with
    stuckDue := false
    syncDriven := if s.syncMode = 2 && !s.atTick0 then s.decision.syncDriven else s.syncMode != 0 } }

/-- Change the lifecycle state. Leaving ARMED puts the barrier to HOLDING (R242); entering another state outside LIVE and DRAINING
freezes the capture (R388), but for ARMED, on the way to LIVE (log 148). -/
def State.enter (s : State) (n : Nat) : State :=
  let s := s.when (s.life == lifeArmed && n != lifeArmed) State.holdBarrier
  let s := s.when (s.life != n && !([lifeArmed, lifeLive, lifeDraining].contains n)) State.freeze
  s.setLife n

/-! Pending work of a command -/

/-- A pending launch ends (R52, R521). -/
def State.dropLaunch (s : State) : State :=
  let s := (s.lower F.TIM_STATUS.launch_pending).setWide Reg.TIM_LAUNCH_COUNT_LO 0
  { s with time := { s.time with launch := none } }

/-- A waiting TIME_ALIGN ends (R50). -/
def State.dropAlign (s : State) : State :=
  let s := s.lower F.TIM_STATUS.align_pending
  { s with time := { s.time with align := none } }

/-- A pending menu switch ends. -/
def State.dropSwitch (s : State) : State := (s.setFld F.HUB_MENU_CUR.pend_tag 0).lower F.HUB_MENU_CUR.pend_valid

/-- The (die, row, position) that a command's unit address names. -/
def Cmd.cu (c : Cmd) : Option (Nat × Nat × Nat) :=
  (cuPos (uCol (bits (c.w 0) 0 11))).map (fun p => (uDie (bits (c.w 0) 0 11), uRow (bits (c.w 0) 0 11), p))

/-- Send FLUSH to the trellis: to the entry of every menu of the image (R395, R526). -/
def State.sendFlush (s : State) : State :=
  s.image.menus.foldl (fun s m => s.fly (.unit m.entry m.queue) (ctlToken 4 m.tag 0 [] {})) s

/-- The replay ends and its command completes; the device enters LOADED (R394, R395). -/
def State.endReplay (s : State) (status : Nat) (words : List Word) : State := match s.replay with
  | none => s
  | some r =>
    let t : State := { s with
      replay := none, events := [], presented := none
      decision := { s.decision with awaits := [] }, coll := { s.coll with runs := [], retry := [] } }
    (t.enter lifeLoaded).finish r.cmd status (BitVec.ofNat 32 r.count :: words)

/-- DRAIN in REPLAY: FLUSH, ST_ABORTED, LOADED (R395). -/
def State.drainReplay (s : State) : State := s.sendFlush.endReplay stAborted []

/-- Groups whose roll call this command waits for go on without it (R461). -/
def State.orphanGroups (s : State) (id : Nat) : State :=
  { s with groups := s.groups.map (fun e => (e.1, if e.2.cmd = id then { e.2 with cmd := 0 } else e.2)) }

/-- Undo what a cancel of a waiting command undoes (R461); the command itself stays in the table. -/
def State.undo (s : State) (c : Cmd) : State :=
  let s := s.dropEffects c.id
  match c.op with
  | 0x0A => s.dropSwitch
  | 0x38 => s.dropAlign
  | 0x39 => s.dropLaunch
  | 0x09 => match s.image.fill with
    | some f => if f.cmd = c.id then { s with image := { s.image with fill := some { f with cmd := 0 } } } else s
    | none => s
  | 0x20 => match c.cu with
    | some (d, r, p) => s.setJobs (s.spares.jobs.filter (fun j => !(j.die == d && j.row == r && j.pos == p && !j.restore)))
    | none => s
  | 0x21 => match c.cu with
    | some (d, r, p) => s.setJobs (s.spares.jobs.filter (fun j => !(j.die == d && j.row == r && j.pos == p && j.restore)))
    | none => s
  | 0x18 => { s with survey := { s.survey with cmds := s.survey.cmds.filter (fun i => i != c.id) } }
  | 0x19 => s.orphanGroups c.id
  | 0x1A => s.orphanGroups c.id
  | _ => s

/-- A waiting command ends with ST_ABORTED, undone as R461 says. -/
def State.abortWaiting (s : State) (c : Cmd) : State :=
  let s := s.undo c
  s.finish c.id stAborted (s.resultWords c 0 0)

/-- Is a flash write of the command under way? -/
def State.flashing (s : State) (id : Nat) : Bool := s.power.flashOp.elim false (fun o => o.cmd == id && o.started)

/-- A STORE or ERASE that has not begun to write lets go of the flash. -/
def State.dropFlash (s : State) (id : Nat) : State :=
  { s with
    power := { s.power with
      flashOp := s.power.flashOp.filter (fun o => o.cmd != id)
      gauge := s.power.gauge.filter (fun g => g.cmd != id) }
    mgt := { s.mgt with modQueue := s.mgt.modQueue.filter (fun m => !(m.gauge && m.cmd == id)) } }

/-- A transaction of the module bus that a command waits for: on the bus, or in the queue. -/
def State.onModuleBus (s : State) (id : Nat) : Bool := s.mgt.modNow.elim false (fun m => m.cmd == id && !m.gauge)

/-- Cancel a waiting command (R423, R461): at once, or at the end of its flash write, survey round or bus byte. -/
def State.cancelWaiting (s : State) (c : Cmd) : State :=
  if c.op = 0x40 || c.op = 0x41 then
    if s.flashing c.id then
      { s with power := { s.power with flashOp := s.power.flashOp.map (fun o => { o with aborted := true }) } }
    else (s.dropFlash c.id).finish c.id stAborted []
  else if c.op = 0x13 then s.drainReplay
  else if c.op = 0x18 || (c.op = 0x60 && s.onModuleBus c.id) then s.setCmd { c with cancelled := true }
  else if c.op = 0x60 then
    { s with mgt := { s.mgt with modQueue := s.mgt.modQueue.filter (fun m => m.cmd != c.id) } }.finish c.id stAborted []
  else s.abortWaiting c

/-- Cancel one command (R423, R432). -/
def State.cancel (s : State) (c : Cmd) : State := match c.stage with
  | .fetched => s.finish c.id stAborted []
  | .preempted => s.endEarly c stPreempted
  | .running => if c.cls == .chunked then s.setCmd { c with cancelled := true } else s.satInc (F.HUB_QP_COUNT.cancel_miss c.queue)
  | .waiting => if c.cls == .chunked then s.endEarly c stAborted else s.cancelWaiting c
  | .accepted => s.cancelWaiting c

/-- A write of HUB_QP_CANCEL: cancel one command by sequence number, or every one of the queue (R423). -/
def State.writeQpCancel (s : State) (q : Nat) (value : Word) : State :=
  let s := s.setReg (Reg.HUB_QP_CANCEL q) (value &&& 0x1FFFF)
  let cs := s.queueCmds q
  if nbit value.toNat 16 then cs.foldl State.cancel s
  else match cs.find? (fun c => c.seq == bits value.toNat 0 16) with
    | some c => s.cancel c
    | none => s.satInc (F.HUB_QP_COUNT.cancel_miss q)

/-- QP_CANCEL -/
def execQpCancel (q : Fin 16) (value : Word) (s : State) : Res := done (if s.up then s.writeQpCancel q value else s)

/-! FAULT -/

/-- Does entry to FAULT end this command (R459)? -/
def Cmd.faultEnds (c : Cmd) : Bool :=
  (c.stage == .waiting || c.stage == .accepted) && c.cls == .waiting && c.op != 0x40 && c.op != 0x41 && c.op != 0x60

/-- Enter FAULT (R29, R388, R459, R547): the first cause stands; waiting commands end but for STORE, ERASE and MODULE_XFER;
no decision is released any more. -/
def State.enterFault (s : State) (cause : Nat) : State :=
  if s.life = lifeFault then s
  else
    let s := s.capCause s.xindex 0x20000
    let s := ((s.setFld F.HUB_STATE.fault_cause cause).enter lifeFault).freeze
    let s := { s with
      power := { s.power with faultAt := s.time.spool }
      replay := none, events := [], presented := none, decision := { s.decision with awaits := [] }
      survey := { s.survey with phase := 0, cmds := [] } }
    let s := s.lower F.COL_SURVEY_STAT.running
    let starts := (s.effects.filter (fun e => e.kind == .startLive)).map (fun e => e.cmd)
    let ends := sortBy (fun a b => a.id ≤ b.id) (s.cmds.filter (fun c => c.faultEnds || starts.contains c.id))
    ends.foldl State.abortWaiting s

end Sys2Proof.Machine
end

