-- ==== Sys2Proof/Machine/Wire.lean ====
section
/-!
DEFINITION. Tether ports as the rest of the block sees them (chapter 09): flits and pilot items that wait to leave, routes
(R264, R306, R307), messages of TC2 and TC3 (R265), the posted-error ring (R266), and what happens to a message that
cannot go on.
-/
namespace Sys2Proof.Machine

/-! Ports -/

/-- Port states (TTH_PORT_STATE). -/
def psDown : Nat := 0
/-- TRAIN -/
def psTrain : Nat := 1
/-- ALIGN -/
def psAlign : Nat := 2
/-- PARAM -/
def psParam : Nat := 3
/-- MEASURE -/
def psMeasure : Nat := 4
/-- UP -/
def psUp : Nat := 5

/-- Port `p`. -/
def State.port (s : State) (p : Nat) : Port := tget (fun _ => {}) s.links.ports p

/-- Replace port `p` and show its unacknowledged flits. -/
def State.setPort (s : State) (p : Nat) (v : Port) : State :=
  { s with links := { s.links with ports := tset (fun _ => {}) s.links.ports p v } }.setFld (F.TTH_PORT_STATE.outstanding p)
    (min 255 v.unacked.length)

/-- The state of port `p`. -/
def State.portState (s : State) (p : Nat) : Nat := s.fld (F.TTH_PORT_STATE.state p)

/-- Is the port UP? -/
def State.portUp (s : State) (p : Nat) : Bool := s.portState p == psUp

/-- Is the port miswired (R277)? -/
def State.miswired (s : State) (p : Nat) : Bool := nbit (s.fld F.COL_PORT_MISWIRE.mask) p

/-- Does the port carry TC1 to TC3 (R277)? -/
def State.carries (s : State) (p : Nat) : Bool := s.portUp p && !s.miswired p

/-! Pilot items (R255) -/

/-- A pilot item as its 64-bit word. -/
def pilotItem (kind group ordinal word hop value : Nat) : Nat :=
  kind % 4 + 4 * (group % 64) + 256 * (ordinal % 256) + 65536 * (word % 16) + 1048576 * (hop % 8) + 4294967296 * (value % 4294967296)

/-- Queue a pilot item on an UP port (R256). -/
def State.pushPilot (s : State) (p item : Nat) : State :=
  if s.portUp p then s.setPort p { s.port p with pilots := (s.port p).pilots ++ [item] } else s

/-! Routes. Port 2 * axis goes in the + direction of an axis, port 2 * axis + 1 in the - direction. -/

/-- An ID with one coordinate replaced. -/
def withCoord (id a v : Nat) : Nat := id - coord a id * 2 ^ (6 - 3 * a) + (v % 8) * 2 ^ (6 - 3 * a)

/-- The neighbour on a port. -/
def State.neighbour (s : State) (id p : Nat) : Nat :=
  let n := s.extent (p / 2)
  let x := coord (p / 2) id
  withCoord id (p / 2) (if p % 2 = 0 then (x + 1) % n else (x + n - 1) % n)

/-- The port towards `dst` by dimension order, the shorter direction first, + on a tie (R264). -/
def State.routePort (s : State) (at' dst : Nat) : Option Nat :=
  match [0, 1, 2].find? (fun a => coord a at' != coord a dst) with
  | none => none
  | some a =>
    let n := s.extent a
    let up := (coord a dst + n - coord a at') % n
    some (if up ≤ n - up then 2 * a else 2 * a + 1)

/-- A route hop by hop: (package, port it leaves by), with at most `fuel` hops. -/
def State.follow (s : State) (next : Nat → Option Nat) : Nat → Nat → List (Nat × Nat)
  | 0, _ => []
  | fuel + 1, c => match next c with
    | none => []
    | some p => (c, p) :: s.follow next fuel (s.neighbour c p)

/-- The successor-bound (`sign` 0) or predecessor-bound (`sign` 1) route from `a` to `b`, in dimension order (R306). -/
def State.ringPath (s : State) (sign a b : Nat) : List (Nat × Nat) :=
  s.follow (fun c => ([0, 1, 2].find? (fun k => coord k c != coord k b)).map (fun k => 2 * k + sign)) 24 a

/-- The route of R264 between two packages. -/
def State.shortPath (s : State) (a b : Nat) : List (Nat × Nat) := s.follow (fun c => s.routePort c b) 24 a

/-- The route of collective data of a group from `a` to `b` (R307). -/
def State.dataPath (s : State) (g a b : Nat) : List (Nat × Nat) :=
  let ms := s.members g
  if s.bit (brBox g) || !ms.contains a || !ms.contains b then s.ringPath 0 a b
  else
    let i := (ms.idxOf? a).getD 0
    let j := (ms.idxOf? b).getD 0
    let n := ms.length
    (List.range ((j + n - i) % n)).flatMap (fun k => s.ringPath 0 (ms.getD ((i + k) % n) a) (ms.getD ((i + k + 1) % n) a))

/-- The port by which data that came in on port `q` (none: it starts here) leaves this package, on a route; where the route enters twice
by that port, as it does after the second time, since nothing in a flit tells the two apart (log 151). -/
def State.portOn (s : State) (path : List (Nat × Nat)) (q : Option Nat) : Option Nat :=
  match q with
  | none => path.head?.map (fun e => e.2)
  | some q => ((path.zip (path.drop 1)).reverse.find? (fun e => e.2.1 == s.self && e.1.2 == (if q % 2 = 0 then q + 1 else q - 1))).map
      (fun e => e.2.2)

/-- The ports of this package on the ring routes of a group (R332). -/
def State.groupPorts (s : State) (g : Nat) : List Nat :=
  let ms := s.members g
  let paths := [0, 1, 2].flatMap (fun a => ms.flatMap (fun m =>
    let r := ringOf ms m a
    let x := r.getD (((r.idxOf? m).getD 0 + 1) % max 1 r.length) m
    [s.ringPath 0 m x, s.ringPath 1 x m]))
  distinct (paths.flatMap (fun l => l.flatMap (fun e =>
    (if e.1 = s.self then [e.2] else []) ++
      (if s.neighbour e.1 e.2 = s.self then [if e.2 % 2 = 0 then e.2 + 1 else e.2 - 1] else []))))

/-! The posted-error ring (R266) -/

/-- Show whether the ring holds a record. -/
def State.showPe (s : State) : State := s.setFld F.TTH_STATUS.pe_pending (b2n (s.fld F.TTH_PE_HEAD.head != s.fld F.TTH_PE_TAIL.tail))

/-- File a posted error: its code, tag, far package, address and length. -/
def State.filePe (s : State) (code tag far addr len : Nat) : State :=
  let ws := [packWord [(tag % 4096, 0), (code % 16, 12), (far % 512, 16)], BitVec.ofNat 32 addr,
    packWord [(addr / 2 ^ 32 % 256, 0), (len % 1024, 8)], BitVec.ofNat 32 s.time.spool]
  let (ok, s) := s.logWrite F.TTH_PE_HEAD.head F.TTH_PE_TAIL.tail (Reg.TTH_PE_RING 0 0) 0x10 64 ws
  if ok then s.showPe else (s.satInc F.TTH_PE_STAT.overflow).raise F.TTH_STATUS.pe_overflow

/-! Messages (R265) -/

/-- A message header. -/
def msgHead (op status dst src tag addr len : Nat) : List Byte :=
  leBytes 1 op ++ leBytes 1 status ++ leBytes 2 dst ++ leBytes 2 src ++ leBytes 2 tag ++ leBytes 5 addr ++ [0] ++ leBytes 2 len

/-- Operation of a message. -/
def msgOp (m : List Byte) : Nat := u8 m 0
/-- Status. -/
def msgStatus (m : List Byte) : Nat := u8 m 1
/-- Destination. -/
def msgDst (m : List Byte) : Nat := u16 m 2 % 512
/-- Source. -/
def msgSrc (m : List Byte) : Nat := u16 m 4 % 512
/-- Tag. -/
def msgTag (m : List Byte) : Nat := u16 m 6 % 4096
/-- Address. -/
def msgAddr (m : List Byte) : Nat := u32 m 8 + 4294967296 * u8 m 12
/-- Length of the data that it moves. -/
def msgLen (m : List Byte) : Nat := u16 m 14

/-- Bytes of a message: WRITE, MGMT and a good READ_RESP carry data (log 28). -/
def msgBytes (m : List Byte) : Nat :=
  16 + (if msgOp m = 1 || msgOp m = 5 || (msgOp m = 3 && msgStatus m = 0) then msgLen m else 0)

/-- The flits that `n` bytes take. -/
def flitsFor (n : Nat) : Nat := (n + 47) / 48

/-- The flits of a message: 48 bytes of payload each, a head that each keeps, and the buffer that each holds here, if it is on its way
through (R262). -/
def cutFlits (tc : Nat) (dl : Bool) (head bs : List Byte) (back : Option (Nat × Nat) := none) : List Cargo :=
  (List.range (flitsFor bs.length)).map (fun i =>
    { tc := tc, kind := 2, first := i == 0, dl := dl, payload := padTo 48 (sub bs (48 * i) 48), head := head, back := back })

/-- Queue the flits of a message on a port. -/
def State.pushFlits (s : State) (p tc : Nat) (fs : List Cargo) : State :=
  let v := s.port p
  s.setPort p (if tc = 1 then { v with out1 := v.out1 ++ fs } else if tc = 2 then { v with out2 := v.out2 ++ fs }
    else { v with out3 := v.out3 ++ fs })

/-! Credits that go back (R262) -/

/-- Owe the sender on a port `n` credits of a class. -/
def State.oweCredit (s : State) (p key : Nat) (n : Nat := 1) : State :=
  let v := s.port p
  let owed := if v.owed.any (fun e => e.1 == key) then v.owed.map (fun e => if e.1 = key then (key, e.2 + n) else e)
    else v.owed ++ [(key, n)]
  if n = 0 then s else s.setPort p { v with owed := owed }

/-- A flit leaves the buffer that it held, if any. -/
def State.freeBuffer (s : State) (c : Cargo) : State := c.back.elim s (fun b => s.oweCredit b.1 b.2)

/-- The credit key of the flits of a message: 0-63 TC1 of a group (R310), 64 and 65 TC2 by dateline lane, 66 TC3. -/
def Message.key (m : Message) : Nat := if m.tc = 1 then u8 m.bytes 0 % 64 else if m.tc = 2 then 64 + b2n m.dl else 66

/-- A message leaves the buffers of its port. -/
def State.freeMessage (s : State) (m : Message) : State :=
  if m.owes then s.oweCredit m.port m.key (flitsFor m.bytes.length) else s

/-- The buffers of a port are gone: nothing that came in on it owes a credit any more. -/
def State.forgetBuffers (s : State) (p : Nat) : State :=
  let cargo (c : Cargo) : Cargo := if c.back.any (fun b => b.1 == p) then { c with back := none } else c
  let mail (m : Message) : Message := if m.port = p then { m with owes := false } else m
  { s with links := { s.links with
    inbox := s.links.inbox.map mail
    chunks := s.links.chunks.map mail
    ports := s.links.ports.map (fun e => (e.1, { e.2 with
      out1 := e.2.out1.map cargo, out2 := e.2.out2.map cargo, out3 := e.2.out3.map cargo })) } }

/-- Hand a message to this package. -/
def State.toInbox (s : State) (m : Message) : State := { s with links := { s.links with inbox := s.links.inbox ++ [m] } }

/-- Take the oldest message that passes a test out of the inbox, and out of the buffers of its port. -/
def State.takeMessage (s : State) (p : Message → Bool) : Option (Message × State) :=
  match s.links.inbox.find? p with
  | none => none
  | some m => some (m, State.freeMessage { s with links := { s.links with inbox := s.links.inbox.erase m } } m)

/-- Is a message for this package, with this operation? -/
def State.isHere (s : State) (op : Nat) (m : Message) : Bool := msgDst m.bytes == s.self && msgOp m.bytes == op

/-- Queue a message at a port that carries it. -/
def State.sendOn (s : State) (p tc : Nat) (dl : Bool) (m : List Byte) (back : Option (Nat × Nat) := none) : State :=
  s.pushFlits p tc (cutFlits tc dl (m.take 16) m back)

/-- Send an ERROR_REPORT or a READ_RESP back; one for this package is filed or handed over, one that finds no way is counted
(R266). -/
def State.sendBack (s : State) (m : List Byte) : State :=
  let lost (s : State) : State := if msgOp m = 4 then s.satInc F.TTH_PE_STAT.lost else s
  match s.routePort s.self (msgDst m) with
  | none => if msgOp m = 4 then s.filePe (msgStatus m) (msgTag m) (msgSrc m) (msgAddr m) (msgLen m) else s.toInbox { port := 7, tc := 2, bytes := m }
  | some p => if s.carries p then s.sendOn p 2 false m else lost s

/-- A WRITE or READ_REQ has failed with `code`: tell its source (R266, R268). The far package that the source's record names
is the destination of the message (log 28). -/
def State.failMessage (s : State) (m : List Byte) (code : Nat) : State :=
  match msgOp m with
  | 1 => s.sendBack (msgHead 4 code (msgSrc m) (msgDst m) (msgTag m) (msgAddr m) (msgLen m))
  | 2 => s.sendBack (msgHead 3 code (msgSrc m) (msgDst m) (msgTag m) (msgAddr m) (msgLen m))
  | 4 => s.satInc F.TTH_PE_STAT.lost
  | _ => s

/-- Send a message of TC2 or TC3 on, or hand it to this package; the next port not UP fails it with PE_UNREACHABLE. -/
def State.sendMessage (s : State) (tc : Nat) (dl : Bool) (m : List Byte) : State :=
  match s.routePort s.self (msgDst m) with
  | none => s.toInbox { port := 7, tc := tc, bytes := m, dl := dl }
  | some p => if s.carries p then s.sendOn p tc dl m else s.failMessage m 4

/-- Send a message that came in on its way to another package on; its flits hold the buffers of its port until they leave. -/
def State.forwardMessage (s : State) (m : Message) (dl : Bool) : State :=
  match s.routePort s.self (msgDst m.bytes) with
  | none => s.toInbox m
  | some p =>
    if s.carries p then s.sendOn p m.tc dl m.bytes (if m.owes then some (m.port, m.key) else none)
    else (s.freeMessage m).failMessage m.bytes 4

/-- The dateline lane on which a message goes on (R264): it came in on port `q`. -/
def State.laneOn (s : State) (m : Message) : Bool :=
  if 5 < m.port then false
  else
    let a := m.port / 2
    let here := coord a s.self
    let from' := coord a (s.neighbour s.self m.port)
    match s.routePort s.self (msgDst m.bytes) with
    | none => false
    | some p => p / 2 == a && (m.dl || (from' == 7 && here == 0) || (from' == 0 && here == 7))

/-! Management messages (R265, op 5) -/

/-- The words that a management message is taken to say (log 24). -/
def Mgmt.words : Mgmt → Nat
  | .identityReply ws => ws.length
  | .rollCall .. => 8
  | .outcome .. => 2
  | .retry .. => 2
  | _ => 1

/-- The bytes of a management message: the header of R265, its tag, address and data open (log 24). -/
def State.mgmtBytes (s : State) (dst : Nat) (m : Mgmt) : List Byte :=
  let b (i : Nat) : Byte := Config.mgmtByte s.free i
  msgHead 5 0 dst s.self ((b 0).toNat + 256 * (b 1).toNat) (leNat [b 2, b 3, b 4, b 5, b 6]) (4 * m.words) ++
    (List.range (4 * m.words)).map (fun i => b (7 + i))

/-- Send a management message in TC2, if a port of its route carries it. -/
def State.sendMgmt (s : State) (dst : Nat) (m : Mgmt) : State := match s.routePort s.self dst with
  | none => s
  | some p =>
    if s.carries p then
      let bs := s.mgmtBytes dst m
      State.sendOn { s with free := s.free + 1, links := { s.links with mgmt := (dst, m) :: s.links.mgmt } } p 2 false bs
    else s

/-- A row brings what a management message from a package says: the oldest one from there leaves the inbox (log 24). -/
def State.takeMgmt (s : State) (source : Nat) : State :=
  (s.takeMessage (fun m => s.isHere 5 m && msgSrc m.bytes == source)).elim s (fun r => r.2)

end Sys2Proof.Machine
end

