-- ==== Sys2Proof/Machine/Aborts.lean ====
section
/-!
DEFINITION. Aborts of collective instances (R331-R337): flood windows, originating and flooding, the aborts that a member
holds, and the verdict at the commit tick.
-/
namespace Sys2Proof.Machine

/-! Abort codes (R332) -/

/-- CE_TIMEOUT -/
def ceTimeout : Nat := 1
/-- CE_CHUNK_CHECK -/
def ceChunkCheck : Nat := 2
/-- CE_MEMBER_LOST -/
def ceMemberLost : Nat := 3
/-- CE_ORDER -/
def ceOrder : Nat := 4
/-- CE_VC_EXHAUSTED -/
def ceVcExhausted : Nat := 5
/-- CE_ROLLCALL -/
def ceRollcall : Nat := 6

/-! Groups and runs -/

/-- Group `g` beside its bridle entry. -/
def State.group (s : State) (g : Nat) : Group := tget (fun _ => {}) s.groups g

/-- Replace a group's state. -/
def State.setGroup (s : State) (g : Nat) (v : Group) : State := { s with groups := tset (fun _ => {}) s.groups g v }

/-- Is the group READY here? -/
def State.groupReady (s : State) (g : Nat) : Bool := s.fld (brState g) == grReady

/-- The short-reach flit period in spool ticks (R322): 4.693 ns x 32 f_MCLK, rounded up. -/
def flitTicks (khz : Nat) : Nat := (4693 * 32 * khz + 999999999) / 1000000000

/-- Compute the flood window of a group (R331). -/
def State.floodWindow (s : State) (g : Nat) : State :=
  let khz := s.fld F.TIM_MCLK_FREQ.khz
  let w := 1 + (s.fld (brDiameter g) + 2) * (s.fld F.COL_ABORT_CFG.hop_bound + 4 + 3 * flitTicks khz)
  (s.setFld (F.COL_GROUP_W.w g) w).setGroup g { s.group g with khz := khz }

/-- The windows of READY groups after MCLK has moved by more than 1 % (R331). -/
def State.refreshWindows (s : State) : State :=
  (List.range 64).foldl (fun s g =>
    let old := (s.group g).khz
    let new := s.fld F.TIM_MCLK_FREQ.khz
    if s.groupReady g && old < 100 * (max old new - min old new) then s.floodWindow g else s) s

/-- The run of a group's ordinal. -/
def State.runOf (s : State) (g ordinal : Nat) : Option Run :=
  s.coll.runs.find? (fun r => r.group == g && r.ordinal == ordinal && r.ready)

/-- Is the run neither committed nor aborted? -/
def Run.open (r : Run) : Bool := r.ready && r.verdict == .undecided

/-- The open runs of a group, in ordinal order. -/
def State.openRuns (s : State) (g : Nat) : List Run := s.coll.runs.filter (fun r => r.group == g && r.open)

/-- Flag an event in flight. -/
def State.flagEvent (s : State) (index i : Nat) : State :=
  { s with events := s.events.map (fun e => if e.index = index then { e with flags := setBit e.flags i } else e) }

/-- The 16-bit ordinal nearest to `near` with low byte `lo`. -/
def nearOrdinal (near lo : Nat) : Nat :=
  let d := (lo + 256 - near % 256) % 256
  if d < 128 then (near + d) % 65536 else (near + 65536 + d - 256) % 65536

/-- Of two causes in one tick the lower code counts (R332), but CE_CHUNK_CHECK before CE_TIMEOUT (R347). -/
def codeRank (code : Nat) : Nat := if code = ceChunkCheck then 0 else code

/-- Has a run passed its deadline incomplete before tick `t` (R330)? -/
def State.overdue (s : State) (r : Run) (t : Nat) : Bool :=
  s.life != lifeReplay && r.open && behind t r.deadline && r.done.elim true (fun d => behind d r.deadline)

/-! Flooding (R333) -/

/-- The three items of an ABORT. -/
def abortItems (g : Nat) (a : Abort) (hop : Nat) : List Nat :=
  [pilotItem 3 g a.ordinal 0 hop (a.code + 16 * a.source + 8192 * (a.ordinal / 256)),
   pilotItem 3 g a.ordinal 1 hop a.tick, pilotItem 3 g a.ordinal 2 hop a.event]

/-- Send an ABORT on every UP port that is not miswired, but for `except`. -/
def State.flood (s : State) (g : Nat) (a : Abort) (hop : Nat) (except : Option Nat) : State :=
  [0, 1, 2, 3, 4, 5].foldl (fun s p =>
    if s.carries p && except != some p then (abortItems g a hop).foldl (fun s i => s.pushPilot p i) s else s) s

/-- Remember an ABORT among the last 8 of its group. -/
def State.noteAbort (s : State) (g : Nat) (a : Abort) : State :=
  let v := s.group g
  s.setGroup g { v with seenAborts := ((a.ordinal, a.source) :: v.seenAborts).take 8 }

/-- Count an ABORT that comes too late (R334). -/
def State.lateAbort (s : State) : State := (s.satInc F.COL_ABORT_STAT2.late).raise F.COL_ABORT_EVT.late

/-- Has an ordinal's instance been created already? -/
def State.ordinalPast (s : State) (g ordinal : Nat) : Bool :=
  let d := (ordinal + 65536 - s.fld (brOrdinal g)) % 65536
  32768 ≤ d

/-! The verdict -/

/-- Is `a` before `b`: the earlier origination tick, of which the low 32 bits are known, then the lower originator (R334)? -/
def Abort.before (a b : Abort) : Bool :=
  let d := (b.tick + 2 ^ 32 - a.tick % 2 ^ 32) % 2 ^ 32
  if d = 0 then a.source ≤ b.source else d < 2 ^ 31

/-- The winning ABORT (R334). -/
def winner (l : List Abort) : Option Abort :=
  l.foldl (fun w a => match w with
    | none => some a
    | some b => if b.before a then some b else some a) none

/-- A record of the abort log: the winner, the ABORTs beside it, A and K. -/
def abortRecord (g : Nat) (a : Abort) (extra event commit : Nat) : List Word :=
  [packWord [(g, 0), (a.code, 6), (a.source, 10), (b2n a.own, 19), (a.port, 20)], packWord [(a.ordinal, 0), (extra % 65536, 16)],
    BitVec.ofNat 32 event, BitVec.ofNat 32 commit]

/-- Write a record of the abort log (chapter 12), which follows R196: whether it was kept, and the state. -/
def State.logAbort (s : State) (ws : List Word) : Bool × State :=
  s.logWrite F.COL_ABORT_HEAD.head F.COL_ABORT_TAIL.tail (Reg.COL_ABORT_LOG 0 0) 0x10 32 ws

/-- An ABORT whose code ends the group here (R335)? -/
def Abort.fatal (a : Abort) : Bool := a.code == ceMemberLost || a.code == ceVcExhausted || a.code == ceRollcall

/-- Discard the chunks of an instance that wait at a port and have not begun to leave, and free the buffers that they hold (R335, R340). -/
def State.dropQueued (s : State) (g ordinal : Nat) : State :=
  [0, 1, 2, 3, 4, 5].foldl (fun s p =>
    let v := s.port p
    let mine (c : Cargo) : Bool := u8 c.head 0 % 64 == g && u16 c.head 2 == ordinal
    let begun := v.out1.takeWhile (fun c => !c.first)
    let rest := v.out1.drop begun.length
    if rest.any mine then
      (rest.filter mine).foldl State.freeBuffer (s.setPort p { v with out1 := begun ++ rest.filter (fun c => !mine c) })
    else s) s

/-- Discard the pilot items held of an ordinal (R335). -/
def State.dropItems (s : State) (g ordinal : Nat) : State := match s.vcOf g with
  | none => s
  | some v =>
    let keep (i : Nat) : Bool := bits i 8 8 != ordinal % 256
    if (s.vchan v).items.all keep then s else s.setVchan v { s.vchan v with items := (s.vchan v).items.filter keep }

/-- The engine discards what the instance still holds and marks its buffer (R335). -/
def State.abortRun (s : State) (r : Run) (a : Abort) : State :=
  let z := (s.schedCfg r.entry).zone
  let s := s.setRun { r with verdict := .aborted a.code, unsent := [] }
  let s := { s with coll := { s.coll with
    retry := s.coll.retry.filter (fun e => !(e.2.group == r.group && e.2.ordinal == r.ordinal)) } }
  let s : State := (List.range 16).foldl (fun s v =>
    let c := s.vchan v
    if c.early.any (fun x => x.group == r.group && x.ordinal == r.ordinal) then
      s.setVchan v { c with early := c.early.filter (fun x => !(x.group == r.group && x.ordinal == r.ordinal)) }
    else s) s
  let s := ((s.dropQueued r.group r.ordinal).dropItems r.group r.ordinal).markAborted z
  let extra := r.aborts.length - 1
  let at' := s.fld F.COL_ABORT_HEAD.head
  let (kept, s) := s.logAbort (abortRecord r.group { a with ordinal := r.ordinal } extra r.ev.index r.commit)
  let s := s.setRun { r with verdict := .aborted a.code, unsent := [], record := if kept then some at' else none }
  let s := (s.satInc F.COL_ABORT_STAT.aborts).satAdd F.COL_ABORT_STAT.extra extra
  let s := (s.raise F.COL_ABORT_EVT.abort).flagEvent r.ev.index 5
  if a.fatal && s.groupReady r.group then
    (s.setGroupState r.group grAborted).raise F.COL_ABORT_EVT.group_aborted
  else s

/-- An instance commits (R334, R337): the chunks kept for retries go, and what is still held of its items. -/
def State.commitRun (s : State) (r : Run) : State :=
  let s := (s.setRun { r with verdict := .committed }).dropItems r.group r.ordinal
  { s with coll := { s.coll with
    retry := s.coll.retry.filter (fun e => !(e.2.group == r.group && e.2.ordinal == r.ordinal)) } }

/-- Decide a run now: its earliest ABORT aborts it, none commits it. -/
def State.decideRun (s : State) (r : Run) : State := match winner r.aborts with
  | some a => s.abortRun r a
  | none => s.commitRun r

/-- An ABORT that comes in tick K after the verdict of that tick counts (R346): a commit turns into an abort, and of two ABORTs the
winner stands in the record, with what its code does to the group. -/
def State.amend (s : State) (r : Run) (a : Abort) : State :=
  let r := { r with aborts := r.aborts ++ [a] }
  match r.verdict, winner r.aborts with
  | .aborted code, some w =>
    let s := (s.setRun { r with verdict := .aborted w.code }).satInc F.COL_ABORT_STAT.extra
    let s := match r.record with
      | none => s
      | some i => s.setRegs (Reg.COL_ABORT_LOG (i % 32) 0) (abortRecord r.group { w with ordinal := r.ordinal } (r.aborts.length - 1) r.ev.index r.commit)
    let was := ({ w with code := code } : Abort).fatal
    if w.fatal && !was && s.groupReady r.group then (s.setGroupState r.group grAborted).raise F.COL_ABORT_EVT.group_aborted
    else if was && !w.fatal && s.fld (brState r.group) == grAborted then s.setGroupState r.group grReady
    else s
  | _, some w => s.abortRun r w
  | _, none => s

/-! Holding, originating and taking ABORTs -/

/-- An ABORT applies here: to its run, or held for a run to come, also while the group forms, or late (R333, R334, R346). -/
def State.holdAbort (s : State) (g : Nat) (a : Abort) : State := match s.runOf g a.ordinal with
  | some r =>
    if r.open && (s.life == lifeReplay || !behind s.time.spool r.commit) then
      s.setRun { r with aborts := r.aborts ++ [a], originated := r.originated || a.own }
    else if s.life != lifeReplay && !r.open && s.time.spool == r.commit then s.amend r a
    else s.lateAbort
  | none =>
    let st := s.fld (brState g)
    if st == grForming || st == grGrafting || (st == grReady && !s.ordinalPast g a.ordinal) then
      { s with coll := { s.coll with heldAborts := s.coll.heldAborts ++ [(g, a)] } }
    else if s.ordinalPast g a.ordinal then s.lateAbort
    else s

/-- A CE_MEMBER_LOST in REPLAY ends the replay (R337). -/
def State.lostInReplay (s : State) (a : Abort) : State :=
  if a.code = ceMemberLost && s.life = lifeReplay then s.endReplay stAborted [] else s

/-- This package's own ABORT of an ordinal, if there is one. -/
def State.ownAbort (s : State) (g ordinal : Nat) : Option Abort :=
  ((s.runOf g ordinal).elim [] (fun r => r.aborts) ++
    (s.coll.heldAborts.filter (fun e => e.1 == g && e.2.ordinal == ordinal)).map (fun e => e.2)).find? (fun a => a.own)

/-- Give an own ABORT another code (R332): items that have not left are replaced. -/
def State.recode (s : State) (g : Nat) (a : Abort) (code : Nat) : State :=
  let b := { a with code := code }
  let swap (x : Abort) : Abort := if x == a then b else x
  let s := { s with coll := { s.coll with
    runs := s.coll.runs.map (fun r => if r.group = g then { r with aborts := r.aborts.map swap } else r)
    heldAborts := s.coll.heldAborts.map (fun e => if e.1 = g then (e.1, swap e.2) else e) } }
  let old := (abortItems g a 0).headD 0
  let new := (abortItems g b 0).headD 0
  [0, 1, 2, 3, 4, 5].foldl (fun s p =>
    let v := s.port p
    s.setPort p { v with pilots := v.pilots.map (fun i => if i = old then new else i) }) s

/-- Originate an ABORT (R332): at most one for an instance; of two causes in one tick the lower code counts, and a run that had passed its
deadline in an earlier tick has CE_TIMEOUT of that tick. The crossing of an instance that does not exist yet is a free value (log 9). -/
def State.originate (s : State) (g ordinal code port tick : Nat) : State :=
  match s.ownAbort g ordinal with
  | some a => if a.tick = tick % 2 ^ 32 && codeRank code < codeRank a.code then s.recode g a code else s
  | none =>
    let r := s.runOf g ordinal
    if r.elim false (fun r => !r.open || r.originated) then s
    else
      let (free, s1) := s.takeFree
      let (ev, s) := match r with
        | some r => (r.ev.index % 2 ^ 32, s)
        | none => (free.toNat % 2 ^ 32, s1)
      let (code, port, tick) := match r with
        | some r => if s.overdue r s.time.spool && behind tick (r.deadline + 1) then (ceTimeout, 7, r.deadline + 1) else (code, port, tick)
        | none => (code, port, tick)
      let a : Abort := { code := code, source := s.self, tick := tick % 2 ^ 32, event := ev, ordinal := ordinal, own := true, port := port }
      (((s.noteAbort g a).holdAbort g a).flood g a 0 none).lostInReplay a

/-- A flit of a group without a channel is refused on port `p` (R340): CE_VC_EXHAUSTED for its instance, once. A package without that
instance writes the record at once, with A and K free: they are known to members only (log 9). -/
def State.refuseChunk (s : State) (g ordinal p : Nat) : State :=
  if (s.runOf g ordinal).isSome then s.originate g ordinal ceVcExhausted p s.time.spool
  else if (s.group g).seenAborts.contains (ordinal, s.self) then s
  else
    let (free, s) := (s.originate g ordinal ceVcExhausted p s.time.spool).takeFree
    let a : Abort := { code := ceVcExhausted, source := s.self, tick := 0, event := 0, ordinal := ordinal, own := true, port := p }
    (s.logAbort (abortRecord g a 0 free.toNat (free.toNat / 2 ^ 32))).2

/-- A whole ABORT has come in on port `p` (R333). -/
def State.takeAbort (s : State) (p g : Nat) (a : Abort) (hop : Nat) : State :=
  if (s.group g).seenAborts.contains (a.ordinal, a.source) then s
  else
    let s := (s.noteAbort g a).flood g a (min 7 (hop + 1)) (some p)
    (if s.isMember g then s.holdAbort g a else s).lostInReplay a

/-- Does a part lack a word of the ABORT? -/
def AbortPart.lacks (x : AbortPart) (word : Nat) : Bool := if word = 1 then x.w1.isNone else if word = 2 then x.w2.isNone else false

/-- Does an ABORT that has come in part on port `p` lack this word? -/
def State.abortLacks (s : State) (p g lo word : Nat) : Bool :=
  (tget (fun _ => []) (s.port p).aborts g).any (fun x => x.lo == lo && x.lacks word)

/-- Give a word to the newest part that lacks it: that part, and the list without it. -/
def fillPart (lo word value : Nat) : List AbortPart → Option (AbortPart × List AbortPart)
  | [] => none
  | x :: l =>
    if x.lo = lo && x.lacks word then some (if word = 1 then { x with w1 := some value } else { x with w2 := some value }, l)
    else (fillPart lo word value l).map (fun r => (r.1, x :: r.2))

/-- One ABORT item on port `p`: word 0 begins an ABORT, words 1 and 2 go to the newest that lacks them, and with all three it is whole. -/
def State.abortItem (s : State) (p g lo word hop value : Nat) : State :=
  let v := s.port p
  let parts := tget (fun _ => []) v.aborts g
  let put (l : List AbortPart) : State := s.setPort p { v with aborts := tset (fun _ => []) v.aborts g l }
  match (if word = 0 then some ({ lo := lo, w0 := some value }, parts) else fillPart lo word value parts) with
  | none => s
  | some (x, rest) => match x.w0, x.w1, x.w2 with
    | some w0, some w1, some w2 =>
      let a : Abort := { code := bits w0 0 4, source := bits w0 4 9, tick := w1, event := w2, ordinal := lo + 256 * bits w0 13 8 }
      (put rest).takeAbort p g a hop
    | _, _, _ => put (x :: rest)

/-! Deadlines and commit ticks -/

/-- Chunks that found the early store full and no release in their tick land nothing: CE_ORDER at that tick (R311, R324). -/
def State.settleOver (s : State) : State :=
  let late := s.coll.overrun.filter (fun e => e.2 != s.time.spool)
  late.foldl (fun s e =>
    ((s.satInc F.COL_EARLY_STAT.overflow).raise F.COL_ENG_EVT.order_err).originate e.1.group e.1.ordinal ceOrder 7 e.2)
    { s with coll := { s.coll with overrun := s.coll.overrun.filter (fun e => e.2 == s.time.spool) } }

/-- Is CE_TIMEOUT of a run to be originated, or to take the place of an own ABORT of the same tick (R330, R332)? -/
def State.deadlineDue (s : State) (r : Run) : Bool :=
  s.overdue r s.time.spool && (match s.ownAbort r.group r.ordinal with
    | none => !r.originated
    | some a => a.tick == (r.deadline + 1) % 2 ^ 32 && codeRank ceTimeout < codeRank a.code)

/-- A member that is not complete at D originates CE_TIMEOUT at D + 1 (R330). -/
def State.deadlineRun (s : State) (r : Run) : State :=
  if s.deadlineDue r then s.originate r.group r.ordinal ceTimeout 7 (r.deadline + 1) else s

/-- Is the run's commit tick reached (R334)? In REPLAY a run that holds an ABORT is decided (R337). -/
def State.commitDue (s : State) (r : Run) : Bool :=
  r.open && (if s.life == lifeReplay then !r.aborts.isEmpty else !behind r.commit s.time.spool)

/-- Deadlines and commit ticks up to now, of every run, in order of creation. -/
def State.decideDue (s : State) : State :=
  (s.coll.runs.map (fun r => r.id)).foldl (fun s i =>
    match s.coll.runs.find? (fun r => r.id == i) with
    | none => s
    | some r =>
      let s := s.deadlineRun r
      match s.coll.runs.find? (fun r => r.id == i) with
      | none => s
      | some r => if s.commitDue r then s.decideRun r else s) s.settleOver

/-- COLLECTIVE_DEADLINE: the first run that passes its deadline incomplete. -/
def execCollectiveDeadline (s : State) : Res :=
  let s' := s.settleOver
  unstalled s (match s'.coll.runs.find? s'.deadlineDue with
  | none => s'
  | some r => s'.deadlineRun r)

/-- COLLECTIVE_COMMIT: the first run whose commit tick is reached is decided. -/
def execCollectiveCommit (s : State) : Res :=
  let s' := s.settleOver
  unstalled s (match s'.coll.runs.find? s'.commitDue with
  | none => s'
  | some r => s'.decideRun r)

end Sys2Proof.Machine
end

