-- ==== Sys2Proof/Machine/Lanes.lean ====
section
/-!
DEFINITION. Input lanes (chapter 03): bit and block lock, frame lock in both modes, the checks of a frame, filing in
the alignment buffer, and the lane registers with rules of their own.
-/
namespace Sys2Proof.Machine

/-- INL_LANE_STATE codes (R83). -/
def lsDown : Nat := 0
/-- CDR -/
def lsCdr : Nat := 1
/-- BLOCK_HUNT -/
def lsBlockHunt : Nat := 2
/-- FRAME_HUNT -/
def lsFrameHunt : Nat := 3
/-- CAND -/
def lsCand : Nat := 4
/-- LOCKED -/
def lsLocked : Nat := 5

/-- The state of lane `n`. -/
def State.laneState (s : State) (n : Nat) : Nat := s.fld (F.INL_LANE_STATE.state (n / 48) (n % 48))

/-- Show lane `n` in the lock registers of its die. -/
def State.showLock (s : State) (n : Nat) (b : Bool) : State :=
  if n % 48 < 32 then s.setMapBit (F.INL_LOCK_LO.locked (n / 48)) (n % 48) b
  else s.setMapBit (F.INL_LOCK_HI.locked (n / 48)) (n % 48 - 32) b

/-- Enter a lane state. -/
def State.setLaneState (s : State) (n st : Nat) : State :=
  (s.setFld (F.INL_LANE_STATE.state (n / 48) (n % 48)) st).showLock n (st == lsLocked)

/-- Show the number of Raw-W candidates. -/
def State.setCands (s : State) (n : Nat) (l : List Cand) : State :=
  (s.setLane n { s.lane n with cands := l }).setFld (F.INL_LANE_STATE.cand_count (n / 48) (n % 48)) l.length

/-- How many entries of a history are true. -/
def countTrue (l : List Bool) : Nat := l.countP (fun b => b)

/-- Show the CRC history. -/
def State.setCrcBad (s : State) (n : Nat) (l : List Bool) : State :=
  (s.setLane n { s.lane n with crcBad := l }).setFld (F.INL_LANE_STATE.crc_fail_64 (n / 48) (n % 48)) (countTrue l)

/-- Forget the receiver's partial work; the alignment buffer stays. -/
def State.clearReceiver (s : State) (n : Nat) : State :=
  let l := s.lane n
  let s := s.setLane n { l with hdrCount := 0, hdrBad := [], newest := none, cand := none, skip := 0, blocks := [],
                                crcBad := [], cands := [], phase := none, joinWait := false, joinFrom := 0 }
  let o := Reg.INL_LANE_STATE (n / 48) (n % 48)
  s.setReg o (s.reg o &&& 0x7)

/-- An alignment slot with nothing filed. -/
def noSlot (_ : Nat) : Slot := .empty

/-- The slot of crossing index `a` (R93). -/
def State.slot (s : State) (n a : Nat) : Slot := tget noSlot (s.lane n).slots (a % 64)

/-- Set a slot. -/
def State.setSlot (s : State) (n a : Nat) (v : Slot) : State :=
  s.setLane n { s.lane n with slots := tset noSlot (s.lane n).slots (a % 64) v }

/-- The nominal crossing of a frame checked now: r + 1 + d (R89). -/
def State.nominal (s : State) (n : Nat) : Nat :=
  s.xindex + 1 + s.fld (F.INL_LANE_ALIGN.depth (n / 48) (n % 48))

/-- Does the lane file and mark frames whose nominal crossing is `a` (R98)? While the orbit boundary that it joins at lies ahead,
those whose nominal crossing is that boundary or comes after it, as the counters stand. -/
def State.joined (s : State) (n a : Nat) : Bool :=
  if (s.lane n).joinWait then decide (s.fld F.TIM_ORBIT_LEN.len ≤ s.time.crossing + (a - s.xindex)) else decide ((s.lane n).joinFrom ≤ a)

/-- A discarded frame marks its nominal slot bad, if nothing good is filed there (R94, R102). -/
def State.markBad (s : State) (n : Nat) : State :=
  let a := s.nominal n
  if s.joined n a && s.slot n a == .empty then s.setSlot n a .bad else s

/-- Count a lane event. -/
def State.laneLost (s : State) (n : Nat) : State := s.raise (F.INL_LANE_EVT.lock_lost (n / 48) (n % 48))

/-- A control block of type 0xE5 (R85). -/
def isHeaderBlock (b : Nat × BitVec 64) : Bool := b.1 == 2 && b.2.toNat % 256 == 0xE5

/-- The words as sent, with polarity inverted where configured (R77). -/
def State.rawWords (s : State) (n : Nat) (ws : List Word) : List Word :=
  if s.bit (F.INL_LANE_CFG.rx_invert (n / 48) (n % 48)) then ws.map (fun w => ~~~w) else ws

/-- Does a Raw-W frame begin with the marker? -/
def State.rawMarker (s : State) (n : Nat) (ws : List Word) : Bool :=
  ws.getD 0 0 == s.reg (Reg.INL_LANE_MARKER (n / 48) (n % 48))

/-- Does the CRC of a Raw-W frame hold (R81)? -/
def rawCrcOk (ws : List Word) : Bool := crc32c (wordBytes ((ws.drop 1).take 22)) == ws.getD 23 0

/-! What a frame holds, and its checks (R78-R81, R87-R89) -/

/-- A frame as its lane sees it: is its start where it is expected, is it well formed, does its CRC hold, and what it
carries. -/
structure Seen where
  start : Bool
  formOk : Bool
  crcOk : Bool
  capacity : Nat
  data : LaneData
  deriving DecidableEq, Repr

/-- Keep the bytes below `plen`; the others read 0 (R88). -/
def cutPayload (plen : Nat) (bs : List Byte) : List Byte := padTo bs.length (bs.take plen)

/-- The 12 blocks of a 66B frame (R78-R80). -/
def see66 (bl : List (Nat × BitVec 64)) : Seen :=
  let h := (bl.getD 0 (0, 0)).2.toNat
  let t := (bl.getD 11 (0, 0)).2.toNat
  let pay := ((bl.drop 1).take 10).flatMap (fun b => leBytes 8 b.2.toNat)
  let start := isHeaderBlock (bl.getD 0 (0, 0))
  { start := start
    formOk := start && (bl.getD 11 (0, 0)).1 == 2 && bits t 0 8 == 0xD2 && bits h 52 4 == 1 && bits h 27 1 == 0 &&
      bits h 56 8 == 0 && ((bl.drop 1).take 10).all (fun b => b.1 == 1)
    crcOk := crc32c (leBytes 7 (h >>> 8) ++ pay) == BitVec.ofNat 32 (bits t 8 32)
    capacity := 80
    data := ⟨bits h 8 12, bits h 20 7, bits h 28 8, bits h 36 16, cutPayload (bits h 20 7) pay,
      leBytes 7 (h >>> 8) ++ pay, BitVec.ofNat 32 (bits t 8 32)⟩ }

/-- The 24 words of a Raw-W frame (R81, R87). -/
def State.seeRaw (s : State) (n : Nat) (ws : List Word) : Seen :=
  let w := (ws.getD 1 0).toNat
  let pay := padTo 84 (wordBytes ((ws.drop 2).take 21))
  { start := s.rawMarker n ws
    formOk := s.rawMarker n ws && bits w 27 5 == 0
    crcOk := rawCrcOk ws
    capacity := 84
    data := ⟨bits w 0 12, bits w 12 7, bits w 19 8, 0, cutPayload (bits w 12 7) pay,
      wordBytes ((ws.drop 1).take 22), ws.getD 23 0⟩ }

/-- The expected header value of the crossing `k` after the current one (R89). -/
def State.expected (s : State) (k : Nat) : Nat :=
  (((s.project k).crossing + s.fld (F.INL_XOFFSET.xoffset 0)) % s.fld F.TIM_ORBIT_LEN.len) % 4096

/-- The smallest crossing of the alignment window whose expected header value matches (R89, R103). -/
def State.fileAt (s : State) (n xing : Nat) : Option Nat :=
  let d := s.fld (F.INL_LANE_ALIGN.depth (n / 48) (n % 48))
  ((List.range (s.fld (F.INL_LANE_ALIGN.win (n / 48) (n % 48)) + 1)).find? (fun j =>
    s.expected (1 + d + j) == xing)).map (fun j => s.xindex + 1 + d + j)

/-- File a frame that passed every check, and show it (R89). -/
def State.fileFrame (s : State) (n a : Nat) (f : LaneData) : State :=
  let d := n / 48
  let i := n % 48
  let s := s.setSlot n a (.good f)
  let s := s.setReg (Reg.INL_LANE_HDR d i) (packWord [(f.xingLo, 0), (f.plen, 12), (f.feFlags, 19)])
  s.when (!s.rawMode n) (fun s => s.setFld (F.INL_LANE_SRC.source_id d i) f.source)

/-- The checks of R88 in their order: a frame is counted for the first it fails. -/
def State.checkFrame (s : State) (n : Nat) (f : Seen) : State :=
  let d := n / 48
  let i := n % 48
  if !f.formOk then (s.satInc (F.INL_LANE_ERR1.form_err d i)).markBad n
  else if !f.crcOk then (s.satInc (F.INL_LANE_ERR0.crc_err d i)).markBad n
  else if f.capacity < f.data.plen then (s.satInc (F.INL_LANE_ERR1.len_err d i)).markBad n
  else match s.fileAt n f.data.xingLo with
    | none => (s.satInc (F.INL_LANE_ERR2.win_err d i)).markBad n
    | some a =>
      match s.slot n a with
      | .good _ => (s.satInc (F.INL_LANE_ERR2.dup d i)).markBad n
      | _ => if s.joined n (s.nominal n) then s.fileFrame n a f.data else s

/-! Loss of lock -/

/-- Is a frame of the 66B or Raw-W lane under way: in 66B when its first block has come; in Raw-W always (log 19)? -/
def State.partialFrame (s : State) (n : Nat) : Bool := s.rawMode n || (s.lane n).blocks.length % 12 != 0

/-- A frame whose 12 blocks have come is checked, at the latest when lock is lost (R88, R601). -/
def State.checkPending (s : State) (n : Nat) : State :=
  let bs := (s.lane n).blocks
  if bs.length < 12 then s else (s.setLane n { s.lane n with blocks := bs.drop 12 }).checkFrame n (see66 (bs.take 12))

/-- Lock is lost in LOCKED: a frame that is complete is still checked, and the partial frame is discarded and its nominal
slot marked bad (R99). -/
def State.dropPartial (s : State) (n : Nat) : State :=
  if s.laneState n != lsLocked then s
  else
    let s := s.checkPending n
    if s.partialFrame n then s.markBad n else s

/-- Return to CDR from any state, counted as R83 states. -/
def State.toCdr (s : State) (n : Nat) : State :=
  let st := s.laneState n
  let d := n / 48
  let i := n % 48
  let s := s.dropPartial n
  let s := s.when (!s.rawMode n && (st == lsFrameHunt || st == lsLocked)) (fun s => s.satInc (F.INL_LANE_ERR4.blk_loss d i))
  let s := s.when (s.rawMode n && st == lsLocked) (fun s => s.satInc (F.INL_LANE_ERR4.frm_loss d i))
  let s := s.when (st == lsLocked) (fun s => s.laneLost n)
  (s.clearReceiver n).setLaneState n lsCdr

/-- Is the lane's mode rate, from the measured MCLK, within 15.0-25.0 Gb/s (R76)? In kb/s. -/
def rateOk (bitsPerCrossing khz : Nat) : Bool := 15000000 ≤ bitsPerCrossing * khz && bitsPerCrossing * khz ≤ 25000000

/-- The rate check of lane `n`. -/
def State.laneRateOk (s : State) (n : Nat) : Bool :=
  rateOk (if s.rawMode n then 768 else 792) (s.fld F.TIM_MCLK_FREQ.khz)

/-- The rate check made when MCLK has been measured, or a lane enabled: outside the range an enabled lane returns to or
stays in CDR and sets rate_err (R76). -/
def State.checkRate (s : State) (n : Nat) : State :=
  if s.laneState n = lsDown || s.laneRateOk n then s
  else (if s.laneState n = lsCdr then s else s.toCdr n).raise (F.INL_LANE_EVT.rate_err (n / 48) (n % 48))

/-- LANE_BIT_LOCK: the lane leaves CDR for BLOCK_HUNT or CAND, unless its rate is out of range (R76, R83). -/
def execLaneBitLock (lane : Fin 96) (s : State) : Res :=
  done (if s.laneState lane != lsCdr then s
  else if !s.laneRateOk lane then s.checkRate lane
  else s.setLaneState lane (if s.rawMode lane then lsCand else lsBlockHunt))

/-- LANE_SIGNAL_LOSS: loss of signal or bit lock returns the lane to CDR from any state but DOWN (R83, R99). -/
def execLaneSignalLoss (lane : Fin 96) (s : State) : Res :=
  done (if s.laneState lane = lsDown then s else s.toCdr lane)

/-- One bit through the self-synchronous descrambler x^58 + x^39 + 1 (R78): the register holds the received bits. -/
def descrambleBit (a : Nat × Nat × Nat) (b : Nat) : Nat × Nat × Nat :=
  let out := (b + bits a.1 38 1 + bits a.1 57 1) % 2
  ((2 * a.1 + b) % 2 ^ 58, a.2.1 + out * 2 ^ a.2.2, a.2.2 + 1)

/-- The bits of a payload, bit 0 first. -/
def payloadBits (p : BitVec 64) : List Nat := (List.range 64).map (fun i => bits p.toNat i 1)

/-- Descramble one block's payload: the new register and the payload. -/
def descramble (st : Nat) (p : BitVec 64) : Nat × BitVec 64 :=
  let r := (payloadBits p).foldl descrambleBit (st, 0, 0)
  (r.1, BitVec.ofNat 64 r.2.1)

/-- Lose frame lock (R85, R86): the lane hunts again. -/
def State.loseFrameLock (s : State) (n : Nat) : State :=
  let s := (s.satInc (F.INL_LANE_ERR4.frm_loss (n / 48) (n % 48))).laneLost n
  let h := (s.lane n).hdrBad
  let s := (s.clearReceiver n).setLaneState n (if s.rawMode n then lsCand else lsFrameHunt)
  s.setLane n { s.lane n with hdrBad := h }

/-- Declare frame lock: frames are delivered from the first one that begins from now on (R87, R98). Block lock goes on, with the header
marks that it has (R84). -/
def State.gainLock (s : State) (n skip : Nat) (phase : Option Nat) : State :=
  let d := n / 48
  let i := n % 48
  let h := (s.lane n).hdrBad
  let s := s.clearReceiver n
  let s := s.setLane n { s.lane n with
    hdrBad := h, skip := skip, phase := phase, joinWait := s.bit (F.INL_LANE_CFG.join_at_orbit d i) }
  (s.setLaneState n lsLocked).raise (F.INL_LANE_EVT.lock_gained d i)

/-- The frame hunt takes the newest block: it sets, confirms or clears the candidate; 8 hits lock the lane (R85). -/
def State.huntFrame (s : State) (n : Nat) : State :=
  let l := s.lane n
  match s.laneState n == lsFrameHunt, l.newest with
  | true, some b =>
    match l.cand with
    | none => s.setLane n { l with newest := none, cand := if isHeaderBlock b then some (0, 1) else none }
    | some (k, h) =>
      if k < 12 then s.setLane n { l with newest := none }
      else if !isHeaderBlock b then s.setLane n { l with newest := none, cand := none }
      else if h + 1 < 8 then s.setLane n { l with newest := none, cand := some (0, h + 1) }
      else s.gainLock n 11 none
  | _, _ => s

/-- The lock statistics of a frame: missing starts (in 66B counted with its first block) and CRC failures of the last 64
frames (R85, R86, R97). -/
def State.frameStats (s : State) (n : Nat) (f : Seen) : State :=
  let d := n / 48
  let i := n % 48
  let m := s.fld (F.INL_LANE_STATE.miss_run d i)
  let miss := if !s.rawMode n then m else if f.start then 0 else m + 1
  let h := ((f.formOk && !f.crcOk) :: (s.lane n).crcBad).take 64
  let burst := decide (countTrue (s.lane n).crcBad < 8) && decide (8 ≤ countTrue h)
  let s := (s.setFld (F.INL_LANE_STATE.miss_run d i) miss).setCrcBad n h
  let s := s.when burst (fun s => s.raise (F.INL_LANE_EVT.crc_burst d i))
  if 4 ≤ miss || 16 ≤ countTrue h then s.loseFrameLock n else s

/-- The oldest 12 blocks of a LOCKED 66B lane are checked as a frame (R88). -/
def State.frame66 (s : State) (n : Nat) : State :=
  let l := s.lane n
  let f := see66 (l.blocks.take 12)
  ((s.setLane n { l with blocks := l.blocks.drop 12 }).checkFrame n f).frameStats n f

/-- Lose block lock: 16 invalid headers within the last 64 blocks (R84). -/
def State.loseBlockLock (s : State) (n : Nat) : State :=
  let st := s.laneState n
  let s := (s.dropPartial n).satInc (F.INL_LANE_ERR4.blk_loss (n / 48) (n % 48))
  let s := s.when (st == lsLocked) (fun s => s.laneLost n)
  (s.clearReceiver n).setLaneState n lsBlockHunt

/-- What the rows of a lane have not done when its next block comes, it does now: the frame hunt takes the block before (R85), and of two
complete frames the older is checked (R88; log 137). -/
def State.catchUp (s : State) (n : Nat) : State :=
  let s := s.huntFrame n
  s.when (s.laneState n == lsLocked && decide (24 ≤ (s.lane n).blocks.length)) (fun s => s.frame66 n)

/-- A block while block lock holds: header statistics, then the block waits for the frame hunt or joins the frames in
progress (a frame is checked 12 ns after its last block, when blocks of the next one have come, R601); the fourth frame
in a row that does not begin with type 0xE5 loses frame lock there (R84, R85, R87). The block that ends block lock belongs to the frame
that it stands in (R99). -/
def State.lockedBlock (s : State) (n hdr : Nat) (p : BitVec 64) : State :=
  let d := n / 48
  let i := n % 48
  let s := s.catchUp n
  let bad := !(hdr == 1 || hdr == 2)
  let s := s.when bad (fun s => s.satInc (F.INL_LANE_ERR0.sync_err d i))
  let l := s.lane n
  let hunting := s.laneState n == lsFrameHunt
  let l := { l with hdrBad := (bad :: l.hdrBad).take 64 }
  if 16 ≤ countTrue l.hdrBad then
    (s.setLane n (if hunting || l.skip != 0 then l else { l with blocks := l.blocks ++ [(hdr, p)] })).loseBlockLock n
  else if hunting then s.setLane n { l with newest := some (hdr, p), cand := l.cand.map (fun c => (c.1 + 1, c.2)) }
  else if l.skip != 0 then s.setLane n { l with skip := l.skip - 1 }
  else
    let t := s.setLane n { l with blocks := l.blocks ++ [(hdr, p)] }
    let miss := if isHeaderBlock (hdr, p) then 0 else s.fld (F.INL_LANE_STATE.miss_run d i) + 1
    if l.blocks.length % 12 != 0 then t
    else if miss < 4 then t.setFld (F.INL_LANE_STATE.miss_run d i) miss
    else ((((s.setLane n l).checkPending n).satInc (F.INL_LANE_ERR1.form_err d i)).markBad n).loseFrameLock n

/-- A block in BLOCK_HUNT (R84). -/
def State.huntBlock (s : State) (n hdr : Nat) : State :=
  let l := s.lane n
  if !(hdr == 1 || hdr == 2) then s.setLane n { l with hdrCount := 0 }
  else if l.hdrCount + 1 < 64 then s.setLane n { l with hdrCount := l.hdrCount + 1 }
  else (s.setLane n { l with hdrCount := 0, hdrBad := [], newest := none, cand := none }).setLaneState n lsFrameHunt

/-- LANE_66B_BLOCK: header (1 data 0b01, 2 control 0b10, in sending order) and payload as received. -/
def execLane66bBlock (lane : Fin 96) (header : BitVec 2) (payload : BitVec 64) (s : State) : Res :=
  let n := lane.val
  let inv := s.bit (F.INL_LANE_CFG.rx_invert (n / 48) (n % 48))
  let hdr := (if inv then ~~~header else header).toNat
  let (st, p) := descramble (s.lane n).scrambler (if inv then ~~~payload else payload)
  let s1 := s.setLane n { s.lane n with scrambler := st }
  done (if s.rawMode n then s
  else if s.laneState n = lsBlockHunt then s1.huntBlock n hdr
  else if s.laneState n = lsFrameHunt || s.laneState n = lsLocked then s1.lockedBlock n hdr p
  else s)

/-- LANE_66B_FRAME_HUNT: the frame hunt takes the newest block (R85). -/
def execLane66bFrameHunt (lane : Fin 96) (s : State) : Res := done (s.huntFrame lane)

/-! Raw-W (R81, R86) -/

/-- RAW_MARKER_MATCH: in CAND a marker at a phase that is no candidate makes one, or is counted when four exist. -/
def execRawMarkerMatch (lane : Fin 96) (phase : Fin 768) (s : State) : Res :=
  let l := s.lane lane
  done (if s.laneState lane != lsCand || l.cands.any (fun c => c.phase == phase.val) then s
  else if l.cands.length < 4 then s.setCands lane (l.cands ++ [{ phase := phase }])
  else s.satInc (F.INL_LANE_CAND.cand_overflow (lane / 48) (lane % 48)))

/-- RAW_TRIAL_FRAME: a candidate's trial frame of 24 words ends (R86). -/
def execRawTrialFrame (lane : Fin 96) (phase : Fin 768) (words : List Word) (s : State) : Res :=
  let l := s.lane lane
  let ws := s.rawWords lane words
  let others := l.cands.filter (fun c => c.phase != phase.val)
  done (match s.laneState lane == lsCand, l.cands.find? (fun c => c.phase == phase.val) with
  | true, some c =>
    let fails := if rawCrcOk ws then c.fails else c.fails + 1
    if !s.rawMarker lane ws then s.setCands lane others
    else if 3 ≤ fails then
      (s.setCands lane others).satInc (F.INL_LANE_CAND.cand_drop_crc (lane / 48) (lane % 48))
    else if c.frames + 1 < 8 then
      s.setCands lane (l.cands.map (fun x => if x.phase = phase.val then { x with frames := c.frames + 1, fails := fails } else x))
    else s.gainLock lane 0 (some phase.val)
  | _, _ => s)

/-! Frames on a LOCKED lane (R85, R86, R88) -/

/-- LANE_FRAME: a frame completes on a LOCKED lane. In 66B it is the oldest 12 blocks received; in Raw-W the 24 words. -/
def execLaneFrame (lane : Fin 96) (words : List Word) (s : State) : Res :=
  done (if s.laneState lane != lsLocked then s
  else if s.rawMode lane then
    let f := s.seeRaw lane (s.rawWords lane words)
    (s.checkFrame lane f).frameStats lane f
  else if (s.lane lane).blocks.length < 12 then s
  else s.frame66 lane)

/-! Registers with rules of their own -/

/-- Clear every lane counter of a die (R97). -/
def State.clearLaneCounters (s : State) (d : Nat) : State :=
  (List.range 48).foldl (fun s i =>
    s.setRegs (Reg.INL_LANE_ERR0 d i) [0, 0, 0, 0, 0, 0]) s

/-- INL_CNT_CLEAR: a write of 1 clears; the register records what was written (R7). -/
def State.writeInlCntClear (s : State) (d : Nat) (value : Word) : State :=
  (s.setReg (Reg.INL_CNT_CLEAR d) (value &&& 1)).when (nbit value.toNat 0) (fun s => s.clearLaneCounters d)

/-- INL_CNT_CLEAR -/
def execInlCntClear (die : Fin 2) (value : Word) (s : State) : Res :=
  done (if s.up then s.writeInlCntClear die value else s)

/-- A write of INL_LANE_CFG: a mode change in LIVE or DRAINING ignores the whole write with cfg_err; elsewhere it
returns the lane to CDR. A disabled lane is DOWN (R75, R91), and so is one whose die is off (R533); disabling a lane is no loss of lock, and
a frame in progress goes without a mark (log 56). -/
def State.writeLaneCfg (s : State) (n : Nat) (value : Word) : State :=
  let d := n / 48
  let i := n % 48
  let old := s.reg (Reg.INL_LANE_CFG d i)
  let v := value &&& 0x1FF
  let change := nbit (old ^^^ v).toNat 1
  if change && s.liveOrDraining then s.raise (F.INL_LANE_EVT.cfg_err d i)
  else if !nbit v.toNat 0 then ((s.setReg (Reg.INL_LANE_CFG d i) v).clearReceiver n).setLaneState n lsDown
  else if s.laneState n = lsDown then
    (s.setReg (Reg.INL_LANE_CFG d i) v).when (s.lanePowered n) (fun s => (s.setLaneState n lsCdr).checkRate n)
  else if change then ((s.toCdr n).setReg (Reg.INL_LANE_CFG d i) v).checkRate n
  else s.setReg (Reg.INL_LANE_CFG d i) v

/-- INL_LANE_CFG_WRITE -/
def execInlLaneCfgWrite (lane : Fin 96) (value : Word) (s : State) : Res :=
  done (if s.up then s.writeLaneCfg lane value else s)

/-- A write of INL_LANE_ALIGN: ignored with cfg_err when d + w passes 63, or in LIVE or DRAINING (R90, R91). -/
def State.writeLaneAlign (s : State) (n : Nat) (value : Word) : State :=
  if s.liveOrDraining || 63 < bits value.toNat 0 6 + bits value.toNat 8 2 then
    s.raise (F.INL_LANE_EVT.cfg_err (n / 48) (n % 48))
  else s.setReg (Reg.INL_LANE_ALIGN (n / 48) (n % 48)) (value &&& 0x33F)

/-- INL_LANE_ALIGN_WRITE -/
def execInlLaneAlignWrite (lane : Fin 96) (value : Word) (s : State) : Res :=
  done (if s.up then s.writeLaneAlign lane value else s)

/-- A write of either copy of INL_XOFFSET sets both; in LIVE or DRAINING it is ignored with cfg_err of every lane of
the die written (R91, R92). -/
def State.writeXoffset (s : State) (d : Nat) (value : Word) : State :=
  if s.liveOrDraining then (List.range 48).foldl (fun s i => s.raise (F.INL_LANE_EVT.cfg_err d i)) s
  else (s.setReg (Reg.INL_XOFFSET 0) (value &&& 0xFFF)).setReg (Reg.INL_XOFFSET 1) (value &&& 0xFFF)

/-- INL_XOFFSET_WRITE -/
def execInlXoffsetWrite (die : Fin 2) (value : Word) (s : State) : Res :=
  done (if s.up then s.writeXoffset die value else s)

/-- A write of INL_LANE_MARKER: all zeros or all ones is ignored with cfg_err (R82). -/
def State.writeLaneMarker (s : State) (n : Nat) (value : Word) : State :=
  if value = 0 ∨ value = 0xFFFFFFFF then s.raise (F.INL_LANE_EVT.cfg_err (n / 48) (n % 48))
  else s.setReg (Reg.INL_LANE_MARKER (n / 48) (n % 48)) value

/-- INL_LANE_MARKER_WRITE -/
def execInlLaneMarkerWrite (lane : Fin 96) (value : Word) (s : State) : Res :=
  done (if s.up then s.writeLaneMarker lane value else s)

end Sys2Proof.Machine
end

