-- ==== Sys2Proof/Machine/Reduce.lean ====
section
/-!
DEFINITION. REDUCE_S, BARRIER and the commit barrier of REPLAY (R317-R321, R337, R339): the pilot items that a member holds,
and the chain and broadcast of each axis.
-/
namespace Sys2Proof.Machine

/-! Chunks as bytes (R308) -/

/-- The message of a chunk: header, data, CRC. -/
def Chunk.bytes (c : Chunk) : List Byte :=
  let h := leBytes 1 c.group ++ leBytes 1 c.zone ++ leBytes 2 c.ordinal ++ leBytes 2 c.gen ++ leBytes 2 c.src ++ leBytes 2 c.dst ++
    leBytes 2 c.row ++ leBytes 2 c.data.length ++ leBytes 1 c.flags ++ leBytes 1 c.attempt
  h ++ c.data ++ leBytes 4 (crc32c (h ++ c.data)).toNat

/-- Read a chunk. -/
def readChunk (bs : List Byte) : Chunk where
  group := u8 bs 0 % 64
  zone := u8 bs 1 % 64
  ordinal := u16 bs 2
  gen := u16 bs 4
  src := u16 bs 6 % 512
  dst := u16 bs 8 % 512
  row := u16 bs 10
  flags := u8 bs 14
  attempt := u8 bs 15
  data := sub bs 16 (u16 bs 12)

/-- Does the CRC of a chunk hold (R309)? -/
def chunkOk (bs : List Byte) : Bool :=
  let n := 16 + u16 bs 12
  bs.length == n + 4 && crc32c (bs.take n) == BitVec.ofNat 32 (leNat (bs.drop n))

/-- The port by which a chunk leaves its source (R306, R307, R321). -/
def State.chunkPort (s : State) (c : Chunk) : Option Nat :=
  s.portOn (if c.sign = 1 then s.ringPath 1 c.src c.dst else s.dataPath c.group c.src c.dst) none

/-- Queue a chunk on its way. -/
def State.sendChunk (s : State) (c : Chunk) : State := match s.chunkPort c with
  | none => s
  | some p => if s.carries p then s.pushFlits p 1 (cutFlits 1 false (c.bytes.take 16) c.bytes) else s

/-- A chunk of a run waits to be sent, in the turn of its channel (R339). -/
def State.queueChunk (s : State) (id : Nat) (c : Chunk) : State :=
  { s with coll := { s.coll with runs := s.coll.runs.map (fun r => if r.id = id then { r with unsent := r.unsent ++ [c] } else r) } }

/-- The row number that marks the chunk of a commit barrier in a group that is no box (log 30). -/
def barrierRow : Nat := 0xFFFF

/-! Items held (R320). An item is held with the axis and direction it came from: its port, from bit 64 on. -/

/-- Keep an item of a group. -/
def State.keepItem (s : State) (g port item : Nat) : State := match s.vcOf g with
  | none => s
  | some v => s.setVchan v { s.vchan v with items := (s.vchan v).items ++ [item + 2 ^ 64 * port] }

/-- Items held of a group. -/
def State.itemsOf (s : State) (g : Nat) : List Nat := (s.vcOf g).elim [] (fun v => (s.vchan v).items)

/-- Is an item one of this ordinal from this port, for the barrier (word 15) or not? -/
def itemOf (ordinal port : Nat) (joined : Bool) (i : Nat) : Bool :=
  bits i 8 8 == ordinal % 256 && i / 2 ^ 64 == port && (bits i 16 4 == 15) == joined

/-- The value of word `w` among items. -/
def wordOf (l : List Nat) (w : Nat) : Option Nat := (l.find? (fun i => bits i 16 4 == w)).map (fun i => bits i 32 32)

/-- The vector that has come whole from a port, for a run (R317, R321). -/
def State.vector (s : State) (r : Run) (port : Nat) : Option (List Int) :=
  let k := s.schedCfg r.entry
  let l := (s.itemsOf r.group).filter (itemOf r.ordinal port r.joined)
  if r.joined then (wordOf l 15).map (fun _ => [])
  else if k.op = 3 then (wordOf l 0).map (fun _ => [])
  else (List.range k.values).mapM (fun i =>
    if k.reduce = 0 || !s.bit (brBox r.group) then
      match wordOf l i, wordOf l (8 + i) with
      | some lo, some hi => some (signed 48 (lo + 2 ^ 32 * (hi % 65536)))
      | _, _ => none
    else (wordOf l i).map (signed 32))

/-- Drop the items of a run from a port. -/
def State.useItems (s : State) (r : Run) (port : Nat) : State := match s.vcOf r.group with
  | none => s
  | some v => s.setVchan v { s.vchan v with items := (s.vchan v).items.filter (fun i => !itemOf r.ordinal port r.joined i) }

/-! One message -/

/-- The words of a vector, in ascending word order (R317). -/
def vectorWords (sum : Bool) (v : List Int) : List (Nat × Nat) :=
  (v.zipIdx).map (fun e => (e.2, unsigned 32 e.1)) ++ (if sum then (v.zipIdx).map (fun e => (8 + e.2, unsigned 48 e.1 / 2 ^ 32)) else [])

/-- Send a vector to the successor (`dir` 0) or predecessor (`dir` 1) on the run's axis; in a group that is no box as a chunk, which waits for its
turn like any other (R321, R339). -/
def State.sendVector (s : State) (r : Run) (dir : Nat) (v : List Int) : State :=
  let k := s.schedCfg r.entry
  let pos := s.fld (brPos r.group r.axis)
  let hop := if dir = 0 then pos else s.fld (brSize r.group r.axis) - 1 - pos
  if s.bit (brBox r.group) then
    let ws := if r.joined then [(15, 0)] else if k.op = 3 then [(0, 0)] else vectorWords (k.reduce == 0) v
    ws.foldl (fun s w => s.pushPilot (2 * r.axis + dir)
      (pilotItem (if r.joined || k.op == 3 then 2 else 1) r.group r.ordinal w.1 hop w.2)) s
  else
    let dst := s.fld (if dir = 0 then brSucc r.group 0 else brPred r.group 0)
    s.queueChunk r.id {
      group := r.group, zone := k.zone, ordinal := r.ordinal, gen := r.gen, src := s.self, dst := dst
      row := if r.joined then barrierRow else 0, flags := 1, attempt := 0
      data := padTo 128 (v.flatMap (fun x => leBytes 6 (unsigned 48 x) ++ [0, 0])), sign := dir }

/-- Combine two vectors (R318). -/
def combine (op : Nat) (a b : List Int) : List Int :=
  (a.zip b).map (fun p => match op with
    | 0 => signed 48 (unsigned 48 (p.1 + p.2))
    | 1 => min p.1 p.2
    | 2 => max p.1 p.2
    | 3 => signed 48 (unsigned 48 p.1 &&& unsigned 48 p.2)
    | _ => signed 48 (unsigned 48 p.1 ||| unsigned 48 p.2))

/-- The result row (R319). -/
def resultRow (op : Nat) (ordinal : Nat) (v : List Int) : List Byte :=
  let sat (x : Int) : Int := if op = 0 then max (-(2 ^ 31)) (min (2 ^ 31 - 1) x) else x
  let m := (v.zipIdx).foldl (fun n e => if sat e.1 != e.1 then n + 2 ^ e.2 else n) 0
  padTo 128 (padTo 32 (v.flatMap (fun x => leBytes 4 (unsigned 32 (sat x)))) ++ leBytes 1 m ++ [0] ++ leBytes 2 ordinal)

/-! The engine -/

/-- All axes are done: the member lands its result, or with the commit barrier the instance commits (R319, R337). -/
def State.endAxes (s : State) (r : Run) : State :=
  if r.joined then s.commitRun r
  else
    let k := s.schedCfg r.entry
    let s := s.setRun { r with axis := 4 }
    let v := if k.op = 3 then List.replicate k.values 0 else r.vec.getD []
    let (bad, s) := s.acceptChunk { group := r.group, zone := k.zone, ordinal := r.ordinal, gen := r.gen, src := s.self, dst := s.self
                                    row := 0, flags := 1, attempt := 0, data := resultRow k.reduce r.ordinal v }
    if bad then s.originate r.group r.ordinal ceOrder 7 s.time.spool else s

/-- Change a run as it stands now. -/
def State.changeRun (s : State) (id : Nat) (f : Run → Run) : State :=
  { s with coll := { s.coll with runs := s.coll.runs.map (fun r => if r.id = id then f r else r) } }

/-- One stage of a run, if what it needs is there (R318). -/
def State.reduceStep (s : State) (id : Nat) : State :=
  match s.coll.runs.find? (fun r => r.id == id) with
  | none => s
  | some r => match r.vec with
    | none => s
    | some own =>
      let op := (s.schedCfg r.entry).reduce
      let n := s.fld (brSize r.group r.axis)
      let pos := s.fld (brPos r.group r.axis)
      if !r.open || 3 < r.axis then s
      else if r.axis = 3 then s.endAxes r
      else if n ≤ 1 then s.setRun { r with axis := r.axis + 1 }
      else if r.bcast then match s.vector r (2 * r.axis) with
        | none => s
        | some t =>
          let s := s.useItems r (2 * r.axis)
          let s := if pos = 0 then s else s.sendVector r 1 t
          s.changeRun id (fun r => { r with vec := some t, axis := r.axis + 1, bcast := false })
      else if pos = 0 then (s.sendVector r 0 own).changeRun id (fun r => { r with bcast := true })
      else match s.vector r (2 * r.axis + 1) with
        | none => s
        | some u =>
          let t := combine op own u
          let s := s.useItems r (2 * r.axis + 1)
          if pos + 1 = n then (s.sendVector r 1 t).changeRun id (fun r => { r with vec := some t, axis := r.axis + 1 })
          else (s.sendVector r 0 t).changeRun id (fun r => { r with bcast := true })

/-- The run of a group whose pilot messages may leave (R339). -/
def State.pilotRun (s : State) (g : Nat) : Option Run :=
  if s.life = lifeReplay then (s.openRuns g).head?
  else (s.openRuns g).find? (fun r => ((s.schedCfg r.entry).op == 3 || (s.schedCfg r.entry).op == 4) && r.axis ≤ 3)

/-- In REPLAY a member whose instance is complete joins the commit barrier, unless it has originated an ABORT (R337). -/
def State.joinRun (s : State) (r : Run) : State :=
  if s.life = lifeReplay && r.done.isSome && !r.originated && !r.joined then
    s.setRun { r with joined := true, axis := 0, bcast := false, vec := some [] }
  else s

/-- Let the pilot engine of a group do what it can. -/
def State.pump (s : State) (g : Nat) : State :=
  Nat.repeat (fun s => match s.pilotRun g with
    | none => s
    | some r => (s.joinRun r).reduceStep r.id) (12 * (s.openRuns g).length) s

/-- The ordinal that a member works on: that of its oldest open instance that is not complete, or the next one (R320). -/
def State.workingOrdinal (s : State) (g : Nat) : Nat :=
  ((s.openRuns g).find? (fun r => r.done.isNone || s.life == lifeReplay)).elim (s.fld (brOrdinal g)) (fun r => r.ordinal)

/-- An item of a member's group: held for the ordinal it works on and the next; further ahead it aborts (R320). -/
def State.memberItem (s : State) (port g item : Nat) : State :=
  if !s.groupReady g then s
  else
    let w := s.workingOrdinal g
    let d := (bits item 8 8 + 256 - w % 256) % 256
    if d ≤ 1 then (s.keepItem g port item).pump g
    else if d < 128 then
      let s := (s.satInc F.COL_PILOT_STAT.far).raise F.COL_ENG_EVT.order_err
      s.originate g (nearOrdinal w (bits item 8 8)) ceOrder 7 s.time.spool
    else s

/-- A REDUCE or BARRIER item: a package that is no member of the group forwards it on the opposite port (R306). -/
def State.reduceItem (s : State) (port g item : Nat) : State :=
  if s.isMember g then s.memberItem port g item
  else s.pushPilot (if port % 2 = 0 then port + 1 else port - 1) item

/-- A message of a group that is no box, as items of axis 0 (R321). -/
def State.reduceChunk (s : State) (port : Nat) (c : Chunk) : State :=
  let dir := port % 2
  let item (w v : Nat) : Nat := pilotItem 1 c.group c.ordinal w 0 v
  if c.row = barrierRow then s.memberItem dir c.group (item 15 0)
  else
    let n := max 1 ((s.entryOfZone c.zone).elim 1 (fun k => (s.schedCfg k).values))
    (List.range n).foldl (fun s i =>
      let v := leNat (sub c.data (8 * i) 6)
      (s.memberItem dir c.group (item i v)).memberItem dir c.group (item (8 + i) (v / 2 ^ 32))) s

end Sys2Proof.Machine
end

