-- ==== Sys2Proof/Machine/Collective.lean ====
section
/-!
DEFINITION. Collective instances at work (R304, R305, R309-R316, R336-R340): their creation, feeds, chunks sent and
received, landed rows, retries, and transit holds.
-/
namespace Sys2Proof.Machine

/-! Creation (R304, R336) -/

/-- Create the instance of entry `k` for an event, or the record by which an entry whose group is not READY consumes its
feed. -/
def State.createRun (s : State) (index : Nat) (ev : EvRef) (k : Nat) : State :=
  let c := s.schedCfg k
  let g := c.group
  let ready := s.groupReady g
  let d := 32 * index + c.offset
  let id := s.coll.nextRun
  let q := tget (fun _ => 0) s.coll.gens k
  let o := s.fld (brOrdinal g)
  let held := (s.coll.heldAborts.filter (fun e => e.1 == g && e.2.ordinal == o)).map (fun e => e.2)
  let r : Run := { id := id, entry := k, group := g, ordinal := o, gen := q, ev := ev, ready := ready, deadline := d
                   commit := d + s.fld (F.COL_GROUP_W.w g) }
  let s : State := { s with events := s.events.map (fun e => if e.index = index then { e with runs := e.runs ++ [id] } else e) }
  let s := s.ownZone c.zone ev (if ready then some q else none)
  let s := { s with coll := { s.coll with nextRun := id + 1 } }
  if ready then
    let r := { r with aborts := held, originated := held.any (fun a => a.own) }
    { s with coll := { s.coll with
      runs := s.coll.runs ++ [r]
      gens := tset (fun _ => 0) s.coll.gens k ((q + 1) % 65536)
      heldAborts := s.coll.heldAborts.filter (fun e => !(e.1 == g && e.2.ordinal == o)) } }.wrapInc (brOrdinal g)
  else
    let s := { s with coll := { s.coll with runs := s.coll.runs ++ [{ r with verdict := .aborted 0 }] } }
    let v := s.zone c.zone
    ((s.setZone c.zone { v with owed := v.owed + 1 }).takeOwed c.zone).flagEvent index 5

/-- The entries of a tag, ascending. -/
def State.entriesOf (s : State) (tag : Nat) : List Nat :=
  (List.range 256).filter (fun k => (s.schedCfg k).op != 0 && (s.schedCfg k).tag == tag)

/-- Create the instances of an event at its presentation, in ascending entry index. -/
def State.createRuns (s : State) (index tag : Nat) (ev : EvRef) : State :=
  (s.entriesOf tag).foldl (fun s k => s.createRun index ev k) s

/-- Forget the runs of an event that is gone, as far as they are decided; an aborted one stays until the buffer that it marks is free (R335). -/
def State.dropRuns (s : State) (ids : List Nat) : State :=
  let waits (r : Run) : Bool :=
    let z := (s.schedCfg r.entry).zone
    r.ready && r.failed && (s.zoneCfg z).nb ≤ s.ahead z r.gen && s.ahead z r.gen < 32768
  { s with coll := { s.coll with runs := s.coll.runs.filter (fun r => r.open || waits r || !ids.contains r.id) } }

/-- Does an event carry COLL_ABORT at its release: an instance aborted, or not decided yet (R336)? -/
def State.collAborted (s : State) (ids : List Nat) : Bool :=
  s.coll.runs.any (fun r => ids.contains r.id && (r.failed || r.open))

/-- A group becomes READY: epoch, ordinals, release counts and the flood window (R289, R311, R331); what its zones still had to release or to
mark for earlier instances is gone. -/
def State.makeReady (s : State) (g epoch : Nat) : State :=
  let ks := (List.range 256).filter (fun k => (s.schedCfg k).op != 0 && (s.schedCfg k).group == g)
  let s := ((s.setFld (brEpoch g) epoch).lower (brOrdinal g)).setGroupState g grReady
  let s : State := { s with coll := { s.coll with runs := s.coll.runs.filter (fun r =>
    r.group != g || r.open || s.events.any (fun e => e.runs.contains r.id)) } }
  let s := ks.foldl (fun s k =>
    let s := { s with coll := { s.coll with gens := tset (fun _ => 0) s.coll.gens k 0 } }
    let z := (s.schedCfg k).zone
    let s := s.setZone z { s.zone z with owners := [] }
    (s.lower (F.COL_LZ_REL.rz z)).landEarly z) s
  s.floodWindow g

/-! Feeds (R305) -/

/-- Data tokens that an instance takes from its feed. -/
def State.feedNeed (s : State) (r : Run) : Nat :=
  let c := s.schedCfg r.entry
  let n := s.fld (brCount r.group)
  match c.op with
  | 1 => n * c.size / 2
  | 2 => (n + 63) / 64 + c.packed
  | 3 => 1
  | _ => 2

/-- The bytes of a fed row. -/
def feedBytes (row : List Lane16 × Bool) : List Byte :=
  (List.range 64).flatMap (fun l => leBytes 2 (row.1.getD l 0).toNat)

/-- A chunk of a run is ready: it lands here, or waits to be sent. -/
def State.readyChunk (s : State) (id : Nat) (c : Chunk) : State :=
  if c.dst = s.self then
    let (bad, s) := s.acceptChunk c
    if bad then s.originate c.group c.ordinal ceOrder 7 s.time.spool else s
  else s.queueChunk id c

/-- The chunk of `bs` from row `first` of a pair on. -/
def State.makeChunk (s : State) (r : Run) (dst row flags : Nat) (data : List Byte) : Chunk :=
  { group := r.group, zone := (s.schedCfg r.entry).zone, ordinal := r.ordinal, gen := r.gen, src := s.self, dst := dst
    row := row, flags := flags, attempt := 0, data := data }

/-- EXCHANGE: the newest fed row may complete a chunk of its block (R314). -/
def State.feedExchange (s : State) (r : Run) : State :=
  let rb := max 1 ((s.schedCfg r.entry).size / 2)
  let i := r.feed.length - 1
  let w := i % rb
  if (w + 1) % 4 != 0 && w + 1 != rb then s
  else
    let first := w / 4 * 4
    let rows := (r.feed.drop (i / rb * rb + first)).take (w + 1 - first)
    let me := s.rank r.group s.self
    s.readyChunk r.id (s.makeChunk r ((s.members r.group).getD (i / rb) 0) (me * rb + first)
      (b2n (w + 1 == rb) + 4 * b2n (rows.any (fun x => x.2))) (rows.flatMap feedBytes))

/-- The counts of an EXCHANGE_V, by destination rank (R315). -/
def feedCounts (feed : List (List Lane16 × Bool)) (n : Nat) : List Nat :=
  (List.range n).map (fun j => ((feed.getD (j / 64) ([], false)).1.getD (j % 64) 0).toNat)

/-- The slot of destination `j` of an EXCHANGE_V: its bytes, and what is dropped. -/
def State.exchangeSlot (s : State) (r : Run) (j : Nat) : List Byte × Nat :=
  let c := s.schedCfg r.entry
  let n := s.fld (brCount r.group)
  let ln := (n + 63) / 64
  let cnts := feedCounts r.feed n
  let start := ((cnts.take j).foldl (fun a x => a + x) 0) * c.es
  let packed := (r.feed.drop ln).take c.packed
  let cnt := cnts.getD j 0
  let kept := min (min cnt (64 * c.size / c.es)) ((c.packed * 128 - start) / c.es)
  let head := padTo 64 (leBytes 2 s.self ++ leBytes 2 r.ordinal ++ leBytes 2 kept ++ leBytes 2 (cnt - kept) ++ leBytes 1 c.es)
  let data := sub (((packed.drop (start / 128)).take ((kept * c.es + 255) / 128)).flatMap feedBytes) (start % 128) (kept * c.es)
  let all := head ++ data
  (padTo ((all.length + 127) / 128 * 128) all, cnt - kept)

/-- Does chunk `i` of the slot of destination `j` hold something of a fed row that is an ERROR (R313): the length row behind its header,
or a packed row whose elements it brings? -/
def State.slotErr (s : State) (r : Run) (j i : Nat) : Bool :=
  let c := s.schedCfg r.entry
  let n := s.fld (brCount r.group)
  let cnts := feedCounts r.feed n
  let start := ((cnts.take j).foldl (fun a x => a + x) 0) * c.es
  let kept := min (min (cnts.getD j 0) (64 * c.size / c.es)) ((c.packed * 128 - start) / c.es)
  let lo := max 64 (512 * i) - 64
  let hi := min (64 + kept * c.es) (512 * (i + 1)) - 64
  let first := (start + lo) / 128
  let rows := (((r.feed.drop ((n + 63) / 64)).take c.packed).drop first).take ((start + hi + 127) / 128 - first)
  (i == 0 && (r.feed.getD (j / 64) ([], false)).2) || (lo < hi && rows.any (fun x => x.2))

/-- EXCHANGE_V: all rows are there; the chunks of every pair (R315, R316). -/
def State.feedExchangeV (s : State) (r : Run) : State :=
  let c := s.schedCfg r.entry
  let me := s.rank r.group s.self
  (s.members r.group).zipIdx.foldl (fun s d =>
    let (bs, drop) := s.exchangeSlot r d.2
    let s := s.when (drop != 0) (fun s => (s.satAdd F.COL_DROP_STAT.dropped drop).raise F.COL_ENG_EVT.drop)
    let n := (bs.length + 511) / 512
    (List.range n).foldl (fun s i =>
      s.readyChunk r.id (s.makeChunk r d.1 (me * c.slotRows + 4 * i) ((if i + 1 = n then 3 else 0) + 4 * b2n (s.slotErr r d.2 i))
        (sub bs (512 * i) 512))) s) s

/-- The values of a wide pair (R163, R305). -/
def pairValues (lo hi : List Lane16) (n : Nat) : List Int :=
  (List.range n).map (fun i => signed 32 ((lo.getD i 0).toNat + 65536 * (hi.getD i 0).toNat))

/-- A data token of an instance's feed (R305, R313, R320). -/
def State.feedRow (s : State) (r : Run) (t : Token) : State :=
  let bad := t.errData
  let r := { r with feed := r.feed ++ [(if bad then [] else t.lanes, bad)] }
  let s := s.setRun r
  let c := s.schedCfg r.entry
  let full := r.feed.length == s.feedNeed r
  if !r.open || s.feedNeed r < r.feed.length then s
  else match c.op with
    | 1 => s.feedExchange r
    | 2 => if full then s.feedExchangeV r else s
    | _ =>
      let s := s.when bad (fun s => (s.raise F.COL_ENG_EVT.order_err).originate r.group r.ordinal ceOrder 7 s.time.spool)
      if !full || r.feed.any (fun x => x.2) then s
      else
        let v := if c.op = 3 then [] else pairValues (r.feed.getD 0 ([], false)).1 (r.feed.getD 1 ([], false)).1 c.values
        match s.coll.runs.find? (fun x => x.id == r.id) with
        | none => s
        | some x => (s.setRun { x with vec := some v }).pump r.group

/-- The runs of an event on a feed, in entry order. -/
def State.feedRuns (s : State) (die n : Nat) (ev : EvRef) : List Run :=
  s.coll.runs.filter (fun r => r.ev == ev && (s.schedCfg r.entry).die == die && (s.schedCfg r.entry).feed == n)

/-- Flags that an EVENT_END brings to a feed belong to the event at the decision output as well (R170): ARITH_OVF, SPILLED, ERROR. -/
def State.feedFlags (s : State) (ev : EvRef) (w : Nat) : State :=
  if ev.shadow then s
  else
    let s := s.when (nbit w 0) (fun s => s.flagEvent ev.index 6)
    let s := s.when (nbit w 1) (fun s => s.flagEvent ev.index 7)
    s.when (nbit w 2) (fun s => s.flagEvent ev.index 1)

/-- The end of an event's feed: too few or too many tokens abort the instances that they touch (R305). -/
def State.feedEnd (s : State) (die n : Nat) (ev : EvRef) : State :=
  (s.feedRuns die n ev).foldl (fun s r =>
    if r.open && r.feed.length != s.feedNeed r then
      (s.raise F.COL_ENG_EVT.order_err).originate r.group r.ordinal ceOrder 7 s.time.spool
    else s) s

/-- Is the retry store of a tether die full, in REPLAY (R338)? -/
def State.retryFull (s : State) (die : Nat) : Bool :=
  s.life == lifeReplay && 256 ≤ (s.coll.retry.filter (fun e => e.1 == die)).length

/-- FEED_TOKEN: the oldest token on its way to feed `n` of tether die `die`. In REPLAY a full retry store stalls the feed (R338). -/
def execFeedToken (die : Fin 2) (n : Fin 8) (s : State) : Res := unstalled s (match s.takeFlight (.feed die n) with
  | none => s
  | some (f, s') =>
    if s.retryFull die then s
    else if f.tok.operand then
      let rs := s'.feedRuns die n f.tok.ev
      match (rs.find? (fun r => r.feed.length < s'.feedNeed r)).or rs.getLast? with
      | none => s'
      | some r => s'.feedRow r f.tok
    else if f.tok.isCtl 1 then (s'.feedFlags f.tok.ev (f.tok.lane 0).toNat).feedEnd die n f.tok.ev
    else s')

/-! Sending (R314, R339) -/

/-- Does a run still have chunks to send: of its feed, or, in a group that is no box, of its reduction or its commit barrier (R321, R337)? -/
def State.sends (s : State) (r : Run) : Bool :=
  let op := (s.schedCfg r.entry).op
  !r.unsent.isEmpty || ((op == 1 || op == 2) && r.feed.length < s.feedNeed r) ||
    (!s.bit (brBox r.group) && (s.life == lifeReplay || ((op == 3 || op == 4) && r.axis ≤ 3)))

/-- The run of a group whose chunks may leave: the oldest that still has any to send (R339). -/
def State.sendingRun (s : State) (g : Nat) : Option Run := (s.openRuns g).find? s.sends

/-- Flits of a group that wait at a port or have not got their credit back (R310). -/
def State.creditUsed (s : State) (p g : Nat) : Nat :=
  tget (fun _ => 0) (s.port p).spent g + ((s.port p).out1.filter (fun c => u8 c.head 0 % 64 == g)).length

/-- The chunk that a channel would send now, with its port: it has the credits for the whole chunk (log 152). -/
def State.sendable (s : State) (v : Nat) : Option (Run × Chunk × Nat) :=
  match s.vcGroup v with
  | none => none
  | some g => match s.sendingRun g with
    | none => none
    | some r => match r.unsent.head? with
      | none => none
      | some c => match s.chunkPort c with
        | none => none
        | some p =>
          if s.carries p && s.creditUsed p g + flitsFor (20 + c.data.length) ≤ 16 && !s.retryFull (s.schedCfg r.entry).die then some (r, c, p)
          else none

/-- CHUNK_SEND: the next channel in turn that has a chunk and credit sends it; REPLAY keeps a copy (R338, R339). -/
def execChunkSend (s : State) : Res :=
  let turn := (List.range 16).map (fun i => (s.coll.lastServed + 1 + i) % 16)
  unstalled s (match turn.find? (fun v => (s.sendable v).isSome) with
  | none => s
  | some v => match s.sendable v with
    | none => s
    | some (r, c, p) =>
      let die := (s.schedCfg r.entry).die
      let s := s.setRun { r with unsent := r.unsent.drop 1, sent := r.sent + 1 }
      let s := s.pushFlits p 1 (cutFlits 1 false (c.bytes.take 16) c.bytes)
      { s with coll := { s.coll with
        lastServed := v
        retry := if s.life = lifeReplay then s.coll.retry ++ [(die, c)] else s.coll.retry } })

/-! Receiving -/

/-- A chunk whose CRC fails (R309, R332, R338). -/
def State.badChunk (s : State) (c : Chunk) : State :=
  let s := (s.satInc F.COL_CHUNK_STAT.chunk_fail).raise F.COL_ENG_EVT.chunk_err
  if s.life != lifeReplay || 3 ≤ c.attempt then s.originate c.group c.ordinal ceChunkCheck 7 s.time.spool
  else
    let s := s.sendMgmt c.src (.retry c.group c.ordinal c.row)
    (s.satInc F.COL_ABORT_STAT2.retries).raise F.COL_ABORT_EVT.retry

/-- A whole chunk (R309, R311, R321); it leaves the buffers of its port (R262, R310). -/
def State.takeChunk (s : State) (m : Message) : State :=
  let s := s.settleOver.freeMessage m
  let c := readChunk m.bytes
  let op := (s.entryOfZone c.zone).elim 0 (fun k => (s.schedCfg k).op)
  if !chunkOk m.bytes then s.badChunk c
  else if op = 3 || op = 4 || c.row = barrierRow then s.reduceChunk m.port c
  else
    let (bad, s) := s.acceptChunk c
    let s := { s with coll := { s.coll with
      runs := s.coll.runs.map (fun r => if r.group = c.group && r.ordinal = c.ordinal then { r with landed := r.landed + 1 } else r) } }
    if bad then (s.raise F.COL_ENG_EVT.order_err).originate c.group c.ordinal ceOrder 7 s.time.spool else s

/-- CHUNK_RECEIVED: the oldest whole chunk for this package. -/
def execChunkReceived (s : State) : Res := unstalled s (match s.links.chunks with
  | [] => s
  | m :: rest => { s with links := { s.links with chunks := rest } }.takeChunk m)

/-- ROW_LANDING: the oldest row of zone `z` on the landing path is written (R309). -/
def execRowLanding (z : Fin 64) (s : State) : Res := unstalled s (match takeFirst (fun l => l.zone == z.val) s.coll.landing with
  | none => s
  | some (l, rest) =>
    let s := { s with coll := { s.coll with landing := rest } }.landRow l
    match s.entryOfZone z with
    | none => s
    | some k => s.pump (s.schedCfg k).group)

/-- CHUNK_RETRY: the RETRY of package `source` names a chunk kept here; it is sent again with attempt + 1 (R338). -/
def execChunkRetry (source : Fin 512) (group : Fin 64) (ordinal : Fin 65536) (row : Fin 65536) (s : State) : Res :=
  let hit (e : Nat × Chunk) : Bool := e.2.dst == source.val && e.2.group == group.val && e.2.ordinal == ordinal.val && e.2.row == row.val
  let s := s.takeMgmt source
  done (match s.life == lifeReplay, s.coll.retry.find? hit with
  | true, some e =>
    let c := { e.2 with attempt := e.2.attempt + 1 }
    { s with coll := { s.coll with retry := s.coll.retry.map (fun x => if hit x then (x.1, c) else x) } }.sendChunk c
  | _, _ => s)

/-! Transit holds (R340) -/

/-- A TC1 flit of a group: a package with no channel for it takes the lowest free one as a transit hold; false when none is
free. -/
def State.transitFor (s : State) (g : Nat) : Bool × State :=
  if (s.vcOf g).isSome then (true, s)
  else match s.freeVc with
    | none => (false, s)
    | some v => (true, (s.holdVc g v).setMapBit F.COL_TRANSIT_MAP.transit v true)

/-- TRANSIT_IDLE: no TC1 flit of the group of channel `v` for idle_us. -/
def execTransitIdle (v : Fin 16) (s : State) : Res := unstalled s
  (if nbit (s.fld F.COL_TRANSIT_MAP.transit) v then
    (((s.lower (F.COL_VC.held v)).lower (F.COL_VC.group v)).setMapBit F.COL_TRANSIT_MAP.transit v false).setVchan v {}
  else s)

end Sys2Proof.Machine
end

