-- ==== Sys2Proof/Machine/ImageCheck.lean ====
section
/-!
DEFINITION. The checks that LOAD_IMAGE makes (R172, R210, R211, R233, R303, R341, R357, R363). The spec orders the five
steps; the order inside step 5 is the model's (log 26).
-/
namespace Sys2Proof.Machine

/-- Where a check failed: section type, byte offset, unit address. -/
structure ImgErr where
  kind : Nat
  off : Nat
  unit : Nat := 0
  deriving DecidableEq, Repr

/-- The first failure of a list of checks. -/
def firstErr : List (Option ImgErr) → Option ImgErr
  | [] => none
  | some e :: _ => some e
  | none :: rest => firstErr rest

/-- The first item of a list that a test refuses. -/
def refuse {α : Type} (l : List α) (bad : α → Bool) (e : α → ImgErr) : Option ImgErr := (l.find? bad).map e

/-! Step 1 -/

/-- Do the sections lie inside the image, behind the header, before the trailer, and clear of each other and of the
table? -/
def sectionsOk (img : List Byte) : Bool :=
  let total := img.length
  let table := (u64 img 0x18, 32 * u16 img 0x10)
  let spans := table :: (readSections img).map (fun x => (x.off, x.len))
  spans.all (fun p => 64 ≤ p.1 && p.1 + p.2 + 48 ≤ total) &&
    (spans.zipIdx).all (fun p => (spans.zipIdx).all (fun r =>
      p.2 == r.2 || p.1.1 + p.1.2 ≤ r.1.1 || r.1.1 + r.1.2 ≤ p.1.1 || p.1.2 == 0 || r.1.2 == 0))

/-- Step 1 of R211: magic, version, header size, lengths, sections. -/
def containerOk (img : List Byte) : Bool :=
  112 ≤ img.length && (img.take 4).map BitVec.toNat == [0x50, 0x4C, 0x58, 0x49] && u16 img 4 == 2 && u16 img 6 == 64 &&
    u64 img 8 == img.length && 1 ≤ u16 img 0x10 && u16 img 0x10 ≤ 64 && u64 img 0x18 + 32 * u16 img 0x10 + 48 ≤ img.length &&
    sectionsOk img

/-! Step 5 -/

/-- The bank sets of an image, each once: those of its BANKSETS section. The header counts them; their numbers are names
(R207, R209). -/
def imgSets (img : List Byte) : List Nat :=
  (readBanks img).foldl (fun l b => if l.contains b.set then l else l ++ [b.set]) []

/-- Menus (R210). -/
def State.menusErr (s : State) (img : List Byte) : Option ImgErr :=
  let ms := readMenus img
  let sets := imgSets img
  let h := u8 img 0x20 == ms.length && 1 ≤ ms.length && ms.length ≤ 16 && 1 ≤ u8 img 0x21 && u8 img 0x21 ≤ 8 && sets.contains (u8 img 0x13) &&
    (sets.contains (u8 img 0x22) || u8 img 0x22 == 0xFF) && ms.any (fun m => m.number == u8 img 0x23) &&
    (findSection (readSections img) 1).elim false (fun x => x.len == 64 * x.count)
  if !h then some ⟨1, sectionOff img 1, 0⟩
  else refuse ms.zipIdx (fun e =>
    let m := e.1
    15 < m.number || (ms.zipIdx).any (fun f => f.2 < e.2 && f.1.number == m.number) || 7 < m.tag || m.fold < 1 || 8 < m.fold ||
      m.dlat < 7 || 100 < m.dlat || !sets.contains m.set || 5 < m.queue || !(uCol m.entry < 13 && s.unitExposed m.entry))
    (fun e => ⟨1, sectionOff img 1 + 64 * e.2, e.1.entry⟩)

/-- Are these the contexts 0 to F - 1, once each? -/
def contextsOk (f : Nat) (cs : List Nat) : Bool := cs.length == f && (List.range f).all (fun c => cs.contains c)

/-- Bank sets (R210). -/
def banksErr (img : List Byte) : Option ImgErr :=
  let ms := readMenus img
  let bk := readBanks img
  firstErr [
    refuse ms.zipIdx (fun e => (ms.zipIdx).any (fun f => f.2 < e.2 && f.1.set == e.1.set && f.1.tag == e.1.tag))
      (fun e => ⟨1, sectionOff img 1 + 64 * e.2, 0⟩),
    refuse bk.zipIdx (fun e =>
      let b := e.1
      7 < b.set || 7 < b.idx || 2047 < b.unit || 13 ≤ uCol b.unit ||
        (bk.zipIdx).any (fun f => f.2 < e.2 && f.1.set == b.set && f.1.unit == b.unit && f.1.idx == b.idx) ||
        (ms.filter (fun m => m.set == b.set && m.tag == (readHeader b.slot).tag)).any (fun m =>
          let own := (menuSlots bk m).filter (fun x => x.unit == b.unit)
          !contextsOk m.fold (own.map (fun x => (readHeader x.slot).ctx)) ||
            own.any (fun x => (readHeader x.slot).fold != m.fold)))
      (fun e => ⟨2, sectionOff img 2 + bankSlotLen * e.2, e.1.unit⟩)]

/-- All menus that write one output lane have the same DLAT_X (R210). -/
def outLanesErr (img : List Byte) : Option ImgErr :=
  let ms := readMenus img
  refuse ms.zipIdx (fun e => ms.any (fun m => m.dlat != e.1.dlat && m.lanesOut.any (fun n => e.1.lanesOut.contains n)))
    (fun e => ⟨1, sectionOff img 1 + 64 * e.2, 0⟩)

/-- Every tag and context that can reach a unit finds a slot there (R172 item 7): a leader of the menu takes context 0
for its own. -/
def reachOk (bk : List BankSlot) (m : Menu) : Bool :=
  let own := menuSlots bk m
  let has (u c : Nat) : Bool := own.any (fun x => x.unit == u && (readHeader x.slot).ctx == c)
  has m.entry 0 && own.all (fun b => (readRoutes b.slot).all (fun r =>
    !r.used || 13 < uCol r.dest || has r.dest (readHeader b.slot).ctx))

/-- At most one route of the menu ends at any input queue, in one context (R153, R172 item 8). -/
def queuesOk (bk : List BankSlot) (m : Menu) : Bool :=
  let own := menuSlots bk m
  let ends := own.flatMap (fun b => ((readRoutes b.slot).filter RouteCfg.used).filterMap (fun r =>
    if uCol r.dest < 14 then some ((readHeader b.slot).ctx, r.dest, r.queue) else none))
  (ends.zipIdx).all (fun e => (ends.zipIdx).all (fun f => e.2 == f.2 || e.1 != f.1))

/-- Slots (R166, R172 items 6-8). -/
def State.slotsErr (s : State) (img : List Byte) : Option ImgErr :=
  let bk := readBanks img
  firstErr [
    refuse bk.zipIdx (fun e => !s.slotOk e.1.unit e.1.slot) (fun e => ⟨2, sectionOff img 2 + bankSlotLen * e.2, e.1.unit⟩),
    refuse (readMenus img).zipIdx (fun e => !reachOk bk e.1 || !queuesOk bk e.1) (fun e => ⟨1, sectionOff img 1 + 64 * e.2, 0⟩)]

/-- Weight blocks (R210). -/
def weightsErr (img : List Byte) : Option ImgErr :=
  refuse (imageBlocks img) (fun b => 2047 < b.unit || !isMu b.unit || 0xF80 < b.row + b.rows)
    (fun b => ⟨3, sectionOff img 3 + b.off - 16, b.unit⟩)

/-- Would register writes accept these values of a channel (R107, R109, R110, R121, R210)? A write ignores reserved bits (R7). -/
def channelOk (ch : Nat) (ws : List Nat) : Bool :=
  let w (k : Nat) : Nat := ws.getD k 0
  let f := w 0
  ch < 6144 && bits f 17 2 != 3 && bits f 20 2 != 3 && bits (w 1) 0 10 != 0 && bits (w 2) 0 10 != 0 &&
    bits (w 4) 0 10 != 0 && bits (w 4) 16 10 != 0 &&
    (!nbit f 31 || fieldFits (nbit f 16) true (bits f 0 10) (bits f 10 5 + 1))

/-- The riddle (R210). -/
def riddleErrs (img : List Byte) : Option ImgErr :=
  refuse (readRiddle img).2.zipIdx (fun e => !channelOk e.1.1 e.1.2) (fun e => ⟨4, sectionOff img 4 + 32 + 28 * e.2, 0⟩)

/-- The menus of the initial bank sets. -/
def initialMenus (img : List Byte) : List Menu :=
  (readMenus img).filter (fun m => m.set == u8 img 0x13 || m.set == u8 img 0x22)

/-- Initial residency (R210). -/
def residencyErr (img : List Byte) : Option ImgErr :=
  let ms := initialMenus img
  let d := u8 img 0x23
  let bs := imageBlocks img
  let clash := (ms.zipIdx).any (fun e => (ms.zipIdx).any (fun f => f.2 < e.2 && f.1.tag == e.1.tag)) || u8 img 0x13 == u8 img 0x22
  let past := bs.any (fun a => a.owner == d && bs.any (fun b => b.owner != d && ms.any (fun m => m.number == b.owner) && b.meets a))
  if clash || !ms.any (fun m => m.number == d) || past then some ⟨1, sectionOff img 1, 0⟩ else none

/-- The decision map (R233): every lane that a menu writes, by the map or its own record, is on one tether die, and a menu with a feature lane
has a decision lane. -/
def decMapErr (img : List Byte) : Option ImgErr :=
  let dm := readDecMap img
  let o := sectionOff img 5
  let kind (n : Nat) : Nat := (dm.lanes.getD n (0, 0)).1
  firstErr [
    refuse (readMenus img) (fun m =>
      let ls := (List.range 8).filter (fun n => nbit (dm.lanes.getD n (0, 0)).2 m.tag)
      let r := dm.menus.getD m.number (0, 0)
      3 < r.1 || 1 < r.2 || (ls ++ m.lanesOut).any (fun n => n / 4 != r.2) ||
        (ls.any (fun n => kind n == 1) && !ls.any (fun n => kind n == 0)))
      (fun m => ⟨5, o + 32 + 4 * m.number, 0⟩),
    refuse (List.range 8) (fun n => 1 < kind n) (fun n => ⟨5, o + 4 * n, 0⟩),
    refuse dm.features.zipIdx (fun e => 7 < e.1.lane || 39 < e.1.word || 3 < e.1.token || 63 < e.1.tlane)
      (fun e => ⟨5, o + 96 + 8 * e.2, 0⟩)]

/-- Reserved bytes and encodings of a schedule entry (R302, R303). -/
def entryOk (bs : List Byte) : Bool :=
  let k := readEntry bs
  u8 bs 0 < 64 && u8 bs 1 < 8 && u8 bs 3 &&& 0x37 == u8 bs 3 && u8 bs 4 < 8 && u8 bs 5 < 64 && u16 bs 6 < 2048 && u16 bs 8 < 4096 &&
    u16 bs 0xA == 0 && (sub bs 0x10 16).all (fun b => b == 0) && 1 ≤ k.op && k.op ≤ 4 && k.feed != 0 && k.reduce ≤ 4 && k.es != 8 &&
    (2 < k.op || (1 ≤ k.size && k.size ≤ 1024))

/-- Collective schedules and graft variants (R303, R341). -/
def colSchedErr (img : List Byte) : Option ImgErr :=
  let cs := readColSched img
  let br := readBridle img
  let o := sectionOff img 7
  let dm := readDecMap img
  let ent := cs.entries.map readEntry
  let zs := cs.zones.map readZone
  let vs := cs.variants.map readVariant
  let ids (g : Nat) : List Nat := ((br.find? (fun e => e.1 == g)).map (fun e => bitmapIds e.2.2)).getD []
  firstErr [
    if 256 < ent.length || 64 < zs.length || 64 < vs.length then some ⟨7, o, 0⟩ else none,
    refuse br.zipIdx (fun e => 63 < e.1.1) (fun e => ⟨6, sectionOff img 6 + 72 * e.2, 0⟩),
    refuse (cs.zones.zip zs).zipIdx (fun e =>
      let z := e.1.2
      0xF80 < z.base + z.rows * z.bufs || z.bufs == 0 || z.bufs == 3 || !isMu z.unit || 7 < u8 e.1.1 6 ||
        !((sub e.1.1 7 9).all (fun b => b == 0)))
      (fun e => ⟨7, o + 16 + 32 * ent.length + 16 * e.2, e.1.2.unit⟩),
    refuse (cs.entries.zip ent).zipIdx (fun e =>
      let k := e.1.2
      !entryOk e.1.1 || (ids k.group).isEmpty || zs.length ≤ k.zone || (k.op == 1 && k.size % 2 == 1) ||
        (zs.getD k.zone ⟨0, 0, 0, 0, 0⟩).rows < k.fills (ids k.group).length ||
        (ent.zipIdx).any (fun f => f.2 < e.2 && f.1.zone == k.zone) || (readMenus img).any (fun m => m.tag == k.tag && (dm.menus.getD m.number (0, 0)).2 != k.die))
      (fun e => ⟨7, o + 16 + 32 * e.2, 0⟩),
    refuse vs.zipIdx (fun e =>
      let v := e.1
      bitmapIds v.bitmap != (ids v.group).filter (fun m => m != v.omitted) || !(ids v.group).contains v.omitted ||
        (v.menu != 0xFF && !(readMenus img).any (fun m => m.number == v.menu)) ||
        (vs.zipIdx).any (fun f => f.2 < e.2 && f.1.group == v.group && f.1.omitted == v.omitted))
      (fun e => ⟨7, o + 16 + 32 * ent.length + 16 * zs.length + 80 * e.2, 0⟩)]

/-- Do the descriptors of one tap cover every index of 0 to N - 1 exactly once (R357)? -/
def tapCovered (ds : List TapDesc) : Bool := match ds with
  | [] => true
  | d :: _ =>
    let l := sortBy (fun a b => a.first ≤ b.first) ds
    ds.all (fun x => x.n == d.n && 1 ≤ x.lanes && x.lanes ≤ 64) && 1 ≤ d.n && d.n ≤ 1048576 &&
      l.foldl (fun e x => if e == some x.first then some (x.first + x.lanes * x.count) else none) (some 0) == some d.n

/-- Seeds and taps (R357, R363). -/
def seedsErr (img : List Byte) : Option ImgErr :=
  let sd := readSeeds img
  let o := sectionOff img 8
  firstErr [
    if 256 < sd.prescalers.length || 4096 < sd.taps.length then some ⟨8, o, 0⟩ else none,
    refuse sd.prescalers.zipIdx (fun e => !isMu e.1.1 || 0xF80 ≤ e.1.2.1) (fun e => ⟨8, o + 16 + 16 * e.2, e.1.1⟩),
    refuse sd.taps.zipIdx (fun e =>
      !tapCovered (sd.taps.filter (fun d => d.tag == e.1.tag && d.tap == e.1.tap)))
      (fun e => ⟨8, o + 16 + 16 * sd.prescalers.length + 16 * e.2, e.1.unit⟩)]

/-- No unknown required section (R209). -/
def unknownErr (img : List Byte) : Option ImgErr :=
  refuse (readSections img) (fun x => x.required && (x.kind == 0 || 8 < x.kind)) (fun x => ⟨x.kind % 256, x.off, 0⟩)

/-- Step 5 of R211. -/
def State.fitErr (s : State) (img : List Byte) : Option ImgErr := firstErr [
  s.menusErr img, banksErr img, outLanesErr img, s.slotsErr img, weightsErr img, riddleErrs img, residencyErr img,
  decMapErr img, colSchedErr img, seedsErr img, unknownErr img]

/-- The image ID (R208). -/
def imageId (img : List Byte) : Nat := beNat (sub img (img.length - 48) 4)

/-- Steps 1 to 5 of R211: the step that fails, its status, and where. -/
def State.imageErr (s : State) (img : List Byte) : Option (Nat × Nat × ImgErr) :=
  let fw := 256 * s.fld F.HUB_FW_VER.major + s.fld F.HUB_FW_VER.minor
  if !containerOk img then some (1, stParam, ⟨0, 0, 0⟩)
  else if sha384 (img.take (img.length - 48)) != img.drop (img.length - 48) then some (2, stImageDigest, ⟨0, img.length - 48, 0⟩)
  else if fw < 256 * u8 img 0x16 + u8 img 0x17 then some (3, stFwTooOld, ⟨0, 0x16, 0⟩)
  else if u8 img 0x12 != 2 && (u8 img 0x12 == 1) != s.fuses.gradeM then some (4, stImageFit, ⟨0, 0x12, 0⟩)
  else if u16 img 0x14 &&& (s.fld F.DET_FENCE.dies ||| s.fld F.CFM_SHD_CFG.dies) != 0 then some (4, stImageFit, ⟨0, 0x14, 0⟩)
  else (s.fitErr img).map (fun e => (5, stImageFit, e))

end Sys2Proof.Machine
end

