-- ==== Sys2Proof/Machine/Menus.lean ====
section
/-!
DEFINITION. The commands that change which menus are resident (R213-R227): filling a bank of the seed trays,
writing weight blocks into fallow rows, and switching the current menu.
-/
namespace Sys2Proof.Machine

/-! Trays -/

/-- Is this the first byte of a slot of bank `b` at any unit? -/
def slotHead (b a : Nat) : Bool :=
  let o := (a - 0x0200000000) % 0x04000000
  0x0200000000 ≤ a && a < 0x0240000000 && 0x3400000 ≤ o && o < 0x3400000 + 0x2000 * 104 && (o - 0x3400000) % 512 == 0 &&
    (o - 0x3400000) % 0x2000 / 4096 == b

/-- Every slot of a bank becomes invalid (R214). -/
def State.clearBank (s : State) (b : Nat) : State :=
  { s with mem := s.mem.filterMap (fun e =>
    if slotHead b e.1 then
      let v := e.2 &&& 0xFE#8
      if v = 0#8 then none else some (e.1, v)
    else some e) }

/-- The bytes of a slot as a fill writes them: valid (R214), its routes for the places that serve the units (R367, log 147). -/
def State.trayBytes (s : State) (u : Nat) (bs : List Byte) : List Byte :=
  rerouted u s.offset ((bs.getD 0 0 ||| 1#8) :: bs.drop 1)

/-- Write one record of a bank set into its unit's slot and LUT tables, and mark the slot valid. -/
def State.writeSlot (s : State) (b : Nat) (x : BankSlot) : State :=
  let s := s.memWrite (slotAddr (uDie x.unit) (s.site x.unit) (8 * b + x.idx)) (s.trayBytes x.unit x.slot)
  s.memWrite (lutAddr (uDie x.unit) (s.site x.unit) (4 * (8 * b + x.idx))) x.luts

/-- Bank `b` holds set `k` of these records (R213, R214). -/
def State.writeBank (s : State) (bk : List BankSlot) (b k : Nat) : State :=
  let s := ((bk.filter (fun x => x.set == k)).foldl (fun s x => s.writeSlot b x) s).setBankSet b (some k)
  if b = 0 then s.setFld F.HUB_IMG_STAT.bank0_set k else (s.setFld F.HUB_IMG_STAT.bank1_set k).raise F.HUB_IMG_STAT.bank1_valid

/-- Do the menus of set `k` share a tag with a resident menu of another set? -/
def State.tagClash (s : State) (b k : Nat) : Bool :=
  s.image.menus.any (fun m => m.set == k && s.image.menus.any (fun n =>
    n.tag == m.tag && s.isResident n && s.bankOf n == some (1 - b)))

/-- Does a bank hold a menu in use (R218)? -/
def State.bankInUse (s : State) (b : Nat) : Bool := s.usedMenus.any (fun m => s.bankSet b == some m.set)

/-- A fill of bank `b` with set `k` begins: its slots are invalid and its menus gone (R214). -/
def State.startFill (s : State) (id b k : Nat) : State :=
  let gone := s.image.menus.filter (fun m => s.bankSet b == some m.set)
  let s := gone.foldl (fun s m => s.dropMirror m.tag) ((s.clearBank b).setBankSet b none)
  let s := s.when (b == 1) (fun s => (s.lower F.HUB_IMG_STAT.bank1_valid).lower F.HUB_IMG_STAT.bank1_set)
  let s := ((s.raise F.HUB_IMG_STAT.fill_busy).setFld F.HUB_IMG_STAT.fill_bank b).setFld F.HUB_IMG_STAT.fill_set k
  { s with image := { s.image with fill := some ⟨id, b, k⟩ } }

/-- The word of HUB_IMG_STAT as a result. -/
def State.imgStat (s : State) : List Word := [s.reg Reg.HUB_IMG_STAT]

/-- FILL_TRAY (R214, R223, R489). -/
def execFillTray (q : Fin 16) (s : State) : Res :=
  done (s.command 0x09 q (fun _ => [lifeLoaded, lifeArmed, lifeLive, lifeDraining]) (fun c s =>
    let b := bits (c.w 0) 0 1
    let k := bits (c.w 0) 8 3
    if c.sub != 0 || !c.only [0x701] || !s.image.sets.contains k || s.tagClash b k then s.finish c.id stParam s.imgStat
    else if s.image.fill.isSome || s.bankInUse b || s.stagingClosed then s.finish c.id stBusy s.imgStat
    else (s.startFill c.id b k).wait c.id))

/-- FILL_TRAY_DONE: the slots stand, the menus of the set may be resident, INL_EXPECT follows at the next crossing
boundary. -/
def State.fillDone (s : State) (f : Fill) : State :=
  let s := (s.writeBank s.stagedBanks f.bank f.set).lower F.HUB_IMG_STAT.fill_busy
  let s : State := { s with image := { s.image with fill := none, expectDue := true } }
  let s := (s.image.menus.filter (fun m => m.set == f.set)).foldl State.remirror s.noteMenus
  s.finish f.cmd stOk s.imgStat

/-- FILL_TRAY_DONE; ECC may correct errors in the staging region (R383). -/
def execFillTrayDone (s : State) : Res := done (match s.image.fill with
  | none => s
  | some f => (s.corrected 0x4000000).fillDone f)

/-! Weight blocks -/

/-- Is a row of a memory unit fallow (R218)? -/
def State.fallow (s : State) (blocks : List Block) (u row : Nat) : Bool :=
  let used := s.usedMenus
  !(blocks.any (fun b => b.unit == u && b.row ≤ row && row < b.row + b.rows && used.any (fun m => m.number == b.owner))) &&
    !((s.validSlots u).any (fun e => used.any (fun m => m.tag == e.2.tag) && [0, 1].any (fun g =>
      let a := readGen (s.slotBytes u e.1) g
      a.used && a.lo ≤ row && row ≤ a.hi)))

/-- Are all rows of a block fallow? -/
def State.blockFallow (s : State) (blocks : List Block) (b : Block) : Bool :=
  (List.range b.rows).all (fun i => s.fallow blocks b.unit (b.row + i))

/-- The descriptors that move the blocks of a menu from staging to their rows. -/
def State.fallowDescs (s : State) (n : Nat) : List Desc := match findSection s.image.sections 3 with
  | none => []
  | some x => (s.stagedBlocks.filter (fun b => b.owner == n && b.rows != 0)).map (fun b =>
      ⟨.atlas, .atlas, 0, cold (x.off + b.off), rowAddr b.unit b.row, 128 * b.rows⟩)

/-- LOAD_FALLOW (R219, R489): no blocks, nothing to do; else the menus that it overwrites lose weights_ready as it
begins. -/
def execLoadFallow (q : Fin 16) (s : State) : Res :=
  done (s.command 0x0B q (fun _ => [lifeLoaded, lifeArmed, lifeLive, lifeDraining]) (fun c s =>
    let n := bits (c.w 0) 0 4
    let bs := s.stagedBlocks
    if c.sub != 0 || !c.only [0xF] || !s.image.menus.any (fun m => m.number == n) then s.finish c.id stParam s.imgStat
    else if s.image.fallow.isSome || s.stagingClosed then s.finish c.id stBusy s.imgStat
    else if !(bs.filter (fun b => b.owner == n)).all (s.blockFallow bs) then s.finish c.id stState s.imgStat
    else
      let ds := s.fallowDescs n
      if ds.isEmpty then
        let s := s.endFallow ⟨c.id, n⟩ true
        s.finish c.id stOk s.imgStat
      else
        let s := s.startEngine c ds
        if (s.engineIn .running).any (fun e => (s.engine e).cmd == c.id) then
          let s := s.raise F.HUB_IMG_STAT.fallow_busy
          State.loseWeights { s with image := { s.image with fallow := some ⟨c.id, n⟩ } } n
        else s))

/-- Has the engine of a command moved its last byte? -/
def State.moved (s : State) (id : Nat) : Bool :=
  (s.engineIn .running).any (fun e => (s.engine e).cmd == id && (s.engine e).descs.length ≤ (s.engine e).descIdx)

/-- LOAD_FALLOW_DONE: every block has been written. -/
def execLoadFallowDone (s : State) : Res := done (match s.image.fallow with
  | none => s
  | some f => if !s.moved f.cmd then s
    else
      let s := s.endFallow f true
      s.finish f.cmd stOk s.imgStat)

/-! The current menu -/

/-- Make a tag current. -/
def State.switchTo (s : State) (t : Nat) : State := ((s.setFld F.HUB_MENU_CUR.cur_tag t).setFld F.HUB_MENU_CUR.pend_tag 0).lower F.HUB_MENU_CUR.pend_valid

/-- Does a menu use a fenced die (R225)? -/
def State.menuUnfit (s : State) (m : Menu) : Bool :=
  s.image.unfit.contains m.number || m.dies &&& s.fld F.DET_FENCE.dies != 0

/-- SELECT_MENU (R220, R222, R223). -/
def execSelectMenu (q : Fin 16) (s : State) : Res :=
  done (s.command 0x0A q (fun _ => [lifeLoaded, lifeArmed, lifeLive]) (fun c s =>
    let t := bits (c.w 0) 0 3
    let live := s.life == lifeLive
    let x := if live then c.w64 1 else s.xindex
    if c.sub != 0 || !c.only [7] then s.finish c.id stParam []
    else match s.residentAt t with
      | none => s.finish c.id stState []
      | some m =>
        if s.menuUnfit m then s.finish c.id stImageFit []
        else if s.switchPending then s.finish c.id stBusy []
        else if live && !s.farEnough x then s.finish c.id stParam []
        else if s.fld F.HUB_MENU_CUR.cur_tag == t then s.finish c.id stOk (loHi x)
        else if !live then ((s.switchTo t).setWide Reg.HUB_MENU_SWITCH_LO x).finish c.id stOk (loHi x)
        else
          let s := ((s.setFld F.HUB_MENU_CUR.pend_tag t).raise F.HUB_MENU_CUR.pend_valid).setWide Reg.HUB_MENU_SWITCH_LO x
          (s.addEffect ⟨x, c.id, .selectMenu t⟩).wait c.id))

/-- The orbit and crossing of the crossing that begins next. -/
def State.nextId (s : State) : Nat × Nat :=
  if s.time.boundaryDone then (s.time.orbit, s.time.crossing)
  else if s.counter.atEnd then ((s.time.orbit + 1) % 2 ^ 32, s.counter.next.crossing)
  else (s.time.orbit, s.time.crossing + 1)

/-- A pending switch to tag `t` takes effect (R220, R365), unless a DRAIN takes effect at its crossing or before, which cancels it (R224). -/
def State.runSwitch (s : State) (e : Effect) (t : Nat) : State :=
  if s.effects.any (fun d => isDrain d.kind && s.due d) then s.dropSwitch.finish e.cmd stAborted []
  else ((s.switchTo t).trace 6 0 0 0 t { index := e.crossing, orbit := s.nextId.1, crossing := s.nextId.2 }).finish e.cmd stOk (loHi e.crossing)

/-- MENU_SWITCH: at tick 0 of the crossing named. -/
def execMenuSwitch (s : State) : Res := done (match s.takeDue isSelectMenu with
  | some (e, s) => match e.kind with
    | .selectMenu t => s.noting (fun s => s.runSwitch e t)
    | _ => s
  | none => s)

end Sys2Proof.Machine
end

