-- ==== Sys2Proof/Machine/Ports.lean ====
section
/-!
DEFINITION. Port states (R263, R267, R277, R332): training, UP, leaving UP, and the timers of the link layer (R260, R261).
-/
namespace Sys2Proof.Machine

/-- Are the domains of a port's tether die and SerDes on (R532)? -/
def State.portPowered (s : State) (p : Nat) : Bool :=
  let on := s.fld F.PWR_DOM_STAT.on
  if p % 2 = 0 then nbit on 3 && nbit on 4 else nbit on 5 && nbit on 6

/-- An entry to or exit from UP: the change counter, and an automatic survey (R263, R283). -/
def State.portChanged (s : State) (p : Nat) : State :=
  let s := s.wrapInc (F.TTH_PORT_STATE.changes p)
  if s.bit F.COL_SURVEY_CFG.auto && s.survey.phase = 0 then { s with survey := { s.survey with holdoff := true } } else s

/-- DOWN, or TRAIN when the port is enabled; entering TRAIN takes up the mode and ends a miswire (R263, R277). -/
def State.downOrTrain (s : State) (p : Nat) : State :=
  let s := s.lower (F.TTH_PORT_STATE.lane_lock p)
  if s.bit (F.TTH_PORT_CFG.en p) && s.portPowered p then
    let s := (s.setFld (F.TTH_PORT_STATE.state p) psTrain).setMapBit F.COL_PORT_MISWIRE.mask p false
    s.setPort p { s.port p with mode := s.fld (F.TTH_PORT_CFG.mode p) }
  else s.setFld (F.TTH_PORT_STATE.state p) psDown

/-- The messages that wait at a port, each with its head, its bytes and whether it has begun to leave. -/
def waitingMessages (l : List Cargo) : List (List Byte × List Byte × Bool) :=
  l.foldl (fun a c =>
    if c.first then a ++ [(c.head, c.payload, false)]
    else match a.getLast? with
      | some x => if x.1 == c.head then a.dropLast ++ [(x.1, x.2.1 ++ c.payload, x.2.2)] else a ++ [(c.head, c.payload, true)]
      | none => [(c.head, c.payload, true)]) []

/-- What one class of messages leaves when its port leaves UP, oldest first: those with a flit in the replay buffer, or cut off while they
left; and those that had not begun to leave. -/
def Port.cutOff (v : Port) (tc : Nat) (out : List Cargo) : List (List Byte × List Byte × Bool) × List (List Byte × List Byte × Bool) :=
  let sent := (v.unacked.filter (fun e => e.2.kind == 2 && e.2.tc == tc)).map (fun e => e.2)
  let all := waitingMessages (sent ++ out)
  let k := all.length - ((waitingMessages out).filter (fun m => !m.2.2)).length
  (all.take k, all.drop k)

/-- Every WRITE of the replay buffer, or cut off while it left, may or may not have happened: one record or report for each (R267);
messages that had not begun to leave find the next port not UP (R266). -/
def State.scanPort (s : State) (v : Port) : State :=
  let two := v.cutOff 2 v.out2
  let three := v.cutOff 3 v.out3
  let s := (two.1 ++ three.1).foldl (fun s m => s.when (msgOp m.1 == 1) (fun s => s.failMessage m.1 5)) s
  (two.2 ++ three.2).foldl (fun s m => s.failMessage (m.2.1.take (msgBytes m.1)) 4) s

/-- The groups whose routes run through a port lose a member (R332). -/
def State.loseMembers (s : State) (p : Nat) : State :=
  ((List.range 64).filter (fun g => s.groupReady g && (s.groupPorts g).contains p)).foldl (fun s g =>
    let os := (s.openRuns g).map (fun r => r.ordinal) ++ [s.fld (brOrdinal g)]
    os.foldl (fun s o => s.originate g o ceMemberLost p s.time.spool) s) s

/-- The port leaves its state for DOWN, or for TRAIN when enabled. -/
def State.takeDown (s : State) (p : Nat) (counted : Bool) : State :=
  let v := s.port p
  let was := s.portUp p
  let s := ((s.forgetBuffers p).setPort p { mode := v.mode }).downOrTrain p
  let s := (v.out1 ++ v.out2 ++ v.out3).foldl State.freeBuffer s
  if !was then s
  else
    let s := (s.raise (F.TTH_PORT_EVT.down p)).portChanged p
    let s := s.when counted (fun s => s.satInc (F.TTH_PORT_ERR2.down p))
    (s.scanPort v).loseMembers p

/-! Rows of the port state table -/

/-- A write of TTH_PORT_CFG, without its retrain bit. -/
def State.writePortCfg (s : State) (p : Nat) (value : Word) : State :=
  let s := s.setReg (Reg.TTH_PORT_CFG p) (value &&& 0x0FFFF1F3)
  if !s.bit (F.TTH_PORT_CFG.en p) then (if s.portState p = psDown then s else s.takeDown p false)
  else if s.portState p = psDown then s.downOrTrain p
  else s

/-- TTH_PORT_CFG_WRITE -/
def execTthPortCfgWrite (p : Fin 6) (value : Word) (s : State) : Res :=
  done (if !s.up then s else s.writePortCfg p value)

/-- PORT_RETRAIN: the retrain bit written 1. -/
def execPortRetrain (p : Fin 6) (s : State) : Res := done (if !s.up then s else s.takeDown p false)

/-- PORT_LANES_LOCKED: TRAIN to ALIGN. -/
def execPortLanesLocked (p : Fin 6) (s : State) : Res := done
  (if s.portState p = psTrain then (s.setFld (F.TTH_PORT_STATE.lane_lock p) 15).setFld (F.TTH_PORT_STATE.state p) psAlign else s)

/-- PORT_TRAIN_TIMEOUT: no lock for 2 ms. -/
def execPortTrainTimeout (p : Fin 6) (s : State) : Res := done
  (if s.portState p = psTrain then (s.satInc (F.TTH_PORT_ERR2.train_fail p)).lower (F.TTH_PORT_STATE.lane_lock p) else s)

/-- The lane map of a port, 2 bits a lane: each lane stands in its own place (log 155). -/
def ownMap : Nat := 0xE4

/-- PORT_ALIGNED: ALIGN to PARAM; the port sends its mode and its lane map in LINK flits (R254, R263). -/
def execPortAligned (p : Fin 6) (s : State) : Res := done
  (if s.portState p = psAlign then
    let s := s.setFld (F.TTH_PORT_STATE.state p) psParam
    { s with links := { s.links with training := (p.val, (s.port p).mode, ownMap) :: s.links.training } }
  else s)

/-- PORT_PARAM: the far end's mode and lane map. -/
def execPortParam (p : Fin 6) (sent : PortParams) (s : State) : Res := done
  (if s.portState p != psParam then s
  else
    let s := s.setPort p { s.port p with farMap := sent.map }
    if sent.mode.val = (s.port p).mode then s.setFld (F.TTH_PORT_STATE.state p) psMeasure
    else (s.raise (F.TTH_PORT_EVT.mode_mismatch p)).downOrTrain p)

/-- PORT_MEASURE_DONE: the largest of 16 round trips in spool ticks, and the ID of the far end (R277). Both directions start at
sequence number 0 (R257). -/
def execPortMeasureDone (p : Fin 6) (trip : Fin 8192) (far : Fin 512) (s : State) : Res := done
  (if s.portState p != psMeasure then s
  else
    let s := (s.setFld (F.TTH_PORT_HOP.hop p) (trip / 2)).setFld (F.TTH_PORT_STATE.state p) psUp
    let s := ((s.raise (F.TTH_PORT_EVT.up p)).portChanged p).setPort p { mode := (s.port p).mode, farMap := (s.port p).farMap }
    if far.val = s.neighbour s.self p then s
    else (s.setMapBit F.COL_PORT_MISWIRE.mask p true).raise F.COL_SURVEY_STAT.miswire)

/-- PORT_LANE_LOSS: a lane loses lock; an UP port goes DOWN, and one past TRAIN starts anew: it runs on all four lanes or not at all (R252). -/
def execPortLaneLoss (p : Fin 6) (lane : Fin 4) (s : State) : Res := done
  (if s.portUp p then s.takeDown p true
  else if s.portState p = psAlign || s.portState p = psParam || s.portState p = psMeasure then s.downOrTrain p
  else s.setMapBit (F.TTH_PORT_STATE.lane_lock p) lane false)

/-! Timers -/

/-- ACK_DUE: 64 ns after the oldest accepted flit that has not been acknowledged. -/
def execAckDue (p : Fin 6) (s : State) : Res := done
  (if s.portUp p && (s.port p).accepted != 0 then s.setPort p { s.port p with ackDue := true } else s)

/-- REPLAY_TIMEOUT: replay_ns without an advance while flits are outstanding; after eight replays in a row the next takes the port DOWN (R261). -/
def execReplayTimeout (p : Fin 6) (s : State) : Res := done
  (let v := s.port p
  if !s.portUp p || v.unacked.isEmpty then s
  else if 8 ≤ v.timerReplays then s.takeDown p true
  else s.setPort p { v with resend := v.unacked.map (fun e => e.1), timerReplays := v.timerReplays + 1 })

end Sys2Proof.Machine
end

