-- ==== Sys2Proof/Machine/Domains.lean ====
section
/-!
DEFINITION. Power domains, per-die reset, supplies, power failure and thermal limits (R522, R532-R536, R543-R550).
-/
namespace Sys2Proof.Machine

/-! Dies -/

/-- Does some row of a die break R368: two pruned units, or too few positions for the grade? -/
def State.rowsBad (s : State) (d : Nat) : Bool := (List.range 8).any (fun r =>
  2 ≤ ((List.range 9).filter (fun p => nbit (s.prunedMask d r) p)).length ||
    (s.prunedMask d r != 0 && (s.rowMap d r).length < s.exposed))

/-- Set or clear the fence of a die, with the digest of the map (R369). -/
def State.setFence (s : State) (d : Nat) (b : Bool) : State := (s.setMapBit F.DET_FENCE.dies d b).digestMap

/-- A die loses its contents: SRAM, trays, units and their tokens, counters and fault log, quarantine (R521, R522). -/
def State.clearDie (s : State) (d : Nat) : State :=
  let s := s.memZero (dieBase d) 0x4000000
  let base := Reg.TRL_DIE_INFO d
  let s := (s.resetRegs base 0x100).resetRegs (base + 0x10C) (0x100000 - 0x10C)
  { s with trellis := { s.trellis with
    units := tclear s.trellis.units (128 * d) 128
    flight := s.trellis.flight.filter (fun f => match f.dest with
      | .unit u _ => uDie u != d
      | _ => true)
    ovfSeen := s.trellis.ovfSeen.filter (fun e => e.1 != d)
    faultTimes := tclear s.trellis.faultTimes (128 * d) 128
    moved := tset (fun _ => none) s.trellis.moved d none } }

/-! Domains -/

/-- The tether die whose lanes and ports a domain serves (R532). -/
def tetherOf (n : Nat) : Option Nat := if n = 3 || n = 4 then some 0 else if n = 5 || n = 6 then some 1 else none

/-- The domain that holds sensor `j`. -/
def sensorDomain (j : Nat) : Nat :=
  let i := j / 2
  if i < 16 then 8 + i else if i = 16 then 3 else if i = 17 then 5 else if i = 18 then 1 else 7

/-- A change of PWR_DOM_STAT (R533); the sensors of a domain that is off read as not valid (R545). -/
def State.showDomain (s : State) (n : Nat) (b : Bool) : State :=
  if s.domOn n == b then s
  else
    let s := (s.setMapBit F.PWR_DOM_STAT.on n b).raise F.PWR_EVT.domain_change
    if b then s
    else ((List.range 40).filter (fun j => sensorDomain j == n)).foldl (fun s j => s.invalidTemp j) s

/-- What a domain loses as it goes off (R533): tether lanes and ports lose lock, the cold frame and trellis dies their
contents. Configuration registers stand (log 34). -/
def State.loseDomain (s : State) (n : Nat) : State :=
  match tetherOf n with
  | some t =>
    let lanes := (List.range 48).map (fun i => 48 * t + i)
    let s := lanes.foldl (fun s l =>
      if s.laneState l = lsDown then s else ((s.toCdr l).setLane l {}).setLaneState l lsDown) s
    [0, 2, 4].foldl (fun s p =>
      (s.takeDown (p + t) true).setFld (F.TTH_PORT_STATE.state (p + t)) psDown) s
  | none =>
    if n = 7 then
      let s := s.memZero (cold 0) 0x100000000
      { s with image := { s.image with staged := false }, shadow := { s.shadow with queue := [], run := none } }
    else if 8 ≤ n then (s.clearDie (n - 8)).setFence (n - 8) true
    else s

/-- A domain is usable (R533): enabled lanes and ports begin to train, a trellis die has had its reset and is no longer
fenced for being off. -/
def State.gainDomain (s : State) (n : Nat) : State :=
  let s := s.showDomain n true
  let s : State := { s with power := { s.power with removed := s.power.removed.filter (fun x => x != n) } }
  match tetherOf n with
  | some t =>
    if !s.tetherOn t then s
    else
      let lanes := (List.range 48).map (fun i => 48 * t + i)
      let s := lanes.foldl (fun s l =>
        if s.bit (F.INL_LANE_CFG.en (l / 48) (l % 48)) && s.laneState l = lsDown then (s.setLaneState l lsCdr).checkRate l else s) s
      [0, 2, 4].foldl (fun s p => if s.portState (p + t) == psDown then s.downOrTrain (p + t) else s) s
  | none => if 8 ≤ n then (s.clearDie (n - 8)).setFence (n - 8) (s.rowsBad (n - 8)) else s

/-- The switch under way of a domain. -/
def State.switchOf (s : State) (n : Nat) : Option Bool := tget (fun _ => none) s.power.switching n

/-- Note a switch of a domain. -/
def State.setSwitch (s : State) (n : Nat) (v : Option Bool) : State :=
  { s with power := { s.power with switching := tset (fun _ => none) s.power.switching n v } }

/-- A domain begins to switch. -/
def State.startSwitch (s : State) (n : Nat) (b : Bool) : State :=
  let s := (s.setMapBit F.PWR_DOM_CTRL.on n b).setSwitch n (some b)
  s.when (!b) (fun s => s.loseDomain n)

/-- A domain ends its switch (R533). -/
def State.endSwitch (s : State) (n : Nat) : State := match s.switchOf n with
  | none => s
  | some true => (s.setSwitch n none).gainDomain n
  | some false => (s.setSwitch n none).showDomain n false

/-- Hardware switches a domain off at once (R544, R546). -/
def State.cutDomain (s : State) (n : Nat) : State :=
  if !s.domOn n && s.switchOf n != some true then s
  else
    let s := ((s.setSwitch n none).showDomain n false).loseDomain n
    { s with power := { s.power with removed := if s.power.removed.contains n then s.power.removed else s.power.removed ++ [n] } }

/-- The domains `[lo, 24)` are cut. -/
def State.cutFrom (s : State) (lo : Nat) : State := (List.range (24 - lo)).foldl (fun s i => s.cutDomain (lo + i)) s

/-- Every domain that a trip or a shed removed comes on again (R526, R546). -/
def State.restoreDomains (s : State) : State := s.power.removed.foldl (fun s n => (s.setSwitch n none).gainDomain n) s

/-- May host software switch the domain now (R532, R550)? -/
def State.maySwitch (s : State) (n : Nat) : Bool :=
  if n < 8 then s.life == lifeSafe
  else !nbit s.image.dies (n - 8) && !nbit (s.fld F.CFM_SHD_CFG.dies) (n - 8) && s.image.fill.isNone && s.image.fallow.isNone &&
    !s.power.dieReset.contains (n - 8) && !s.power.dieNext.any (fun ds => ds.contains (n - 8))

/-- A write of PWR_DOM_CTRL (R532): each domain by itself. -/
def State.writeDomCtrl (s : State) (value : Word) : State :=
  (List.range 21).foldl (fun s i =>
    let n := 3 + i
    let b := nbit value.toNat n
    if (s.switchOf n).getD (s.domOn n) == b then s
    else if s.maySwitch n then s.startSwitch n b
    else s.raise F.PWR_EVT.cfg_err) s

/-- PWR_DOM_CTRL_WRITE -/
def execPwrDomCtrlWrite (value : Word) (s : State) : Res := done (if !s.up then s else s.writeDomCtrl value)

/-- DOMAIN_SWITCH_DONE -/
def execDomainSwitchDone (dom : Fin 24) (s : State) : Res := done (s.endSwitch dom)

/-! Per-die reset (R522) -/

/-- Is a reset of die `d` accepted? -/
def State.mayReset (s : State) (d : Nat) : Bool :=
  (s.lifeIn [lifeSafe, lifeLoaded, lifeFault] || s.fenced d ||
    (!nbit s.image.dies d && !nbit (s.fld F.CFM_SHD_CFG.dies) d)) && s.image.fill.isNone && s.image.fallow.isNone

/-- The per-die resets of one write begin (R522). -/
def State.startDieReset (s : State) (ds : List Nat) : State :=
  let s := (ds.foldl State.clearDie s).setFld F.HUB_BOOT_STAT.die_busy (b2n (!ds.isEmpty))
  { s with power := { s.power with dieReset := ds } }

/-- A write of HUB_DIE_RESET: another key does nothing (R519). Refused bits are judged at the write; the accepted dies of a write that comes
while a reset runs wait until it ends (R13). -/
def State.writeDieReset (s : State) (value : Word) : State :=
  if bits value.toNat 24 8 != 0xA5 then s
  else
    let s := s.setReg Reg.HUB_DIE_RESET (value &&& 0xFF00FFFF)
    let asked := (List.range 16).filter (fun d => nbit value.toNat d)
    let ds := asked.filter s.mayReset
    let s := s.when (asked.any (fun d => !s.mayReset d)) (fun s => s.raise F.HUB_BOOT_STAT.reset_refused)
    if ds.isEmpty then s
    else if s.power.dieReset.isEmpty then s.startDieReset ds
    else { s with power := { s.power with dieNext := s.power.dieNext ++ [ds] } }

/-- DIE_RESET -/
def execDieReset (value : Word) (s : State) : Res := done (if s.power.boot < 3 then s else s.writeDieReset value)

/-- Write these weight blocks from staging, in the order of the section. -/
def State.writeWeights (s : State) (p : Block → Bool) : State := match findSection s.image.sections 3 with
  | none => s
  | some x => (s.stagedBlocks.filter p).foldl (fun s b =>
      s.memWrite (rowAddr b.unit b.row) (s.coldRead (x.off + b.off) (128 * b.rows))) s

/-- In LOADED a die of the die-use mask gets its bank sets and the weights of the resident menus back. -/
def State.rewriteDie (s : State) (d : Nat) : State :=
  if s.life != lifeLoaded || !nbit s.image.dies d then s
  else
    let bk := s.stagedBanks.filter (fun x => uDie x.unit == d)
    let s := [0, 1].foldl (fun s b => match s.bankSet b with
      | none => s
      | some k => (bk.filter (fun x => x.set == k)).foldl (fun s x => s.writeSlot b x) s) s
    s.writeWeights (fun b => uDie b.unit == d && s.image.menus.any (fun m => m.number == b.owner && s.isResident m))

/-- The mirrors that stood on a shadow die are written again (R397). -/
def State.mirrorAgain (s : State) (d : Nat) : State :=
  if s.life != lifeLoaded || !nbit (s.fld F.CFM_SHD_CFG.dies) d then s
  else (s.image.menus.filter s.isResident).foldl State.remirror s

/-- DIE_RESET_DONE; ECC may correct errors in the staging region (R383). -/
def execDieResetDone (die : Fin 16) (s : State) : Res := done
  (if !s.power.dieReset.contains die.val then s
  else
    let s := ((s.corrected 0x4000000).rewriteDie die).mirrorAgain die
    let left := s.power.dieReset.filter (fun x => x != die.val)
    let s : State := { s with power := { s.power with dieReset := left } }
    if !left.isEmpty then s
    else match s.power.dieNext with
      | [] => s.lower F.HUB_BOOT_STAT.die_busy
      | ds :: rest => State.startDieReset { s with power := { s.power with dieNext := rest } } ds)

/-! Supplies (R534, R536) -/

/-- Is a domain that the rail feeds on? -/
def State.railUsed (s : State) (rail : Nat) : Bool :=
  if rail < 8 then s.domOn (8 + 2 * rail) || s.domOn (9 + 2 * rail) else !(rail == 13 || rail == 14) || s.domOn 7

/-- The window of a rail in units of 0.1 mV (R534, R536): VDD_TRLp within 50 mV of the committed voltage, or 800 to 950 mV until the first
write that succeeds; the others within 5 % of their nominal voltage. -/
def State.railWindow (s : State) (rail : Nat) : Nat × Nat :=
  if rail < 8 then match (s.gov rail).committed with
    | none => (8000, 9500)
    | some v => (10 * v - 500, 10 * v + 500)
  else
    let nominal := [8500, 8000, 8000, 7500, 12000, 8000, 11000, 18000].getD (rail - 8) 0
    (nominal - nominal / 20, nominal + nominal / 20)

/-- Does a reading (0.1 mV) lie in the window of its rail? -/
def State.inRail (s : State) (rail reading : Nat) : Bool :=
  decide ((s.railWindow rail).1 ≤ reading) && decide (reading ≤ (s.railWindow rail).2)

/-- SUPPLY_OUT_OF_WINDOW: ten checks in a row found the rail outside its window, the last of them at this voltage. That the
settling time of a VDD_TRL rail has passed is the sender's word (log 7). -/
def execSupplyOutOfWindow (check : RailCheck) (s : State) : Res := done
  (if !s.railUsed check.rail || s.inRail check.rail check.reading.toNat then s
  else
    let rail := check.rail.val
    let s := ((s.setMapBit F.PWR_SUPPLY_STAT.now rail true).setMapBit F.PWR_SUPPLY_STAT.seen rail true).raise F.PWR_EVT.supply_fault
    if s.life ≤ lifeBoot then s else s.enterFault 4)

/-- SUPPLY_IN_WINDOW: a check finds the rail at this voltage; a rail that is not checked is not out of window. -/
def execSupplyInWindow (check : RailCheck) (s : State) : Res :=
  done (if s.railUsed check.rail && !s.inRail check.rail check.reading.toNat then s
  else s.setMapBit F.PWR_SUPPLY_STAT.now check.rail false)

/-! Power failure (R543, R544) -/

/-- The package sheds PD03 to PD23 and is in FAULT (R544). -/
def State.shed (s : State) : State := (s.enterFault 4).cutFrom 3

/-- PWR_FAIL: twenty low samples in a row. -/
def execPwrFail (s : State) : Res :=
  let s : State := { s with pins := { s.pins with powerFailN := false } }
  let s := (s.raise F.PWR_FAIL_STAT.pwr_fail).raise F.PWR_EVT.pwr_fail
  done (s.when (s.bit F.PWR_CFG.shed_on_fail) State.shed)

/-- PWR_FAIL_CLEAR: the line has been high for 10 ms. -/
def execPwrFailClear (s : State) : Res :=
  done ({ s with pins := { s.pins with powerFailN := true } }.lower F.PWR_FAIL_STAT.pwr_fail)

/-- PWR_FAIL_GLITCH: a low of 1 to 19 samples. -/
def execPwrFailGlitch (s : State) : Res := done (s.satInc F.PWR_FAIL_STAT.glitch)

/-! Temperature (R545, R546) -/

/-- A reading in quarter degrees. -/
def State.temp (s : State) (j : Nat) : Int := signed 12 (s.tempWord j).toNat

/-- The valid readings among sensors. -/
def State.validTemps (s : State) (js : List Nat) : List Int := (js.filter (fun j => nbit (s.tempWord j).toNat 31)).map s.temp

/-- Is some value at or above a bound in degrees? -/
def reaches (l : List Int) (c : Nat) : Bool := l.any (fun t => 4 * (c : Int) ≤ t)

/-- All sensors. -/
def allSensors : List Nat := List.range 40

/-- Show warn, and hold its event while it stands (R545). -/
def State.showWarn (s : State) : State :=
  let w := reaches (s.validTemps allSensors) (s.fld F.PWR_THERM_CFG.warn_c)
  (s.setFld F.PWR_THERM_STAT.warn (b2n w)).when w (fun s => s.raise F.PWR_EVT.thermal_warn)

/-- The limits of the governors (R545). -/
def State.showLimits (s : State) : State :=
  let c := s.fld F.PWR_THERM_CFG.limit_c
  (List.range 8).foldl (fun s p =>
    let ts := s.validTemps [4 * p, 4 * p + 1, 4 * p + 2, 4 * p + 3]
    if !s.bit F.PWR_THERM_CFG.limit_en then s.setMapBit F.PWR_THERM_STAT.limiting p false
    else if reaches ts c then s.setMapBit F.PWR_THERM_STAT.limiting p true
    else if !ts.isEmpty && ts.all (fun t => t < 4 * ((c : Int) - 5)) then s.setMapBit F.PWR_THERM_STAT.limiting p false
    else s) s

/-- One sensor's refresh: one in a domain that is off is not read and keeps its last value. -/
def State.readSensor (s : State) (j : Nat) (r : Option (BitVec 12)) : State :=
  if !s.domOn (sensorDomain j) then s.invalidTemp j
  else match r with
    | none => (s.invalidTemp j).raise F.PWR_THERM_STAT.sensor_fail
    | some t => s.setTempWord j (packWord [(t.toNat, 0), (1, 31)])

/-- The powered dies without a valid sensor. -/
def State.blindDies (s : State) : List Nat :=
  (List.range 20).filter (fun i => s.domOn (sensorDomain (2 * i)) && (s.validTemps [2 * i, 2 * i + 1]).isEmpty)

/-- Has this check put the device into FAULT with cause 4 already (R547): in this tick, with the counters running (log 163)? -/
def State.faultedNow (s : State) : Bool :=
  s.life == lifeFault && s.fld F.HUB_STATE.fault_cause == 4 && s.time.started && !s.time.held && s.power.faultAt == s.time.spool

/-- The trip (R546); over a supply fault of the same check its cause stands (R547). -/
def State.trip (s : State) : State :=
  let s := s.when s.faultedNow (fun s => s.setFld F.HUB_STATE.fault_cause 3)
  (((s.raise F.PWR_THERM_STAT.trip).raise F.PWR_EVT.thermal_trip).enterFault 3).cutFrom 8

/-- A refresh of all sensors (R545). -/
def State.refreshTemps (s : State) (readings : List (Option (BitVec 12))) : State :=
  let s := allSensors.foldl (fun s j => s.readSensor j (readings.getD j none)) s
  let ts := s.validTemps allSensors
  let s := match ts with
    | [] => s
    | t :: rest => s.setFld F.PWR_THERM_STAT.tmax (unsigned 12 (rest.foldl max t))
  let s := s.showWarn.showLimits
  let hot := reaches ts 115
  let blind := s.blindDies
  let due := (hot && s.power.hot) || blind.any (fun i => s.power.blind.contains i)
  let s : State := { s with power := { s.power with hot := hot, blind := blind } }
  let cool := ts.all (fun t => t < 4 * (s.fld F.PWR_THERM_CFG.release_c : Int))
  let s := s.when cool (fun s => s.lower F.PWR_THERM_STAT.trip)
  let on := (List.range 16).any (fun d => s.domOn (8 + d))
  if due && (on || !s.bit F.PWR_THERM_STAT.trip) then s.trip else s

/-- THERMAL_REFRESH -/
def execThermalRefresh (readings : List (Option (BitVec 12))) (s : State) : Res := done (s.refreshTemps readings)

end Sys2Proof.Machine
end

