-- ==== Sys2Proof/Machine/Decision.lean ====
section
/-!
DEFINITION. Decisions out (chapter 08; R19-R29, R55-R57, R66): results from the trellis, output frames, tap digests and
orbit folds (R358-R362), VETO_N, and the release of an event. A replayed event completes here too (R394).
-/
namespace Sys2Proof.Machine

/-! Event flags (R232) -/

/-- LATE -/
def fLate : Nat := 0
/-- ERROR -/
def fError : Nat := 1
/-- VETOED -/
def fVetoed : Nat := 2
/-- COLL_ABORT -/
def fAbort : Nat := 5
/-- ARITH_OVF -/
def fOvf : Nat := 6
/-- SPILLED -/
def fSpilled : Nat := 7
/-- SHADOW_SAMPLED -/
def fSampled : Nat := 8

/-- Set flag `i` when `c` holds. -/
def flagIf (c : Bool) (i n : Nat) : Nat := if c then setBit n i else n

/-- Does R20 apply to these flags? -/
def policyApplies (fl : Nat) : Bool := nbit fl fLate || nbit fl fError || nbit fl fAbort

/-- Replace an event in flight. -/
def State.setEvent (s : State) (e : EventEntry) : State :=
  { s with events := s.events.map (fun x => if x.index = e.index then e else x) }

/-- Forget an event in flight, and its collective runs as far as they are decided. -/
def State.dropEventEntry (s : State) (e : EventEntry) : State :=
  { s with events := s.events.filter (fun x => x.index != e.index) }.dropRuns e.runs

/-- The menu of an event. -/
def State.menuOf (s : State) (e : EventEntry) : Option Menu := s.image.menus.find? (fun m => m.number == e.menu)

/-! Tap digests (R357-R359) -/

/-- The number N of elements of a tap under a tag (R356). -/
def State.tapSize (s : State) (tag tap : Nat) : Nat :=
  (s.image.taps.find? (fun d => d.tag == tag && d.tap == tap)).elim 0 (fun d => d.n)

/-- The digest of a tap of `n` elements from what the engine holds of it: none while it is not valid (R358). -/
def TapState.digest (t : TapState) (n : Nat) : Option (BitVec 64) :=
  if t.bad || (t.parts.foldl (fun a p => a + p.2.length) 0) != n then none
  else some (crc64 (wordBytes ((sortBy (fun a b => a.1 ≤ b.1) t.parts).flatMap (fun p => p.2))))

/-- What the engine holds of a tap. -/
def tapOf (ts : Tbl TapState) (tap : Nat) : TapState := tget (fun _ => {}) ts tap

/-- Join a piece to its tap (R358). -/
def joinPiece (ts : Tbl TapState) (p : Piece) : Tbl TapState :=
  let t := tapOf ts p.tap
  tset (fun _ => {}) ts p.tap { parts := t.parts ++ [(p.first, p.vals)], bad := t.bad || p.bad }

/-- The taps of a menu in ascending order, each with its digest if that is valid. -/
def State.tapDigests (s : State) (tag : Nat) (m : Option Menu) (ts : Tbl TapState) : List (Nat × Option (BitVec 64)) :=
  (m.elim [] (fun m => m.taps)).map (fun i => (i, (tapOf ts i).digest (s.tapSize tag i)))

/-- The XOR of the four quarters of a tap digest. -/
def foldQuarters (d : BitVec 64) : Nat :=
  (bits d.toNat 0 16 ^^^ bits d.toNat 16 16) ^^^ (bits d.toNat 32 16 ^^^ bits d.toNat 48 16)

/-- The decision digest (R359); 0 where R354 leaves only the policy's bits. -/
def decisionDigest (fl : Nat) (ds : List (Nat × Option (BitVec 64))) : Nat :=
  if policyApplies fl || ds.any (fun d => d.2.isNone) then 0
  else ds.foldl (fun a d => a ^^^ d.2.elim 0 foldQuarters) 0

/-- The oldest piece on its way reaches the digest engine; a piece of an event that is gone is dropped. -/
def State.tapPiece (s : State) : State := match s.trellis.pieces with
  | [] => s
  | p :: rest =>
    let s := { s with trellis := { s.trellis with pieces := rest } }
    if p.ev.shadow then
      match s.shadow.run with
      | some r => if r.ev.index = p.ev.index then { s with shadow := { s.shadow with taps := joinPiece s.shadow.taps p } } else s
      | none => s
    else match s.events.find? (fun e => e.index == p.ev.index) with
      | some e => s.setEvent { e with taps := joinPiece e.taps p }
      | none => s

/-! Orbit folds (R361, R378) -/

/-- Count a released event in the fold of its tag and orbit. Only valid tap digests enter. -/
def State.foldEvent (s : State) (e : EventEntry) (fl : Nat) (ds : List (Nat × Option (BitVec 64))) : State :=
  let old := (s.spares.folds.find? (fun f => f.orbit == e.orbit && f.tag == e.tag)).getD { orbit := e.orbit, tag := e.tag }
  let f := if policyApplies fl then { old with excluded := old.excluded + 1 }
    else { old with
      included := old.included + 1
      folds := ds.foldl (fun t d => tset (fun _ => 0) t d.1 (tget (fun _ => 0) t d.1 ^^^ d.2.elim 0 (fun x => x.toNat))) old.folds }
  let rest := s.spares.folds.filter (fun f => !(f.orbit == e.orbit && f.tag == e.tag))
  { s with spares := { s.spares with folds := rest ++ [f] } }

/-- Copy the folds of one orbit. -/
def State.copyOrbit (s : State) (o : Nat) : State :=
  let s := [0, 1, 2, 3, 4, 5, 6, 7].foldl (fun s t =>
    let f := (s.spares.folds.find? (fun f => f.orbit == o && f.tag == t)).getD { orbit := o, tag := t }
    let s := s.setRegs (Reg.DET_ORBIT_INFO t 0) [BitVec.ofNat 32 o, BitVec.ofNat 32 f.included, BitVec.ofNat 32 f.excluded]
    (List.range 64).foldl (fun s i => s.setWide (Reg.DET_ORBIT_DIG_LO t i) (tget (fun _ => 0) f.folds i)) s) s
  let s := { s with spares := { s.spares with folds := s.spares.folds.filter (fun f => f.orbit != o) } }
  (s.wrapInc F.DET_ORBIT_SEQ.seq).raise F.DET_STATUS.orbit_ready

/-- Can events of orbit `o` still be presented? -/
def State.orbitOpen (s : State) (o : Nat) : Bool :=
  s.events.any (fun e => e.orbit == o) ||
    (match s.replay with
     | some r => r.left != 0 && r.orbit == some o
     | none => s.life == lifeLive && s.time.orbit == o)

/-- Copy the folds of every orbit whose last event has been released (R361). -/
def State.copyFolds (s : State) : State :=
  (distinct (s.spares.folds.map (fun f => f.orbit))).foldl (fun s o => if s.orbitOpen o then s else s.copyOrbit o) s

/-- The digest record of an event (R362). -/
def digestRecord (e : EventEntry) (fl : Nat) (ds : List (Nat × Option (BitVec 64))) : List Byte :=
  leBytes 4 e.orbit ++ leBytes 2 e.crossing ++ leBytes 1 e.tag ++ leBytes 1 ds.length ++ leBytes 2 fl ++
    List.replicate 6 0#8 ++ leBytes 8 (ds.foldl (fun m d => if d.2.isSome then setBit m d.1 else m) 0) ++
    ds.flatMap (fun d => leBytes 8 (d.2.elim 0 (fun x => x.toNat)))

/-! Frames (R229-R231) -/

/-- The accept bits that a result gives: lanes 0-3 of token 0 (R234). -/
def acceptBits (e : EventEntry) : Nat := leNat ((List.range 4).flatMap (fun l => leBytes 2 ((e.tokens.getD 0 []).getD l 0).toNat))

/-- The accept bits of a released event: the result's, or the late policy's (R57). -/
def policyBits (e : EventEntry) (fl : Nat) : Nat :=
  if policyApplies fl then (if e.maskPolicy then e.mask.toNat else 0) else acceptBits e

/-- Feature word `w` of lane `n` (R233). -/
def State.featureWord (s : State) (e : EventEntry) (n w : Nat) : Nat :=
  match s.image.features.find? (fun f => f.menu == e.menu && f.lane == n && f.word == w) with
  | none => 0
  | some f => ((e.tokens.getD f.token []).getD f.tlane 0).toNat

/-- The feature words of lane `n`, 0 where R20 applies (R56). -/
def State.featureBytes (s : State) (e : EventEntry) (fl n count : Nat) : List Byte :=
  (List.range count).flatMap (fun w => leBytes 2 (if policyApplies fl then 0 else s.featureWord e n w))

/-- The contents of a frame: block 0, the 80 payload bytes, the decision digest. -/
structure FrameData where
  head : Nat
  payload : List Byte
  digest : Nat
  deriving DecidableEq, Repr

/-- Is output lane `n` of the feature kind (R233)? -/
def State.featureLane (s : State) (n : Nat) : Bool := s.bit (F.DEC_LANE_CFG.kind n)

/-- Block 0 (R229). -/
def State.block0 (s : State) (n crossing orbit tag flags : Nat) (empty : Bool) : Nat :=
  0xD5 + (crossing % 2 ^ 16) * 2 ^ 8 + (orbit % 2 ^ 16) * 2 ^ 24 + (tag % 8) * 2 ^ 40 + b2n (s.featureLane n) * 2 ^ 43 +
    (flags % 1024) * 2 ^ 44 + (n % 8) * 2 ^ 54 + b2n empty * 2 ^ 57 + b2n (s.life == lifeFault) * 2 ^ 58

/-- The frame of an event on lane `n`, with its flags and accept bits. -/
def State.eventFrame (s : State) (n : Nat) (e : EventEntry) (fl accept digest : Nat) : FrameData where
  head := s.block0 n e.crossing e.orbit e.tag fl false
  payload := if s.featureLane n then s.featureBytes e fl n 40
    else leBytes 8 accept ++ leBytes 4 (s.fld F.HUB_IMG_ID.id) ++ leBytes 4 e.inputDigest.toNat ++ s.featureBytes e fl n 32
  digest := digest

/-- The empty frame of the current crossing on lane `n` (R235, R236). -/
def State.emptyFrame (s : State) (n : Nat) : FrameData where
  head := s.block0 n s.time.crossing s.time.orbit 0 0 true
  payload := if s.featureLane n then List.replicate 80 0#8 else padTo 80 (List.replicate 8 0#8 ++ leBytes 4 (s.fld F.HUB_IMG_ID.id))
  digest := 0

/-- The CRC of a frame (R231). -/
def FrameData.crc (f : FrameData) : Word := crc32c (leBytes 7 (f.head / 256) ++ f.payload ++ leBytes 2 f.digest)

/-- The 12 blocks of a frame. -/
def FrameData.blocks (f : FrameData) : List (Nat × BitVec 64) :=
  (2, BitVec.ofNat 64 f.head) ::
    ((List.range 10).map (fun b => (1, BitVec.ofNat 64 (leNat (sub f.payload (8 * b) 8)))) ++
      [(2, BitVec.ofNat 64 (0x9B + f.crc.toNat * 2 ^ 8 + (f.digest % 2 ^ 16) * 2 ^ 40))])

/-- One bit through the scrambler x^58 + x^39 + 1 (R78): the register holds the bits sent. -/
def scrambleBit (a : Nat × Nat × Nat) (b : Nat) : Nat × Nat × Nat :=
  let out := (b + bits a.1 38 1 + bits a.1 57 1) % 2
  ((2 * a.1 + out) % 2 ^ 58, a.2.1 + out * 2 ^ a.2.2, a.2.2 + 1)

/-- Scramble one block's payload: the new register and the payload on the line. -/
def scramble (st : Nat) (p : BitVec 64) : Nat × BitVec 64 :=
  let r := (payloadBits p).foldl scrambleBit (st, 0, 0)
  (r.1, BitVec.ofNat 64 r.2.1)

/-- A block on the line: the header in sending order, 0b10 control and 0b01 data, then the payload; inverted where the
lane inverts polarity (R228). -/
def lineBlock (inv : Bool) (hdr : Nat) (p : BitVec 64) : BitVec 66 :=
  let w : BitVec 66 := BitVec.ofNat 66 ((if hdr = 2 then 1 else 2) + 4 * p.toNat)
  if inv then ~~~w else w

/-- Scramble the blocks of a frame in order. -/
def scrambleAll (inv : Bool) (st : Nat) (bs : List (Nat × BitVec 64)) : Nat × List (BitVec 66) :=
  bs.foldl (fun a b =>
    let r := scramble a.1 b.2
    (r.1, a.2 ++ [lineBlock inv b.1 r.2])) (st, [])

/-- Is the rate of the output lanes in range (R228)? A locked MCLK that no window has measured yet counts as in range
(log 135). -/
def State.outRateOk (s : State) : Bool :=
  rateOk 792 (s.fld F.TIM_MCLK_FREQ.khz) || (s.fld F.TIM_MCLK_FREQ.khz == 0 && s.bit F.TIM_STATUS.pll_lock)

/-- Does output lane `n` send (R228)? -/
def State.laneSends (s : State) (n : Nat) : Bool := s.bit (F.DEC_LANE_CFG.en n) && s.tetherOn (n / 4) && s.outRateOk

/-- Lane `n` sends a frame in this crossing. -/
def State.sendFrame (s : State) (n : Nat) (f : FrameData) : State :=
  let r := scrambleAll (s.bit (F.DEC_LANE_CFG.tx_invert n)) (tget (fun _ => 0) s.decision.scramblers n) f.blocks
  { s with decision := { s.decision with
    frames := tset (fun _ => none) s.decision.frames n (some ⟨s.xindex, f.blocks, r.2⟩)
    scramblers := tset (fun _ => 0) s.decision.scramblers n r.1 } }

/-- Lane `n` is in electrical idle. -/
def State.idleLane (s : State) (n : Nat) : State :=
  { s with decision := { s.decision with frames := tset (fun _ => none) s.decision.frames n none } }

/-- The rate check of an output lane (R228). -/
def State.checkOutRate (s : State) (n : Nat) : State :=
  if s.bit (F.DEC_LANE_CFG.en n) && !s.outRateOk then (s.idleLane n).raise (F.DEC_LANE_STAT.rate_err n)
  else s

/-! VETO_N (R237-R240, R248) -/

/-- The sample of tick 28 for the next frame. -/
def State.sampleVeto (s : State) : State :=
  let d := s.decision
  { s with decision := { d with
    vetoNext := d.vetoLow || (s.bit F.DEC_VETO_CFG.latch && d.lowSince)
    lowSince := d.vetoLow } }

/-- VETO_LEVEL_CHANGE: the pin has held a level for `samples` filter samples, and still holds it after four. Four make the filtered level; a shorter low
that a sample saw is a glitch, whatever the filtered level. An edge in the sample of tick 28 counts at that sample. -/
def execVetoLevelChange (low : Bool) (samples : Nat) (s : State) : Res :=
  let s : State := { s with decision := { s.decision with vetoPin := low != decide (samples < 4) } }
  let d := s.decision
  let at28 := s.time.spool % 32 == 28
  done (if samples < 4 then s.when (low && samples != 0) (fun s => s.satInc F.DEC_VETO_STAT.glitch)
  else if low = d.vetoLow then s
  else
    let s := s.setFld F.DEC_VETO_STAT.level (b2n !low)
    { s with decision := { d with
      vetoLow := low
      lowSince := if at28 then low else d.lowSince || low
      warned := false
      vetoNext := if at28 then low || (s.bit F.DEC_VETO_CFG.latch && d.vetoNext) else d.vetoNext } })

/-- VETO_WARN: the filtered level has been low for longer than warn_ms; once per low period. -/
def execVetoWarn (s : State) : Res :=
  done (if s.decision.vetoLow && !s.decision.warned then
    { s.raise F.DEC_VETO_STAT.warn with decision := { s.decision with warned := true } }
  else s)

/-! The shadow queue (R398, R402) -/

/-- The rows of an event's buffers that have not been released yet. -/
def State.rowsHeld (s : State) (e : EventEntry) : List (Nat × Nat × List Byte × Bool) :=
  (s.coll.runs.filter (fun r => e.runs.contains r.id && r.ready)).flatMap (fun r =>
    let z := (s.schedCfg r.entry).zone
    let c := s.zoneCfg z
    let b := r.gen % c.nb
    let v := s.zone z
    if s.ahead z r.gen < c.nb then
      (v.landed.filter (fun x => x.1 == b)).map (fun x =>
        (z, x.2, s.memRead (rowAddr c.unit (c.base + b * c.rows + x.2)) 128, v.err.contains x))
    else [])

/-- The bytes that a shadow-queue entry takes (R398; its layout is not in the spec, log 40). -/
def shadowSize (taps lanes chans rows : Nat) : Nat := 64 + 8 * taps + 96 * lanes + 16 * chans + 132 * rows

/-- A sampled live event is released: it is queued for its shadow run, or counted (R398, R402). -/
def State.queueShadow (s : State) (e : EventEntry) (ds : List (Nat × Option (BitVec 64))) : State :=
  if !nbit (s.fld F.CFM_SHD_CFG.ready) e.tag then s.satInc F.CFM_SHD_SKIP.unshadowable
  else
    let rows := e.rows ++ s.rowsHeld e
    let size := shadowSize ds.length e.inputs.length e.scales.length rows.length
    let used := s.shadow.queue.foldl (fun n x => n + x.size) 0
    if 0x04000000 < used + size || 4096 ≤ s.shadow.queue.length then
      (s.satInc F.CFM_SHD_SKIP.backlog).raise F.CFM_EVT.shadow_backlog
    else
      let gone := (s.coll.runs.filter (fun r => e.runs.contains r.id && (r.failed || r.open))).map (fun r => r.entry)
      let x : ShadowEntry := {
        ev := { index := e.index, orbit := e.orbit, crossing := e.crossing, shadow := true }
        tag := e.tag, menu := e.menu
        taps := ds.map (fun d => (d.1, d.2.elim 0 (fun x => x.toNat), d.2.isSome))
        inputs := e.inputs, scales := e.scales, rows := rows, aborted := gone, size := size }
      let s := { s with shadow := { s.shadow with queue := s.shadow.queue ++ [x] } }
      let n := s.shadow.queue.length
      (s.setFld F.CFM_SHD_QUEUE.entries n).setFld F.CFM_SHD_QUEUE.high_water (max n (s.fld F.CFM_SHD_QUEUE.high_water))

/-! The deadline ring (R425) -/

/-- The 128 bytes of the ring entry of an event with flags `fl`. Its feature words are those of the lowest lane that the tag
writes, feature lanes first (log 43). -/
def State.ringEntry (s : State) (e : EventEntry) (fl : Nat) (used : Bool) : List Byte :=
  let lanes := (List.range 8).filter (fun n => nbit (s.fld (F.DEC_LANE_CFG.tags n)) e.tag)
  let n := (lanes.filter s.featureLane ++ lanes).headD 0
  let ds := s.tapDigests e.tag (s.menuOf e) e.taps
  leBytes 8 e.index ++ leBytes 1 (e.tag % 8 + 8 * b2n e.present + 16 * b2n used) ++ [0] ++ leBytes 2 fl ++
    leBytes 4 (if e.present then e.stamp else 0) ++ leBytes 8 (if e.present then acceptBits e else 0) ++
    (List.range 40).flatMap (fun w => leBytes 2 (if e.present then s.featureWord e n w else 0)) ++
    leBytes 4 e.inputDigest.toNat ++ leBytes 2 (decisionDigest fl ds) ++ List.replicate 18 0#8

/-- The tether die whose ring holds the entry of an event. -/
def State.ringDie (s : State) (e : EventEntry) : Nat := (s.menuOf e).elim 0 (fun m => m.outDie)

/-- An event that is released or completed leaves its entry behind, no longer in use, until another event takes it. -/
def State.retire (s : State) (e : EventEntry) (fl : Nat) : State :=
  { s with decision := { s.decision with
    ring := tset (fun _ => []) s.decision.ring (128 * s.ringDie e + e.index % 128) (s.ringEntry e fl false) } }

/-! Release (R19-R29, R56, R66) -/

/-- The histogram bin of a slack (R66). -/
def slackBin (slack : Nat) : Nat := if slack = 0 then 1 else min 15 (Nat.log2 slack + 2)

/-- Records and folds of an event that is released, or has completed in REPLAY. -/
def State.recordEvent (s : State) (e : EventEntry) (fl : Nat) (ds : List (Nat × Option (BitVec 64))) : State :=
  let s := s.when s.recording (fun s => s.digAppend (digestRecord e fl ds))
  let s := s.when s.recording (fun s => s.flushTrace e.orbit e.crossing)
  s.foldEvent e fl ds

/-- The frames of an event on the lanes that its tag writes. -/
def State.eventFrames (s : State) (e : EventEntry) (fl accept digest : Nat) (veto : Bool) : State :=
  (List.range 8).foldl (fun s n =>
    if nbit (s.fld (F.DEC_LANE_CFG.tags n)) e.tag && s.laneSends n then
      let s := (s.sendFrame n (s.eventFrame n e fl accept digest)).satInc (F.DEC_LANE_STAT.events n)
      s.when veto (fun s => s.satInc F.DEC_VETO_COUNT.count)
    else s) s

/-- Release one event at its cut tick. -/
def State.releaseEvent (s : State) (e : EventEntry) : State :=
  let late := !(e.present && e.inTime)
  let veto := s.decision.vetoNext
  let fl := flagIf veto fVetoed (flagIf (s.collAborted e.runs) fAbort (flagIf late fLate e.flags))
  let ds := s.tapDigests e.tag (s.menuOf e) e.taps
  let accept := if veto then 0 else policyBits e fl
  let s := s.eventFrames e fl accept (decisionDigest fl ds) veto
  let s := s.satInc (F.TIM_DSLACK_HIST.count e.tag (if late then 0 else slackBin (ticksFrom e.stamp (32 * e.cut))))
  let s := s.when late (fun s => s.satInc (F.TIM_MENU_LATE_COUNT.count e.tag))
  let s := s.recordEvent e fl ds
  let s := s.capCause e.index (fl % 1024)
  let s := s.when (nbit fl fSampled) (fun s => s.queueShadow e ds)
  ((s.retire e fl).dropEventEntry e).copyFolds

/-- DRAINING ends after the release of the last event (R27, R447). -/
def State.drainDone (s : State) : State :=
  if s.life = lifeDraining && s.events.isEmpty then
    let cs := s.cmds.filter (fun c => c.op == 0x12 && c.stage == .waiting && !s.effects.any (fun e => e.cmd == c.id))
    cs.foldl (fun s c => s.finish c.id stOk (loHi c.progress)) (s.enter lifeLoaded)
  else s

/-- The frames of this crossing (R16, R19, R56, R235, R236): once per crossing, from the first crossing after PLL lock on. -/
def State.releaseFrames (s : State) : State :=
  if s.time.held || !s.time.started || s.decision.lastRelease = some s.xindex then s
  else
    let s := { s.decideDue with decision := { s.decideDue.decision with lastRelease := some s.xindex } }
    let due := if s.liveOrDraining then s.events.filter (fun e => e.cut == s.xindex) else []
    let s := (List.range 8).foldl (fun s n =>
      if !s.laneSends n then s.idleLane n
      else if due.any (fun e => nbit (s.fld (F.DEC_LANE_CFG.tags n)) e.tag) then s
      else s.sendFrame n (s.emptyFrame n)) s
    (due.foldl State.releaseEvent s).drainDone

/-- DEADLINE_RELEASE: tick 0 of the crossing; frames that it has not brought when the next tick comes leave then (log 125). -/
def execDeadlineRelease (s : State) : Res := done s.releaseFrames

/-! Results (R234) and replayed events (R394) -/

/-- The 128 bytes of a replay output record (R394). -/
def FrameData.record (f : FrameData) (n : Nat) : List Byte :=
  padTo 128 (leBytes 8 f.head ++ f.payload ++ leBytes 2 f.digest ++ leBytes 4 f.crc.toNat ++ leBytes 1 n)

/-- Have all pieces of a tap of `n` elements come, or one that makes it invalid (R358)? -/
def TapState.whole (t : TapState) (n : Nat) : Bool := t.bad || n ≤ t.parts.foldl (fun a p => a + p.2.length) 0

/-- Is a replayed event complete: its result is there, its collective instances are decided, and so are its taps, unless R354 leaves
only the policy's bits? Whatever the timing, it completes with the same digests (R351). -/
def State.replayReady (s : State) (e : EventEntry) : Bool :=
  e.present && !s.coll.runs.any (fun r => e.runs.contains r.id && r.open) &&
    (nbit e.flags fError || s.coll.runs.any (fun r => e.runs.contains r.id && r.failed) ||
      ((s.menuOf e).elim [] (fun m => m.taps)).all (fun i => (tapOf e.taps i).whole (s.tapSize e.tag i)))

/-- Write the records of a completed replayed event: one for each lane that its tag writes. -/
def State.replayEvent (s : State) (e : EventEntry) : State :=
  let fl := flagIf (s.coll.runs.any (fun r => e.runs.contains r.id && r.failed)) fAbort e.flags
  let ds := s.tapDigests e.tag (s.menuOf e) e.taps
  let s := (List.range 8).foldl (fun s n =>
    if nbit (s.fld (F.DEC_LANE_CFG.tags n)) e.tag then
      let f := s.eventFrame n e fl (policyBits e fl) (decisionDigest fl ds)
      (s.ringWrite 0xF8000000 0x08000000 (128 * s.fld F.CFM_RPL_STAT.records) (f.record n)).wrapInc F.CFM_RPL_STAT.records
    else s) s
  ((((s.recordEvent e fl ds).retire e fl).dropEventEntry e).copyFolds)

/-- Replayed events complete in the order of their presentation, not while MCLK is lost (R32); after the last one the replay ends
(R394). -/
def State.completeReplay (s : State) : State :=
  if s.life != lifeReplay || s.time.held then s
  else
    let s := s.events.foldl (fun s e =>
      match s.events.head? with
      | some x => if x.index = e.index && s.replayReady x then s.replayEvent x else s
      | none => s) s
    match s.replay with
    | some r => if r.left = 0 && s.events.isEmpty then s.endReplay stOk [] else s
    | none => s

/-- Replace the first result that is to come under a tag, or take it out. -/
def setAwait (tag : Nat) (x : Option Await) : List Await → List Await
  | [] => []
  | a :: l => if a.tag = tag then x.toList ++ l else a :: setAwait tag x l

/-- A result has come whole (R55, R234): late, it is discarded; a malformed one counts, in time or late. -/
def State.takeResult (s : State) (a : Await) (w : Nat) : State :=
  let bad := a.excess || a.tokens.length < a.results
  let s := if bad then (s.satInc F.DEC_RESULT_ERR.count).when (nbit (s.fld F.DEC_INT_EN.en) 4) (fun s => s.pulse 228) else s
  match (if !a.replay && behind s.time.spool (32 * a.cut) then none else s.events.find? (fun e => e.index == a.index)) with
  | none => s.satInc F.TIM_LATE_STAT.discarded
  | some e =>
    let fl := flagIf (nbit w 2 || bad || a.err) fError (flagIf (nbit w 1) fSpilled (flagIf (nbit w 0) fOvf e.flags))
    s.setEvent { e with tokens := a.tokens, present := true, inTime := true, stamp := s.time.spool, flags := fl }

/-- A token of a result reaches the decision output of a die. Results belong to the events of their tag in the order of presentation
(R234); an ERROR token in place of data makes the event one in error. -/
def State.takeResultToken (s : State) (die : Nat) (t : Token) : State :=
  if t.ev.shadow then
    if t.isCtl 1 && s.shadow.run.elim false (fun r => r.ev.index == t.ev.index) then { s with shadow := { s.shadow with ended := true } }
    else s
  else match s.decision.awaits.find? (fun a => a.tag == t.tag) with
    | none => s
    | some a =>
      let put (x : Option Await) : State := { s with decision := { s.decision with awaits := setAwait t.tag x s.decision.awaits } }
      if a.die != die then s
      else if t.operand then
        let a := { a with err := a.err || t.errData }
        put (some (if a.tokens.length < a.results then { a with tokens := a.tokens ++ [if t.errData then [] else t.lanes] }
          else { a with excess := true }))
      else if t.isCtl 1 then (put none).takeResult a (t.lane 0).toNat
      else s

/-- What is on its way to the decision output of a die, up to the first EVENT_END, arrives. -/
def State.resultArrival (s : State) (die : Nat) : State :=
  let ts := (s.trellis.flight.filter (fun f => f.dest == .decision die)).map (fun f => f.tok)
  let n := (ts.findIdx? (fun t => t.isCtl 1)).elim 0 (fun i => i + 1)
  let s := Nat.repeat (fun s => (s.takeFlight (.decision die)).elim s (fun r => r.2)) n s
  ((ts.take n).foldl (fun s t => s.takeResultToken die t) s).completeReplay

/-- TAP_DIGEST_PIECE -/
def execTapDigestPiece (s : State) : Res := unstalled s s.tapPiece.completeReplay

/-- RESULT_ARRIVAL -/
def execResultArrival (die : Fin 2) (s : State) : Res := unstalled s (s.resultArrival die)

end Sys2Proof.Machine
end

