-- ==== Sys2Proof/Machine/Barrier.lean ====
section
/-!
DEFINITION. Entering LIVE and the SYNC_N barrier (R52, R53, R72, R241-R243, R250, R446). The rows of the barrier carry the
samples of tick 16; an action named for tick 0 of a crossing is due from the last tick of the crossing before (log 6).
-/
namespace Sys2Proof.Machine

/-! The rest of a crossing -/

/-- The level on SYNC_N: low while any device drives it. -/
def State.syncN (s : State) : Bool := s.pins.syncNOut && !s.decision.syncDriven

/-- One spool tick inside a crossing: frames that tick 0 has not sent yet leave before it is past (R16, R19), wall time runs (R48),
SYNC_N is sampled at tick 16 in BARRIER (R242), VETO_N at tick 28 (R238). -/
def State.tick (s : State) : State :=
  let s := (s.when (s.time.spool % 32 == 0) State.releaseFrames).runWall 1
  let s : State := { s with time := { s.time with spool := wrap64 (s.time.spool + 1) } }
  let s := s.when (s.time.spool % 32 == 16 && s.syncMode == 2) (fun s => s.setFld F.DEC_SYNC_STAT.line (b2n s.syncN))
  s.when (s.time.spool % 32 == 28) State.sampleVeto

/-- The ticks up to the last one of the crossing pass at once. -/
def State.toLastTick (s : State) : State :=
  if s.time.relock then s else Nat.repeat State.tick (31 - s.time.spool % 32) s

/-- May the device reach the next crossing boundary: it counts, and does not hold (R31, R32)? -/
def State.counts (s : State) : Bool := s.time.started && !s.time.held

/-- With no command waiting, one spool tick passes while the counters run, up to the last tick of the crossing: the boundary
is a command (log 5). -/
def State.idleTick (s : State) : Res :=
  done (State.postAllMsix (if s.counts && !s.time.relock && s.time.spool % 32 < 31 then s.tick else s))

/-- Is tick 0 of crossing `x` the next tick, or past? -/
def State.reached (s : State) (x : Nat) : Bool := 32 * x ≤ s.nextTick

/-! Entry to LIVE -/

/-- The commands whose start of LIVE is overtaken: a pending SCHEDULE_LAUNCH (R72) and every pending START_LIVE but `by`
(R446). -/
def State.overtake (s : State) (by' : Nat) : State :=
  let lost := (s.effects.filter (fun e => e.kind.isStart && e.cmd != by')).map (fun e => e.cmd)
  let s := { s with effects := s.effects.filter (fun e => !e.kind.isStart) }
  let s := lost.foldl (fun s id => s.finish id stAborted []) s
  match s.time.launch with
  | some (_, id) => if id = by' then s.dropLaunch else s.dropLaunch.finish id stAborted []
  | none => s

/-- Enter LIVE on behalf of command `by'` (0: the barrier). -/
def State.enterLive (s : State) (by' : Nat) : State := (s.enter lifeLive).overtake by'

/-! The barrier (R241-R243) -/

/-- A write of DEC_SYNC_CFG: the barrier returns to HOLDING (R242). -/
def State.writeSyncCfg (s : State) (value : Word) : State :=
  (s.setReg Reg.DEC_SYNC_CFG (value &&& 0xFFFFFF03)).holdBarrier

/-- DEC_SYNC_CFG_WRITE -/
def execDecSyncCfgWrite (value : Word) (s : State) : Res := done (if s.up then s.writeSyncCfg value else s)

/-- The state of the barrier. -/
def State.sync (s : State) : Nat := s.fld F.DEC_SYNC_STAT.state

/-- The device starts or stops driving SYNC_N. -/
def State.driveSync (s : State) (b : Bool) : State := { s with decision := { s.decision with syncDriven := b } }

/-- The level that the rest of the crate leaves on SYNC_N, as sampled. -/
def State.sampleSync (s : State) (high : Bool) : State :=
  let s : State := { s with pins := { s.pins with syncNOut := high } }
  s.setFld F.DEC_SYNC_STAT.line (b2n s.syncN)

/-- Is the package ready at the barrier (R241)? -/
def State.syncReady (s : State) : Bool :=
  s.syncMode == 2 && s.life == lifeArmed && s.bit F.TIM_STATUS.pll_lock && !s.bit F.TIM_STATUS.launch_pending

/-- A ready package releases the line; other packages hold it low until SYNC_RISE (log 99). -/
def State.syncRelease (s : State) : State :=
  if s.syncReady && s.sync == syHolding then
    let s := (s.setFld F.DEC_SYNC_STAT.state syWaiting).driveSync false
    { s with pins := { s.pins with syncNOut := false } }
  else s

/-- SYNC_RELEASE: at tick 0 (R242). -/
def execSyncRelease (s : State) : Res := done (if s.atTick0 then s.syncRelease else s)

/-- SYNC_RISE: the sample of this crossing is high. -/
def execSyncRise (s : State) : Res := done
  (if s.syncMode == 2 && s.sync == syWaiting && !s.decision.syncDriven then
    let s := (s.sampleSync true).setFld F.DEC_SYNC_STAT.state syRisen
    { s with decision := { s.decision with riseXing := s.xindex, stuckDue := false } }
  else s)

/-- SYNC_CONFIRM: the sample of the crossing after the rise is high. -/
def execSyncConfirm (s : State) : Res := done
  (if s.sync == syRisen && s.xindex == s.decision.riseXing + 1 then
    (s.sampleSync true).setFld F.DEC_SYNC_STAT.state syConfirmed
  else s)

/-- SYNC_CANCEL: the sample of C + 1 or C + 2 is low. -/
def execSyncCancel (s : State) : Res := done
  (if (s.sync == syRisen || s.sync == syConfirmed) &&
      (s.xindex == s.decision.riseXing + 1 || s.xindex == s.decision.riseXing + 2) then
    let s := ((s.sampleSync false).setFld F.DEC_SYNC_STAT.state syWaiting).satInc F.DEC_SYNC_STAT.cancel_count
    s.when (nbit (s.fld F.DEC_INT_EN.en) 3) (fun s => s.pulse 227)
  else s)

/-- Crossing index `n` after a load of the count that makes crossing `old` crossing `x`. -/
def movedIndex (old x n : Nat) : Nat := (n + x + 2 ^ 59 - old) % 2 ^ 59

/-- A spool count after that load. -/
def movedTick (old x n : Nat) : Nat := (n + 32 * x + 2 ^ 64 - 32 * old) % 2 ^ 64

/-- What the model keeps by crossing index or spool count follows a load of the count that makes crossing `old` crossing `x`: lanes that
file already, the acceptance of a TIME_ALIGN, the barrier's rise, the crossing whose frames have left, the cut ticks of events in flight
with the results to come and the deadlines of their collectives, the wait timers and the last moves of tokens, a START_LIVE, and a DRAIN whose D
was not named (log 53). -/
def State.renumber (s : State) (old x : Nat) : State :=
  let s := (List.range 96).foldl (fun s n => if (s.lane n).joinFrom = 0 then s else s.setLane n { s.lane n with joinFrom := 0 }) s
  { s with
    time := { s.time with align := s.time.align.map (fun w => { w with accepted := movedIndex old x w.accepted }) }
    decision := { s.decision with
      riseXing := movedIndex old x s.decision.riseXing
      lastRelease := if s.decision.lastRelease = some old then some x else none
      awaits := s.decision.awaits.map (fun a => { a with cut := movedIndex old x a.cut }) }
    events := s.events.map (fun e => { e with cut := movedIndex old x e.cut, stamp := movedTick old x e.stamp })
    trellis := { s.trellis with
      units := s.trellis.units.map (fun e => (e.1, { e.2 with since := movedTick old x e.2.since }))
      moved := s.trellis.moved.map (fun e => (e.1, e.2.map (movedTick old x))) }
    coll := { s.coll with runs := s.coll.runs.map (fun r =>
      { r with deadline := movedTick old x r.deadline, commit := movedTick old x r.commit }) }
    effects := s.effects.map (fun e => match e.kind with
      | .startLive => { e with crossing := movedIndex old x e.crossing }
      | .drain false => { e with crossing := movedIndex old x e.crossing }
      | _ => e) }

/-- An effect that a load of the count passes over is abandoned: its command ends with ST_ABORTED, and nothing of it stays (R619). -/
def State.abandon (s : State) (e : Effect) : State :=
  (s.when (isSelectMenu e.kind) State.dropSwitch).finish e.cmd stAborted []

/-- The spool count is loaded and a new count begins with crossing index `x`: effects named for a crossing before it
are abandoned (R619). One that is named for crossing `x` itself stays pending, also where tick 0 of `x` is
past (log 149). -/
def State.loadCount (s : State) (x : Nat) : State :=
  let gone := s.effects.filter (fun e => e.kind.named && e.crossing < x)
  let s := { s with effects := s.effects.filter (fun e => !(e.kind.named && e.crossing < x)) }
  gone.foldl State.abandon s

/-- The preset of a barrier launch: the next tick 0 begins crossing index P / 32 of a new count (R53, R619). -/
def State.loadPreset (s : State) : State :=
  if !s.bit F.TIM_CTRL.sync_preset_en then s
  else
    let x := s.wide Reg.TIM_SYNC_PRESET_LO / 32
    let s := s.renumber (s.xindex + 1) x
    (State.followCount { s with time := { s.time with spool := wrap64 (32 * x + (2 ^ 64 - 1)) } } x).loadCount x

/-- Does the barrier launch at the next boundary? -/
def State.syncDue (s : State) : Bool :=
  s.counts && s.sync == syConfirmed && s.life == lifeArmed && s.reached (s.decision.riseXing + 3)

/-- The barrier launches (R242). -/
def State.launchSync (s : State) : State :=
  let s := s.loadPreset
  let s := s.setWide Reg.DEC_SYNC_LAUNCH_LO (wrap64 (s.time.spool + 1))
  (s.raise F.DEC_SYNC_STAT.launched).enterLive 0

/-- SYNC_LAUNCH -/
def execSyncLaunch (s : State) : Res := done (if s.syncDue then s.noting State.launchSync else s)

/-- What the barrier does at tick 0 beside a launch (R242, R243): a stuck timer that has run out in WAITING closes it; a ready package releases
the line; one that holds drives it. -/
def State.syncTick0 (s : State) : State :=
  let s' := { s with decision := { s.decision with stuckDue := false } }
  if s.decision.stuckDue && s.sync == syWaiting then
    (((s'.raise F.DEC_SYNC_STAT.stuck).setFld F.DEC_SYNC_CFG.mode 1).setFld F.DEC_SYNC_STAT.state syHolding).driveSync true
  else if s.syncReady && s.sync == syHolding then s.syncRelease
  else if s.syncMode == 2 && s.sync == syHolding then s'.driveSync true
  else s'

/-- SYNC_STUCK: the line has been low in WAITING for timeout_us. The barrier closes at the next tick 0, unless the sample of tick 16 before it is
high (R243, R250). -/
def execSyncStuck (s : State) : Res := done
  (if s.syncMode == 2 && s.sync == syWaiting && !s.syncN then
    let s : State := { s with decision := { s.decision with stuckDue := true } }
    s.when s.atTick0 State.syncTick0
  else s)

end Sys2Proof.Machine
end

