-- ==== Sys2Proof/Machine/Interrupt.lean ====
section
/-!
DEFINITION. The interrupt controller's commands (R494-R508): software pending, configuration, claim, EOI, the rate
interval, and unmasking of MSI-X vectors.
-/
namespace Sys2Proof.Machine

/-- The bits that a write of `v` to the `i`-th register of a source map names; source 0 is never among them. -/
def mapBits (i v : Nat) : BitVec 256 := BitVec.ofNat 256 (v * 2 ^ (32 * i)) &&& ~~~(1#256)

/-- Set pending by software, in either mode (R496); a source that is pending already stays as it is (R12). -/
def State.pendSet (s : State) (i v : Nat) : State :=
  { s with intc := { s.intc with
    pend := s.intc.pend ||| mapBits i v
    soft := s.intc.soft ||| (mapBits i v &&& ~~~s.intc.pend) } }

/-- Clear pending; on a level source that is not active and whose origin is asserted the clear has no effect (R496). -/
def State.pendClear (s : State) (i v : Nat) : State :=
  let held := ~~~s.edgeMap &&& ~~~s.intc.active &&& s.origins
  let gone := mapBits i v &&& ~~~held
  { s with intc := { s.intc with pend := s.intc.pend &&& ~~~gone, soft := s.intc.soft &&& ~~~gone } }

/-- INT_PEND_SET -/
def execIntPendSet (i : Fin 8) (value : Word) (s : State) : Res :=
  done (if s.up then s.pendSet i value.toNat else s)

/-- INT_PEND_CLEAR -/
def execIntPendClear (i : Fin 8) (value : Word) (s : State) : Res :=
  done (if s.up then s.pendClear i value.toNat else s)

/-- INT_SRC_CFG_WRITE: INT_SRC_CFG[0] ignores writes; a mode change re-derives pending at once, in `settle` (R494). -/
def State.writeSrcCfg (s : State) (x : Nat) (value : Word) : State :=
  if x = 0 then s else s.setReg (Reg.INT_SRC_CFG x) (value &&& 0x00FFFFFF)

/-- INT_SRC_CFG_WRITE -/
def execIntSrcCfgWrite (source : Fin 256) (value : Word) (s : State) : Res :=
  done (if s.up then s.writeSrcCfg source value else s)

/-- A write of INT_TGT_VEC: past vector 63 it is ignored with cfg_err; INT_TGT_VEC[3] reads 0 (R498, R499). -/
def State.writeTgtVec (s : State) (k : Nat) (value : Word) : State :=
  if k = 3 then s
  else if 63 < bits value.toNat 0 6 + max 1 (bits value.toNat 8 4) - 1 then s.raise (F.INT_TGT_STAT.cfg_err k)
  else s.setReg (Reg.INT_TGT_VEC k) (value &&& 0xF3F)

/-- INT_TGT_VEC_WRITE -/
def execIntTgtVecWrite (target : Fin 4) (value : Word) (s : State) : Res :=
  done (if s.up then s.writeTgtVec target value else s)

/-- INT_TGT_THRESH_WRITE: a lower threshold may raise the best claimable priority, which sends a message (R507). -/
def execIntTgtThreshWrite (target : Fin 4) (value : Word) (s : State) : Res :=
  done (if s.up then s.setReg (Reg.INT_TGT_THRESH target) (value &&& 0xF) else s)

/-- The word that INT_TGT_CLAIM and INT_TGT_PEEK show for a source and its priority. -/
def claimWord (b : Nat × Nat) : Word := packWord [(b.1, 0), (b.2, 8)]

/-- What a claim at target `k` would return now (R500). -/
def State.peek (s : State) (k : Nat) : Word :=
  if 8 ≤ (s.intc.stack k).length then 0 else claimWord (s.bestOf s.intc k)

/-- The state after claiming source `b.1` at priority `b.2` (R494, R495, R500). -/
def State.take (s : State) (k : Nat) (b : Nat × Nat) : State :=
  { s with intc := { s.intc with
    pend := putMap s.intc.pend b.1 false
    soft := putMap s.intc.soft b.1 false
    active := putMap s.intc.active b.1 true
    rate := if s.fld (F.INT_SRC_CFG.rate_us b.1) = 0 then s.intc.rate else putMap s.intc.rate b.1 true
    nested := tset (fun _ => []) s.intc.nested k (b :: s.intc.stack k) } }

/-- A claim at target `k` (R500): what it answers is in `rdata`. -/
def State.claim (s : State) (k : Nat) : State :=
  if 8 ≤ (s.intc.stack k).length then { s.satInc (F.INT_TGT_STAT.claim_full k) with rdata := 0 }
  else
    let b := s.bestOf s.intc k
    if b.1 = 0 then { s with rdata := 0 } else { s.take k b with rdata := claimWord b }

/-- INT_CLAIM: a direct read of INT_TGT_CLAIM on any of the three paths; it answers 0 before the controller starts (R510). -/
def execIntClaim (_path : Path) (target : Fin 4) (s : State) : Res :=
  done (if s.up then s.claim target else { s with rdata := 0 })

/-- Does an EOI of source `x` name the top of the stack of target `k` (R501)? -/
def State.eoiMatches (s : State) (k x : Nat) : Bool := match s.intc.stack k with
  | [] => false
  | e :: _ => e.1 == x

/-- A write of INT_TGT_EOI (R501); the register records the value written (R7). -/
def State.eoi (s : State) (k : Nat) (value : Word) : State × Option Nat :=
  let x := value.toNat % 256
  let s := s.setReg (Reg.INT_TGT_EOI k) (value &&& 0xFF)
  if x = 0 then (s, none)
  else if s.eoiMatches k x then
    ({ s with intc := { s.intc with
        active := putMap s.intc.active x false
        nested := tset (fun _ => []) s.intc.nested k (s.intc.stack k).tail } }, some k)
  else ((s.satInc (F.INT_TGT_STAT.eoi_mismatch_count k)).raise (F.INT_TGT_STAT.eoi_mismatch k), none)

/-- INT_EOI: a level source whose origin is still asserted becomes pending again, and a message follows while the best
claimable priority is not zero (R498, R501). -/
def execIntEoi (target : Fin 4) (value : Word) (s : State) : Res :=
  if s.up then
    let r := s.eoi target value
    .next (r.1.settleWith r.2)
  else done s

/-- INT_RATE_EXPIRY: the interval after the last claim of the source ends (R495). -/
def execIntRateExpiry (source : Fin 256) (s : State) : Res :=
  done { s with intc := { s.intc with rate := putMap s.intc.rate source false } }

/-- Send the messages held for the vectors that are no longer masked (R498). -/
def State.sendHeld (s : State) : State :=
  { s with msix := (List.range 64).foldl (fun m v =>
    if nbit m.pba.toNat v && !m.masked && !s.bit (F.HUB_MSIX_CTRL.mask v) then
      s.message { m with pba := m.pba &&& ~~~BitVec.ofNat 64 (2 ^ v) } v
    else m) s.msix }

/-- MSIX_UNMASK: clear a vector's mask, or the function mask (R498). -/
def execMsixUnmask (vector : Option (Fin 64)) (s : State) : Res :=
  done (match vector with
    | some v => (s.lower (F.HUB_MSIX_CTRL.mask v)).sendHeld
    | none => State.sendHeld { s with msix := { s.msix with masked := false } })

end Sys2Proof.Machine
end

