-- ==== Sys2Proof/Machine/Ledger.lean ====
section
/-!
DEFINITION. The run ledger in flash (R542): its copies, and what firmware takes of them.
-/
namespace Sys2Proof.Machine

/-- Base of the run ledger. -/
def ledgerBase : Nat := 0x1F00000
/-- Size of one half. -/
def ledgerHalf : Nat := 0x80000

/-- Copy `h` of record index `i`. -/
def State.ledgerCopy (s : State) (h i : Nat) : List Byte := s.flashRead (ledgerBase + ledgerHalf * h + 256 * i) 256

/-- Has a copy the magic "LDGR"? -/
def ledgerMagic (bs : List Byte) : Bool := bs.take 4 == [0x4C, 0x44, 0x47, 0x52]

/-- Does the CRC of a copy pass? -/
def ledgerCrc (bs : List Byte) : Bool := (crc32c (bs.take 252)).toNat == leNat (bs.drop 252)

/-- Is a copy whole? -/
def ledgerGood (bs : List Byte) : Bool := ledgerMagic bs && ledgerCrc bs

/-- Is a copy torn? -/
def ledgerTorn (bs : List Byte) : Bool := ledgerMagic bs && !ledgerCrc bs

/-- The sequence number of a copy. -/
def ledgerSeq (bs : List Byte) : Nat := leNat (sub bs 4 4)

/-- The copy taken for record index `i`: the whole one, or of two the one with the higher sequence number. -/
def State.ledgerPick (s : State) (i : Nat) : Option (List Byte) :=
  let a := s.ledgerCopy 0 i
  let b := s.ledgerCopy 1 i
  match ledgerGood a, ledgerGood b with
  | true, true => some (if ledgerSeq a < ledgerSeq b then b else a)
  | true, false => some a
  | false, true => some b
  | false, false => none

/-- The record indices at which flash holds anything. -/
def State.ledgerUsed (s : State) : List Nat :=
  let keys := (s.flash.filter (fun e => ledgerBase ≤ e.1 && e.1 < ledgerBase + 2 * ledgerHalf)).map (fun e => (e.1 - ledgerBase) % ledgerHalf / 256)
  (List.range 2048).filter (fun i => keys.contains i)

/-- Firmware recomputes the ledger counts: at each entry to SAFE and after every ledger write (R542). -/
def State.scanLedger (s : State) : State :=
  let us := s.ledgerUsed
  let good := us.filterMap s.ledgerPick
  let torn := us.foldl (fun n i => n + b2n (ledgerTorn (s.ledgerCopy 0 i)) + b2n (ledgerTorn (s.ledgerCopy 1 i))) 0
  ((s.setFld F.PWR_LDG_SEQ.seq (good.foldl (fun m r => max m (ledgerSeq r)) 0)).setFld F.PWR_LDG_CNT.valid good.length).setFld
    F.PWR_LDG_CNT.torn (min 0xFFFF torn)

/-- Word `w` of the chosen copy of the selected record (PWR_LDG_DATA); 0 where there is none. -/
def State.ledgerWord (s : State) (w : Nat) : Word := match s.ledgerPick (s.fld F.PWR_LDG_SEL.index) with
  | none => 0
  | some r => BitVec.ofNat 32 (leNat (sub r (4 * w) 4))

end Sys2Proof.Machine
end

