-- ==== Sys2Proof/Machine/View.lean ====
section
/-!
DEFINITION. What a register reads as (R6-R8): most registers read as they stand; those whose home is elsewhere in the
state are computed here. A read has no effect (R410).
-/
namespace Sys2Proof.Machine

/-- Word `i` of a 256-bit map. -/
def mapWord (m : BitVec 256) (i : Nat) : Word := BitVec.ofNat 32 (m.toNat >>> (32 * i))

/-- The 256 bytes of the fuse configuration block (R517). -/
def State.fuseBlock (s : State) : List Byte :=
  let map := (List.range 128).foldl (fun a k => a + (s.fusedMask (k / 8) (k % 8) % 512) * 2 ^ (9 * k)) 0
  leBytes 8 s.fuses.serial.toNat ++ leBytes 1 (b2n s.fuses.gradeM) ++ [0x0B, s.fuses.security] ++ List.replicate 5 0#8 ++
    tgetMany (fun _ => 0) 1 s.fuses.keyHash 0 48 ++ leBytes 144 map ++ List.replicate 48 0#8

/-- HUB_MENU_INFO of tag `t` (R215). -/
def State.menuInfo (s : State) (t : Nat) : Word := match s.menuAt t with
  | none => 0
  | some m => packWord [(b2n (s.bankOf m).isSome, 0), (b2n (s.weightsReady m), 1), (b2n (s.isResident m), 2),
      (b2n (s.tagInUse t), 3), (((s.bankOf m).or (s.fillingBank m)).getD 0, 4), (m.fold, 5), (m.number, 12), (b2n (s.image.unfit.contains m.number), 16)]

/-- TIM_MENU_LATE and TIM_MENU_MASK describe the resident menu of a tag (R67). -/
def State.menuLate (s : State) (t : Nat) : Word := match s.residentAt t with
  | none => 0
  | some m => packWord [(m.dlat, 0), (b2n m.maskPolicy, 8), (m.number, 12)]

/-- The default mask of the resident menu of a tag. -/
def State.menuMask (s : State) (t : Nat) : Nat := (s.residentAt t).elim 0 (fun m => m.mask.toNat)

/-- The code of an engine's state (R481). -/
def EngineMode.code : EngineMode → Nat
  | .idle => 0
  | .running => 1
  | .preempted => 2
  | .faulted => 3

/-- The batch of sixteen descriptors that the engine holds now: the number of descriptors before it (R466, R481, log 162). -/
def Engine.batch (g : Engine) : Nat := min g.descIdx (g.descs.length - 1) / 16 * 16

/-- Words 0 to 3 of the context of engine `e` (R481). -/
def State.engineWords (s : State) (e : Nat) : List Word :=
  let g := s.engine e
  if g.mode == .idle then [0, 0, 0, 0]
  else [packWord [(g.mode.code, 0), (b2n g.preemptPending, 3), (min g.descIdx (g.descs.length - 1) % 16, 4),
      (min 16 (g.descs.length - g.batch), 8)],
    BitVec.ofNat 32 g.done, BitVec.ofNat 32 g.total, packWord [(g.seq, 0), (g.queue, 16), (g.op, 20)]]

/-- The code of a stage (R429). -/
def Stage.code : Stage → Nat
  | .fetched => 1
  | .running => 2
  | .preempted => 3
  | .waiting => 4
  | .accepted => 5

/-- HUB_QP_INFLIGHT: the command that holds the queue. -/
def State.holding (s : State) (q : Nat) : Word := match (s.queueCmds q).find? (fun c => c.stage != .accepted) with
  | none => 0
  | some c => packWord [(c.seq, 0), (c.op, 16), (c.stage.code, 24)]

/-- COL_VC_INST and COL_VC_PROG of channel `v`: the oldest open run of its group. -/
def State.vcRun (s : State) (v : Nat) : Word × Word := match (s.vcGroup v).bind (fun g => (s.openRuns g).head?) with
  | none => (0, 0)
  | some r => (packWord [(r.ordinal, 0), (r.entry, 16), ((s.schedCfg r.entry).op, 24), (r.axis % 4, 27), (b2n r.bcast, 29), (1, 31)],
      packWord [(r.sent % 65536, 0), (r.landed % 65536, 16)])

/-- DEC_PINS: FAULT_N, IRQ_N, VETO_N, SYNC_N from bit 0 on (log 42). -/
def State.decPins (s : State) : Word :=
  packWord [(b2n (s.faultN && s.pins.faultNOut), 0), (b2n s.irqN, 1), (b2n !s.decision.vetoPin, 2), (b2n s.syncN, 3)]

/-- Positions in service of a die, bit 9r + p (TRL_CU_MAP); a fenced die has none available (R367). -/
def State.cuMap (s : State) (d : Nat) : Nat :=
  if s.fenced d then 0
  else (List.range 72).foldl (fun a i => if (s.logicalOf d (i / 9) (i % 9)).isSome then a + 2 ^ i else a) 0

/-- TRL_SITE_CUR. -/
def State.siteCur (s : State) (d k : Nat) : Word :=
  let mu := b2n (isMuCol (k % 13))
  match s.unitAtSite d k with
  | none => packWord [(mu, 12)]
  | some u => match (s.unit u).slot with
    | none => packWord [(mu, 12)]
    | some i =>
      let h := s.slotHeader u i
      packWord [(i, 0), (h.tag, 4), (h.ctx, 7), (b2n (!s.unitQuiet u), 11), (mu, 12)]

/-- Counter values of a site; a memory unit shows generator 0. -/
def State.siteCnt (s : State) (d k j : Nat) : Nat := match s.unitAtSite d k with
  | none => 0
  | some u => (if isMu u then ((s.unit u).gen 0).cnt else (s.unit u).cnt).getD j 0

/-- Queue occupancy of a site, 4 bits per queue. -/
def State.siteOcc (s : State) (d k : Nat) : Word := match s.unitAtSite d k with
  | none => 0
  | some u => packWord ((List.range 6).map (fun q => (((s.unit u).queue q).length, 4 * q)))

/-- TRL registers that are computed; `r`: the offset inside die `d`. -/
def State.viewTrl (s : State) (d r o : Nat) : Word :=
  if r = 0 then packWord [(d, 0), (d / 4, 4), (d % 4, 6), (b2n s.fuses.gradeM, 8), (0xB, 12)]
  else if r = 4 then BitVec.ofNat 32 (s.cuMap d)
  else if r = 8 then BitVec.ofNat 32 (s.cuMap d >>> 32)
  else if r = 0xC then BitVec.ofNat 32 (s.cuMap d >>> 64)
  else if 0x10000 ≤ r && r < 0x10000 + 0x40 * 104 then
    let k := (r - 0x10000) / 0x40
    match (r - 0x10000) % 0x40 with
    | 0 => s.siteCur d k
    | 4 => packWord [(s.siteCnt d k 0, 0), (s.siteCnt d k 1, 16)]
    | 8 => packWord [(s.siteCnt d k 2, 0), (s.siteCnt d k 3, 16)]
    | 0xC => s.siteOcc d k
    | _ => 0
  else s.reg o

/-- What the PCIe function shows of itself (R406); its serial number is HUB_SERIAL. -/
structure PcieIdentity where
  vendor : Nat
  device : Nat
  revision : Nat
  classCode : Nat
  serial : BitVec 64
  msixVectors : Nat
  maxPayload : Nat
  maxReadRequest : Nat
  deriving DecidableEq, Repr

/-- The identity of this part. -/
def State.pcieIdentity (s : State) : PcieIdentity :=
  ⟨0xE7A3, if s.fuses.gradeM then 0x0521 else 0x0520, 0x0B, 0x120000, s.fuses.serial, 64, 512, 4096⟩

/-- HUB registers that are computed. -/
def State.viewHub (s : State) (o : Nat) : Word :=
  if o = Reg.HUB_ID then packWord [(s.pcieIdentity.vendor, 0), (s.pcieIdentity.device, 16)]
  else if o = Reg.HUB_REV then packWord [(0xB, 0), (b2n s.fuses.gradeM, 4)]
  else if o = Reg.HUB_SERIAL_LO then BitVec.ofNat 32 s.fuses.serial.toNat
  else if o = Reg.HUB_SERIAL_HI then BitVec.ofNat 32 (s.fuses.serial.toNat >>> 32)
  else if 0x1000 ≤ o && o < 0x1400 && o % 0x40 = 4 then
    s.reg o ||| packWord [(b2n (s.queueRunning ((o - 0x1000) / 0x40)), 16)]
  else if 0x1000 ≤ o && o < 0x1400 && o % 0x40 = 0x28 then s.holding ((o - 0x1000) / 0x40)
  else if 0x4080 ≤ o && o < 0x40A0 then s.menuInfo ((o - 0x4080) / 4)
  else if 0x5400 ≤ o && o < 0x5500 then BitVec.ofNat 32 (leNat (sub s.fuseBlock (o - 0x5400) 4))
  else if o = 0x9000 then BitVec.ofNat 32 s.msix.pba.toNat
  else if o = 0x9004 then BitVec.ofNat 32 (s.msix.pba.toNat >>> 32)
  else s.reg o

/-- INT registers that are computed; INT_TGT_VEC[3] reads 0 (R499). -/
def State.viewInt (s : State) (o : Nat) : Word :=
  let i := (o % 0x20) / 4
  if 0x100400 ≤ o && o < 0x100440 then mapWord s.intc.pend i
  else if 0x100440 ≤ o && o < 0x100460 then mapWord s.intc.active i
  else if 0x100460 ≤ o && o < 0x100480 then mapWord s.intc.origin i
  else if 0x100480 ≤ o && o < 0x1004A0 then mapWord s.intc.rate i
  else if 0x100800 ≤ o && o < 0x100880 then
    let k := (o - 0x100800) / 0x20
    match (o - 0x100800) % 0x20 with
    | 4 => s.peek k
    | 0xC => s.peek k
    | 0x10 => s.reg o ||| packWord [((s.intc.stack k).length, 0), (s.intc.running k, 4)]
    | 0x14 => if k = 3 then 0 else s.reg o
    | _ => s.reg o
  else s.reg o

/-- TIM registers that are computed (R48, R67). -/
def State.viewTim (s : State) (o : Nat) : Word :=
  if o = Reg.TIM_SPOOL_LO then BitVec.ofNat 32 s.time.spool
  else if o = Reg.TIM_SPOOL_HI then BitVec.ofNat 32 (s.time.spool >>> 32)
  else if o = Reg.TIM_XING then packWord [(s.time.crossing % 65536, 0), (s.time.spool % 32, 16)]
  else if o = Reg.TIM_ORBIT then BitVec.ofNat 32 s.time.orbit
  else if o = Reg.TIM_WALL_FRAC then BitVec.ofNat 32 s.wallFrac
  else if o = Reg.TIM_WALL_SEC_LO then BitVec.ofNat 32 s.time.wallSec
  else if o = Reg.TIM_WALL_SEC_HI then BitVec.ofNat 32 (s.time.wallSec >>> 32)
  else if 0x200100 ≤ o && o < 0x200180 then
    let t := (o - 0x200100) / 0x10
    match o % 0x10 with
    | 0 => s.menuLate t
    | 4 => BitVec.ofNat 32 (s.menuMask t)
    | 8 => BitVec.ofNat 32 (s.menuMask t >>> 32)
    | _ => s.reg o
  else s.reg o

/-- The remaining blocks. -/
def State.viewRest (s : State) (o : Nat) : Word :=
  if 0x300100 ≤ o && o < 0x300200 then
    let ws := s.engineWords ((o - 0x300100) / 0x20)
    match o % 0x20 with
    | 0 => ws.getD 0 0
    | 4 => ws.getD 3 0
    | 8 => ws.getD 1 0
    | 0xC => ws.getD 2 0
    | _ => 0
  else if 0x400080 ≤ o && o < 0x400100 then s.tempWord ((o - 0x400080) / 4)
  else if o = Reg.PWR_FAIL_STAT then s.reg o ||| packWord [(b2n s.pins.powerFailN, 1)]
  else if o = Reg.PWR_BAL_SENSE then packWord [(min 1800 s.pins.holdupMv, 0)]
  else if 0x400200 ≤ o && o < 0x400300 then s.ledgerWord ((o - 0x400200) / 4)
  else if o = Reg.MGT_MOD_STAT then s.reg o ||| packWord [(b2n s.pins.modSda, 3), (b2n s.pins.modScl, 4)]
  else if o = Reg.SEC_STAT then s.reg o ||| packWord [(b2n s.fuses.keyValid, 0)]
  else if o = Reg.DEC_PINS then s.decPins
  else if 0xD00400 ≤ o && o < 0xD00600 && o % 0x20 = 0 then (s.vcRun ((o - 0xD00400) / 0x20)).1
  else if 0xD00400 ≤ o && o < 0xD00600 && o % 0x20 = 4 then (s.vcRun ((o - 0xD00400) / 0x20)).2
  else if o = Reg.DET_FENCE then
    s.reg o ||| BitVec.ofNat 32 ((List.range 16).foldl (fun a d => if s.domOn (8 + d) then a else a + 2 ^ d) 0)
  else if 0xF00100 ≤ o && o < 0xF00300 then
    let k := (o - 0xF00100) / 4
    s.reg o ||| packWord [(s.fusedMask (k / 8) (k % 8) % 512, 0)]
  else s.reg o

/-- What the register at BAR0 offset `o` reads as, without a claim (R500). -/
def State.view (s : State) (o : Nat) : Word :=
  match o / 0x100000 with
  | 0 => s.viewHub o
  | 1 => s.viewInt o
  | 2 => s.viewTim o
  | b => if 16 ≤ b && b < 32 then s.viewTrl (b - 16) (o % 0x100000) o else s.viewRest o

/-- Does a read of offset `o` answer, as far as the device has come up (R510)? From firmware start on, and while the ROM
serves the rings, everywhere. -/
def State.readable (s : State) (o : Nat) : Bool :=
  s.up || (3 ≤ s.power.boot && (o == Reg.HUB_ID || o == Reg.HUB_REV || o == Reg.HUB_SERIAL_LO || o == Reg.HUB_SERIAL_HI ||
    o == Reg.HUB_STATE || (0x5000 ≤ o && o < 0x6000)))

end Sys2Proof.Machine
end

