-- ==== Sys2Proof/Machine/Atlas.lean ====
section
/-!
DEFINITION. The state atlas (R425-R430, R481, R503): what each address reads as. Every 32-bit word read is the word's value
at that moment (R428). Writing is in Machine/Access.lean.
-/
namespace Sys2Proof.Machine

/-- 32 bits of a list of words. -/
def wordAt (ws : List Word) (r : Nat) : Word := ws.getD (r / 4) 0

/-- The word at byte `r` of a list of bytes; 0 beyond its end. -/
def wordIn (bs : List Byte) (r : Nat) : Word := BitVec.ofNat 32 (leNat (sub bs r 4))

/-- An entry of the deadline ring (R425): the event of this decision output whose index is `i` mod 128, else what the last one
there left. -/
def State.deadlineEntry (s : State) (die i : Nat) : List Byte :=
  match s.events.find? (fun e => e.index % 128 == i && s.ringDie e == die) with
  | some e => s.ringEntry e e.flags true
  | none => tget (fun _ => []) s.decision.ring (128 * die + i)

/-- A slot of an early or a retry store (R425). -/
def chunkSlot (c : Option Chunk) : List Byte := c.elim [] (fun c => c.bytes)

/-- The regions of a tether die (R425). -/
def State.tetherWord (s : State) (die r : Nat) : Word :=
  if r < 0x40 * 3072 then
    if r % 0x40 < 0x2C then s.view (Reg.RDL_CH_FIELD (3072 * die + r / 0x40) + r % 0x40) else 0
  else if 0x100000 ≤ r && r < 0x104000 then wordIn (s.deadlineEntry die ((r - 0x100000) / 0x80)) (r % 0x80)
  else if 0x200000 ≤ r && r < 0x240000 then
    let v := (r - 0x200000) / 0x4000
    let mine := (s.vcGroup v).elim false (fun g => (List.range 256).any (fun k =>
      (s.schedCfg k).op != 0 && (s.schedCfg k).group == g && (s.schedCfg k).die == die))
    if mine then wordIn (chunkSlot ((s.vchan v).early[(r - 0x200000) % 0x4000 / 0x400]?)) (r % 0x400) else 0
  else if 0x300000 ≤ r && r < 0x340000 then
    wordIn (chunkSlot (((s.coll.retry.filter (fun e => e.1 == die))[(r - 0x300000) / 0x400]?).map (fun e => e.2))) (r % 0x400)
  else 0

/-- The code of a class (R429). -/
def Cls.code : Cls → Nat
  | .brief => 0
  | .chunked => 1
  | .waiting => 2

/-- The words of a command in the in-flight table (R429). -/
def Cmd.tableWords (c : Cmd) : List Word :=
  [packWord [(c.seq, 0), (c.op, 16), (c.queue, 24), (c.cls.code, 28), (1, 31)], packWord [(c.stage.code, 0)], c.digest,
    if c.cls == .chunked then BitVec.ofNat 32 c.progress else 0]

/-- The bytes of an entry of a completion store (R430). -/
def Stored.bytes (e : Stored) : List Byte := e.comp.bytes e.phase ++ leBytes 4 e.digest.toNat ++ List.replicate 28 0#8

/-- The code of an address kind (R466); data that the hub holds shows as local. -/
def AddrKind.code : AddrKind → Nat
  | .hostVirtual => 0
  | .hostBus => 1
  | .atlas => 2
  | .remote => 3
  | .buffer => 2

/-- The words of descriptor `i` of those that an engine holds (R466). -/
def Engine.descWords (g : Engine) (i : Nat) : List Word := match g.descs[g.batch + i]? with
  | none => []
  | some d => [packWord [(d.srcKind.code, 0), (d.dstKind.code, 2), (d.remote % 512, 16), (b2n (g.batch + i + 1 == g.descs.length), 31)]] ++
      loHi d.src ++ loHi d.dst ++ [BitVec.ofNat 32 d.len, packWord [(g.seq, 0), (g.queue, 16), (g.op, 20)], 0]

/-- The words of a tag-table entry (R482). -/
def TagEntry.words (t : TagEntry) : List Word :=
  [packWord [(t.seq, 0), (t.queue, 16), (t.op, 20), (t.engine, 28), (b2n t.valid, 31)], BitVec.ofNat 32 t.issue]

/-- The words of a translation-cache entry (R481): each address field holds bits of the address from bit 12 up. -/
def cachedWords (c : Option Cached) : List Word := match c with
  | none => []
  | some c =>
    let v := 1 + 2 * c.size + 8 * b2n c.read + 16 * b2n c.write + 2 ^ 12 * (c.va / 4096 % 2 ^ 52) + 2 ^ 76 * (c.bus / 4096 % 2 ^ 40)
    (List.range 4).map (fun i => BitVec.ofNat 32 (v >>> (32 * i)))

/-- The hub's tables at 0x04_0000_0000. -/
def State.hubWord (s : State) (r : Nat) : Word :=
  if r < 0x400 then wordAt ((tget noCmd s.hub.table (r / 0x10)).elim [] Cmd.tableWords) (r % 0x10)
  else if 0x10000 ≤ r && r < 0x20000 then
    let q := (r - 0x10000) / 0x1000
    wordIn (((s.queue q).store[r % 0x1000 / 0x40]?).elim [] Stored.bytes) (r % 0x40)
  else if 0x20000 ≤ r && r < 0x20200 then
    let e := (r - 0x20000) / 0x40
    wordAt (s.engineWords e ++ (if (s.engine e).fault.isEmpty then List.replicate 8 0 else (s.engine e).fault)) (r % 0x40)
  else if 0x20200 ≤ r && r < 0x21200 then
    wordAt ((s.engine ((r - 0x20200) / 0x200)).descWords ((r - 0x20200) % 0x200 / 0x20)) (r % 0x20)
  else if 0x28000 ≤ r && r < 0x30000 then wordAt (tget (fun _ => ({} : TagEntry)) s.dma.tags ((r - 0x28000) / 8)).words (r % 8)
  else if 0x30000 ≤ r && r < 0x34000 then wordAt (cachedWords (tget noCached s.dma.cache ((r - 0x30000) / 0x10))) (r % 0x10)
  else if 0x40000 ≤ r && r < 0x40100 then
    let st := (s.intc.stack ((r - 0x40000) / 0x40)).reverse
    if r % 8 = 0 then (st[r % 0x40 / 8]?).elim 0 claimWord else 0
  else 0

/-- Does the layout of this address stand open: the live state of a die, or the shadow queue (log 41)? -/
def openArea (a : Nat) : Bool :=
  (cold 0xEC000000 ≤ a && a < cold 0xF0000000) ||
    (dieBase 0 ≤ a && a < dieBase 16 && 0x3E00000 ≤ (a - dieBase 0) % 0x4000000 && (a - dieBase 0) % 0x4000000 < 0x3E00000 + 0x4000 * 104)

/-- The 32-bit word at an atlas address; unmapped addresses read 0 (R425, R427). -/
def State.atlasWord (s : State) (a : Nat) : Word :=
  if a < 0x2000000 then (if (RegMap.find a).isSome then s.view a else 0)
  else if openArea a then Config.liveWord s.free a
  else if cold 0 ≤ a && a < cold 0 + 2 ^ 32 then wordIn (s.memRead a 4) 0
  else if dieBase 0 ≤ a && a < dieBase 16 then wordIn (s.memRead a 4) 0
  else if 0x0300000000 ≤ a && a < 0x0310000000 then s.tetherWord 0 (a - 0x0300000000)
  else if 0x0310000000 ≤ a && a < 0x0320000000 then s.tetherWord 1 (a - 0x0310000000)
  else if 0x0400000000 ≤ a && a < 0x0400100000 then s.hubWord (a - 0x0400000000)
  else 0

/-- `n` bytes from atlas address `a`. -/
def State.atlasRead (s : State) (a n : Nat) : List Byte :=
  let w := a / 4 * 4
  ((List.range ((a + n + 3 - w) / 4)).flatMap (fun i => leBytes 4 (s.atlasWord (w + 4 * i)).toNat)).drop (a - w) |>.take n

/-- Take one free value, so that the next look at an open area finds new words. -/
def State.looked (s : State) : State := { s with free := s.free + 1 }

/-- Is the row at an atlas address a memory-unit row below the spill area (R426): its unit and row? -/
def rowOf (a : Nat) : Option (Nat × Nat) :=
  if dieBase 0 ≤ a && a < dieBase 16 then
    let d := (a - dieBase 0) / 0x4000000
    let r := (a - dieBase 0) % 0x4000000
    let k := r / 0x80000
    let row := r % 0x80000 / 128
    if k < 104 && isMuCol (k % 13) && row < 0xF80 then some (unitAddr d (k / 13) (k % 13), row) else none
  else none

/-- May this atlas address be written as memory (R382, R426)? -/
def State.memWritable (s : State) (a : Nat) : Bool :=
  match rowOf a with
  | some (u, row) => !(s.liveOrDraining || s.life == lifeReplay) || s.fallow s.stagedBlocks u row
  | none =>
    let fills := s.image.load.isSome || s.image.fill.isSome || s.image.fallow.isSome
    s.domOn 7 && ((cold 0 ≤ a && a < cold 0x20000000 && !fills) || (cold 0xF0000000 ≤ a && a < cold 0xF8000000 && s.replay.isNone))

end Sys2Proof.Machine
end

