-- ==== Sys2Proof/Machine/Governor.lean ====
section
/-!
DEFINITION. The slack governor (R60-R65) and AVSBus (R536, R537, R551). The rows carry what the windsocks and the bus
answer; their timing is the sender's (log 7).
-/
namespace Sys2Proof.Machine

/-- WINDSOCK_REFRESH: windsock `k` of die `die` reports its delay, or fails its self-check. -/
def execWindsockRefresh (die : Fin 16) (k : Fin 8) (delay : BitVec 12) (valid : Bool) (s : State) : Res :=
  let s := (s.setFld (F.TIM_WINDSOCK.delay die k) delay.toNat).setFld (F.TIM_WINDSOCK.valid die k) (b2n valid)
  done (s.when (!valid) (fun s => s.raise (F.TIM_GOV_STAT.sensor_fail (die / 2))))

/-- The slacks of the valid windsocks of the dies of governor `p`. A windsock whose die is off keeps its last reading, valid as it was
(log 131). -/
def State.slacks (s : State) (p : Nat) : List Int :=
  ((List.range 16).filter (fun i => s.bit (F.TIM_WINDSOCK.valid (2 * p + i / 8) (i % 8)))).map (fun i =>
    1000 - (s.fld (F.TIM_WINDSOCK.delay (2 * p + i / 8) (i % 8)) : Int))

/-- The least of a list. -/
def least : List Int → Option Int
  | [] => none
  | x :: xs => some (xs.foldl min x)

/-- The top of the clamp (R62): limited by the thermal limit (R545). -/
def State.vtop (s : State) (p : Nat) : Nat :=
  let m := s.fld (F.TIM_GOV_LIMIT.vmax p)
  if nbit (s.fld F.PWR_THERM_STAT.limiting) p then min m (s.fld F.PWR_THERM_LIMIT.vmax_hot) else m

/-- The law's next voltage and quiet count (R62); its pseudocode is C-like (00_scope.md), so half the margin is an integer division. -/
def State.govLaw (s : State) (p : Nat) (slack : Option Int) : Int × Nat :=
  let g := s.gov p
  let v : Int := g.volt
  let margin : Int := s.fld (F.TIM_GOV_CFG.margin p)
  match slack with
  | none => (s.vtop p, 0)
  | some x =>
    if x < margin / 2 then (v + 3 * (s.fld (F.TIM_GOV_CFG.up p) : Int), 0)
    else if x < margin then (v + s.fld (F.TIM_GOV_CFG.up p), 0)
    else if margin + s.fld (F.TIM_GOV_CFG.hyst p) < x then
      if max 1 (s.fld (F.TIM_GOV_CFG.down_periods p)) ≤ g.quiet + 1 then (v - s.fld (F.TIM_GOV_CFG.down p), 0)
      else (v, g.quiet + 1)
    else (v, 0)

/-- A voltage write to rail `p`: it is sent, or waits for the write on the bus to end (log 22). -/
def State.avsWrite (s : State) (p v : Nat) : State :=
  if (s.gov p).writing.isSome then s.setGov p { s.gov p with volt := v, due := some v }
  else (s.setGov p { s.gov p with volt := v, writing := some v, due := none }).setFld (F.TIM_GOV_STAT.vset p) v

/-- Keep the least slack of this period. -/
def State.noteSlack (s : State) (p : Nat) (x : Option Int) : State := match x with
  | none => s
  | some x =>
    let m := signed 16 (s.fld (F.TIM_GOV_MINSLACK.minslack p))
    (s.setFld (F.TIM_GOV_STAT.worst_slack p) (unsigned 13 x)).setFld (F.TIM_GOV_MINSLACK.minslack p) (unsigned 16 (min m x))

/-- GOVERNOR_PERIOD: one period of the law of governor `p`. A failed write is retried (R64). -/
def execGovernorPeriod (p : Fin 8) (s : State) : Res := done
  (if !nbit (s.fld F.TIM_CTRL.gov_en) p then s
  else
    let x := least (s.slacks p)
    let s := s.noteSlack p x
    let err := s.bit (F.TIM_GOV_STAT.avs_err p)
    let top := s.vtop p
    let bot := min (s.fld (F.TIM_GOV_LIMIT.vmin p)) top
    let r := s.govLaw p x
    let v := (max (bot : Int) (min (top : Int) r.1)).toNat
    let g := s.gov p
    let s := if err then s
      else
        let s := s.setGov p { g with quiet := r.2 }
        if v = g.volt && (g.fails = 0 || g.writing.isSome) then s else s.avsWrite p v
    let now := if err then g.volt else v
    let s := s.setFld (F.TIM_GOV_STAT.at_vmax p) (b2n (now == top))
    let low := x.elim true (fun x => decide (x < (s.fld (F.TIM_GOV_CFG.margin p) : Int)) && now == top)
    s.setFld (F.TIM_GOV_STAT.slack p) (b2n (low || err)))

/-- The write that waited for the bus of rail `p` is sent, unless the governor has stopped (R64). -/
def State.nextWrite (s : State) (p : Nat) : State := match (s.gov p).due with
  | none => s
  | some v => if s.bit (F.TIM_GOV_STAT.avs_err p) then s.setGov p { s.gov p with due := none } else s.avsWrite p v

/-- AVS_WRITE_DONE: the write on the bus for rail `p` has ended. The third failure in a row stops the governor (R64); once avs_err
is cleared the law goes on from the voltage of that write and does not repeat it (log 130). -/
def execAvsWriteDone (p : Fin 8) (good : Bool) (s : State) : Res :=
  let g := s.gov p
  done (match g.writing with
  | none => s
  | some v =>
    if good then (s.setGov p { g with writing := none, committed := some v, fails := 0 }).nextWrite p
    else
      let s := (s.setGov p { g with writing := none, fails := g.fails + 1 }).satInc F.PWR_AVS_STAT.errors
      (s.when (3 ≤ g.fails + 1) (fun s => (s.raise (F.TIM_GOV_STAT.avs_err p)).setFld (F.TIM_GOV_STAT.slack p)
        (b2n (nbit (s.fld F.TIM_CTRL.gov_en) p)))).nextWrite p)

/-- AVS_READ_DUE: the hub starts a readback of rail `p`, until the next write. -/
def execAvsReadDue (p : Fin 8) (s : State) : Res :=
  done (if (s.gov p).committed.isSome && (s.gov p).writing.isNone then s.setGov p { s.gov p with reading := true } else s)

/-- AVS_READ_DONE -/
def execAvsReadDone (p : Fin 8) (good : Bool) (mv current : BitVec 16) (s : State) : Res :=
  done (if !(s.gov p).reading then s
  else
    let s := s.setGov p { s.gov p with reading := false }
    if good then (s.setFld (F.PWR_AVS_READ.mv p) mv.toNat).setFld (F.PWR_AVS_READ.current p) current.toNat
    else s.satInc F.PWR_AVS_STAT.errors)

/-! Registers with rules of their own -/

/-- A voltage of R63 and R545. -/
def clampMv (v : Nat) : Nat := max 620 (min 900 v)

/-- A write of TIM_GOV_LIMIT (R63). -/
def State.writeGovLimit (s : State) (p : Nat) (value : Word) : State :=
  let v := value.toNat
  s.setReg (Reg.TIM_GOV_LIMIT p) (packWord [(clampMv (bits v 0 10), 0), (clampMv (bits v 16 10), 16), (bits v 26 6, 26)])

/-- A write of TIM_GOV_STAT: clearing avs_err restarts the count of failures (R64). -/
def State.writeGovStat (s : State) (p : Nat) (value : Word) : State :=
  let s := s.when (nbit value.toNat 30 && s.bit (F.TIM_GOV_STAT.avs_err p)) (fun s => s.setGov p { s.gov p with fails := 0 })
  s.setReg (Reg.TIM_GOV_STAT p) (s.reg (Reg.TIM_GOV_STAT p) &&& ~~~(value &&& 0xC0000000))

/-- A write of TIM_CTRL: a governor that is off shows no slack (R62). -/
def State.writeTimCtrl (s : State) (value : Word) : State :=
  let s := s.setReg Reg.TIM_CTRL (value &&& 0xFFF)
  (List.range 8).foldl (fun s p => if nbit value.toNat (4 + p) then s else s.lower (F.TIM_GOV_STAT.slack p)) s

/-- A write of PWR_THERM_LIMIT (R545). -/
def State.writeThermLimit (s : State) (value : Word) : State :=
  s.setReg Reg.PWR_THERM_LIMIT (packWord [(clampMv (bits value.toNat 0 10), 0)])

end Sys2Proof.Machine
end

