-- ==== Sys2Proof/Machine/Flash.lean ====
section
/-!
DEFINITION. STORE and ERASE: the flash targets, the ballast check, and the end of a flash write (R452, R538, R540-R542). A write
begins when its check has passed; what flash holds changes at its end, or as far as it has come when a cold reset cuts it off (R527).
-/
namespace Sys2Proof.Machine

/-- The flash offset and size of a target (R538). -/
def flashTarget (t : Nat) : Nat × Nat :=
  if t = 0 then (0, 0x800000) else if t = 1 then (0x800000, 0x800000) else if t = 2 then (0x1000000, 0x100000)
  else (ledgerBase, 2 * ledgerHalf)

/-- The largest STORE of a target. -/
def storeMax (t : Nat) : Nat := if t = 3 then 240 else (flashTarget t).2

/-- A copy of a ledger record (R542). -/
def ledgerRecord (seq copy : Nat) (bs : List Byte) : List Byte :=
  let b := [0x4C, 0x44, 0x47, 0x52] ++ leBytes 4 seq ++ leBytes 1 copy ++ [0] ++ leBytes 2 bs.length ++ padTo 240 bs
  b ++ leBytes 4 (crc32c b).toNat

/-- One act on flash: erase the 4 KiB sector at an address, or program one byte. -/
structure FlashAct where
  addr : Nat
  byte : Option Byte
  deriving DecidableEq, Repr

/-- Program bytes from `a` on. -/
def programActs (a : Nat) (bs : List Byte) : List FlashAct := bs.zipIdx.map (fun e => ⟨a + e.2, some e.1⟩)

/-- Erase `n` bytes from `a` on, sector by sector. -/
def eraseActs (a n : Nat) : List FlashAct := (List.range (n / 4096)).map (fun i => ⟨a + 4096 * i, none⟩)

/-- The acts of an operation in their order. For the ledger `addr` is the sequence number of the record. -/
def FlashOp.acts (o : FlashOp) : List FlashAct :=
  if o.erase then eraseActs o.addr o.len
  else if o.target = 3 then
    let i := o.addr % 2048
    [0, 1].flatMap (fun h =>
      let a := ledgerBase + ledgerHalf * h + 256 * i
      (if i % 16 = 0 then eraseActs a 4096 else []) ++ programActs a (ledgerRecord o.addr h o.data))
  else programActs o.addr o.data

/-- Carry out acts: whether every byte programmed had been erased, and the state. -/
def State.flashRun (s : State) (l : List FlashAct) : Bool × State :=
  l.foldl (fun r x => match x.byte with
    | none => (r.1, r.2.flashErase x.addr 4096)
    | some b => (r.1 && r.2.flashRead x.addr 1 == [0xFF], r.2.flashProgram x.addr [b])) (true, s)

/-- A cold reset cuts the operation off: how far it has come is a free value. -/
def State.cutFlash (s : State) : State := match s.power.flashOp with
  | none => s
  | some o =>
    let (n, s) := s.takeFree
    let l := o.acts
    let s := if o.started then (s.flashRun (l.take (n.toNat % (l.length + 1)))).2 else s
    { s with power := { s.power with flashOp := none } }

/-! The ballast check (R540, R541). Energies are fractions of 1 mJ, as (numerator, denominator). -/

/-- The capacitor estimate. -/
def State.capEnergy (s : State) : Nat × Nat :=
  let v := min 1800 s.pins.holdupMv * s.fld F.PWR_BAL_CFG.div_x100
  let m := 100 * s.fld F.PWR_BAL_VMIN.vmin_mv
  (s.fld F.PWR_BAL_C.c_uf * (v * v - m * m), 20000000000000)

/-- The time that an operation takes, in microseconds. -/
def State.flashTime (s : State) (o : FlashOp) : Nat :=
  let page := s.fld F.PWR_BAL_MODEL.t_page_us
  let sector := 1000 * s.fld F.PWR_BAL_MODEL.t_sector_ms
  if o.erase then 1000 + o.len / 4096 * sector
  else if o.target = 3 then 1000 + 2 * page + (if o.addr % 16 = 0 then 2 else 0) * sector
  else 1000 + (o.len + 255) / 256 * page

/-- The energy that an operation needs; a declared energy (mJ) that is not 0 replaces the model's. -/
def State.needEnergy (s : State) (o : FlashOp) (declared : Nat) : Nat × Nat :=
  let e := if declared = 0 then s.fld F.PWR_BAL_PHOLD.p_hold_mw * s.flashTime o else 1000000 * declared
  (e * (100 + s.fld F.PWR_BAL_VMIN.margin_pct), 100000000)

/-- Show an energy in a register of whole mJ: a value between two of them reads as one of the two, and one that does not
fit reads as any value. -/
def State.showEnergy (s : State) (f : Fld) (e : Nat × Nat) : State :=
  let q := e.1 / e.2
  if e.1 % e.2 = 0 && q < 2 ^ 32 then s.setFld f q
  else
    let (n, s) := s.takeFree
    s.setFld f (if q + 1 < 2 ^ 32 then q + n.toNat % 2 else n.toNat)

/-- The result words of a STORE or ERASE. -/
def flashWords (o : FlashOp) (did : Bool) : List Word :=
  [if did && !o.erase then BitVec.ofNat 32 o.len else 0, packWord [(b2n did, 0)]]

/-- The check itself (R541): the operation starts, or completes with nothing written. `failing`: PWR_FAIL_STAT.pwr_fail was 1 when the
command started; a fall of PWR_FAIL_N after that stops nothing by itself. -/
def State.ballast (s : State) (o : FlashOp) (have' need : Nat × Nat) (failing : Bool) : State :=
  let s := (s.showEnergy F.PWR_BAL_LAST.mj have').showEnergy F.PWR_BAL_NEED.mj need
  if have'.1 * need.2 < need.1 * have'.2 || failing then
    (s.raise F.PWR_EVT.ballast_low).finish o.cmd stBallastLow (flashWords o false)
  else { s with power := { s.power with flashOp := some { o with started := true } } }

/-- The fuel gauge has answered, or failed (`avail` 0). -/
def State.gaugeRead (s : State) (value : Nat) : State := match s.power.gauge with
  | none => s
  | some g =>
    let s : State := { s with power := { s.power with gauge := none } }
    s.ballast g.op (value * s.fld F.PWR_BAL_PHOLD.gauge_lsb_mj, 1) (s.needEnergy g.op g.need) false

/-- Start the ballast check of an operation that has passed step 8. -/
def State.startFlash (s : State) (c : Cmd) (o : FlashOp) (declared : Nat) : State :=
  let s := s.wait c.id
  if !s.bit F.PWR_BAL_CFG.src then s.ballast o s.capEnergy (s.needEnergy o declared) (s.bit F.PWR_FAIL_STAT.pwr_fail)
  else if s.bit F.PWR_FAIL_STAT.pwr_fail then (s.raise F.PWR_EVT.ballast_low).finish c.id stBallastLow (flashWords o false)
  else
    { s with
      power := { s.power with gauge := some ⟨c.id, declared, o⟩ }
      mgt := { s.mgt with modQueue := s.mgt.modQueue ++ [{ cmd := c.id, gauge := true }] } }

/-- Is flash taken by another STORE or ERASE? -/
def State.flashBusy (s : State) : Bool := s.power.flashOp.isSome || s.power.gauge.isSome

/-- The states that permit a STORE or ERASE. -/
def flashLives (c : Cmd) : List Nat := if c.sub = 3 then notBoot else [lifeSafe, lifeLoaded, lifeArmed, lifeFault]

/-- STORE -/
def execStore (q : Fin 16) (s : State) : Res :=
  done (s.command 0x40 q flashLives (fun c s =>
    let n := c.w 2
    if 3 < c.sub || !hostRange (c.w64 0) n then s.finish c.id stParam []
    else if n = 0 || storeMax c.sub < n then s.finish c.id stLength []
    else if s.flashBusy then s.finish c.id stBusy []
    else
      let (data, f, s) := s.readHost true (c.w64 0) n
      match f with
      | some x => (s.recordFault (s.faultWords { engine := 0xF, queue := c.queue, op := c.op, seq := c.seq } x)).finish c.id
          stFaultXlat []
      | none =>
        let a := if c.sub = 3 then (s.fld F.PWR_LDG_SEQ.seq + 1) % 2 ^ 32 else (flashTarget c.sub).1
        s.startFlash c { cmd := c.id, erase := false, target := c.sub, addr := a, len := n, data := data, started := false } (c.w 3)))

/-- ERASE -/
def execErase (q : Fin 16) (s : State) : Res :=
  done (s.command 0x41 q flashLives (fun c s =>
    if 3 < c.sub then s.finish c.id stParam []
    else if s.flashBusy then s.finish c.id stBusy []
    else
      let t := flashTarget c.sub
      s.startFlash c { cmd := c.id, erase := true, target := c.sub, addr := t.1, len := t.2, data := [], started := false } (c.w 0)))

/-- Bytes that the flash part holds otherwise than it was told to, among those of the operation. -/
def State.flashFaults (s : State) (l : List FlashAct) (faults : List (Nat × Byte)) : State :=
  faults.foldl (fun s e =>
    if l.any (fun x => if x.byte.isSome then x.addr == e.1 else decide (x.addr ≤ e.1 && e.1 < x.addr + 4096)) then
      { s with flash := tset flashDflt s.flash e.1 e.2 }
    else s) s

/-- Does flash hold what was programmed? -/
def State.flashHolds (s : State) (l : List FlashAct) : Bool := l.all (fun x => x.byte.elim true (fun b => s.flashRead x.addr 1 == [b]))

/-- The flash operation ends: what it wrote is read back, and its command completes. -/
def State.endFlash (s : State) (o : FlashOp) (faults : List (Nat × Byte)) : State :=
  let l := o.acts
  let (clean, s) := s.flashRun l
  let s := s.flashFaults l faults
  let good := o.erase || (clean && s.flashHolds l)
  let s : State := { s with power := { s.power with flashOp := none } }
  let s := s.when (o.target == 3) State.scanLedger
  if o.discard then s
  else s.finish o.cmd (if o.aborted then stAborted else if good then stOk else stStoreFail) (flashWords o true)

end Sys2Proof.Machine
end

