-- ==== Sys2Proof/Machine/ModBus.lean ====
section
/-!
DEFINITION. The module-bus controller (R455, R457, R558-R563, R570). The rows carry what the bus answers; when the bus is
free, and how long a line has been low, is the sender's word (log 7).
-/
namespace Sys2Proof.Machine

/-- May a transaction start: the controller is enabled, and MOD_RESET_N is high (R563)? -/
def State.modReady (s : State) : Bool :=
  s.bit F.MGT_MOD_CFG.en && decide (4 ≤ s.power.boot) && !s.bit F.MGT_MOD_CTRL.mod_reset && !s.mgt.pulse

/-- Drive MOD_RESET_N (R563). -/
def State.showModReset (s : State) : State :=
  { s with pins := { s.pins with
    modResetN := decide (4 ≤ s.power.boot) && !s.bit F.MGT_MOD_CTRL.mod_reset && !s.mgt.pulse } }

/-- Show who has the bus. -/
def State.showBus (s : State) (busy own : Bool) : State :=
  (s.setFld F.MGT_MOD_STAT.busy (b2n busy)).setFld F.MGT_MOD_STAT.own (b2n own)

/-- The levels of the lines. -/
def State.modLines (s : State) (sda scl : Bool) : State := { s with pins := { s.pins with modSda := sda, modScl := scl } }

/-- MODULE_XFER: it waits its turn. -/
def execModuleXfer (q : Fin 16) (s : State) : Res :=
  done (s.command 0x60 q (fun _ => notBoot) (fun c s =>
    let wc := bits (c.w 0) 8 6
    let rc := bits (c.w 0) 16 6
    if c.sub != 0 || !c.only [0x013F3F7F] || 32 < wc || 20 < rc || (wc == 0 && rc == 0) then s.finish c.id stParam []
    else State.wait { s with mgt := { s.mgt with modQueue := s.mgt.modQueue ++ [{ cmd := c.id }] } } c.id))

/-- Bytes that a transaction writes and reads. -/
def State.xferCounts (s : State) (m : ModXfer) : Nat × Nat :=
  if m.gauge then (1, 2) else match s.cmd m.cmd with
    | none => (0, 0)
    | some c => (bits (c.w 0) 8 6, bits (c.w 0) 16 6)

/-- The bytes that a transaction puts on the bus: its address, then what it writes. -/
def State.xferBytes (s : State) (m : ModXfer) : List Byte :=
  if m.gauge then [BitVec.ofNat 8 (2 * s.fld F.PWR_BAL_CFG.gauge_addr), BitVec.ofNat 8 (s.fld F.PWR_BAL_CFG.gauge_cmd)]
  else match s.cmd m.cmd with
    | none => []
    | some c => BitVec.ofNat 8 (2 * bits (c.w 0) 0 7) :: (wordBytes (c.words.drop 1)).take (bits (c.w 0) 8 6)

/-- A transaction ends: a MODULE_XFER completes with its counts, a gauge read gives its value or 0. -/
def State.endXfer (s : State) (m : ModXfer) (status written : Nat) (data : List Byte) (nak stuck : Bool) : State :=
  if m.gauge then s.gaugeRead (if status = stOk then leNat data else 0)
  else
    let w := packWord [(written, 0), (data.length, 8), (b2n nak, 16), (b2n stuck, 17), (min 255 m.losses, 24)]
    s.finish m.cmd status (w :: bytesWords (padTo ((data.length + 3) / 4 * 4) data))

/-- Has the command of a transaction been cancelled (R461)? -/
def State.xferCancelled (s : State) (m : ModXfer) : Bool := !m.gauge && (s.cmd m.cmd).elim false (fun c => c.cancelled)

/-- The transaction on the bus is over. -/
def State.leaveBus (s : State) : State := { s with mgt := { s.mgt with modNow := none } }.showBus true false

/-- MOD_BUS_FREE: the next transaction starts, unless a bus clear waits. -/
def execModBusFree (s : State) : Res :=
  let s := s.modLines true true
  done (if s.mgt.modNow.isSome then s
  else if s.mgt.clearDue || !s.modReady then s.showBus false false
  else match s.mgt.modQueue with
    | [] => s.showBus false false
    | m :: rest =>
      let s : State := { s with mgt := { s.mgt with modQueue := rest, modNow := some m } }
      s.showBus true true)

/-- MOD_ARB_LOST (R560). -/
def execModArbLost (s : State) : Res := done (match s.mgt.modNow with
  | none => s
  | some m =>
    let m := { m with losses := m.losses + 1 }
    let s := ((s.leaveBus).satInc F.MGT_MOD_CNT.arb_lost).raise F.MGT_EVT.mod_arb_lost
    if s.xferCancelled m then s.endXfer m stAborted 0 [] false false
    else if max 1 (s.fld F.MGT_MOD_CFG.arb_retries) ≤ m.losses then s.endXfer m stModuleBus 0 [] false false
    else { s with mgt := { s.mgt with modQueue := m :: s.mgt.modQueue } })

/-- MOD_TRANSACTION_DONE: the STOP after `written` bytes written and `data` read; `nak`: a target refused a byte. Without a NAK
and without a cancel the whole transaction is done. -/
def execModTransactionDone (written : Fin 33) (data : List Byte) (nak : Bool) (s : State) : Res := done (match s.mgt.modNow with
  | none => s
  | some m =>
    let n := s.xferCounts m
    let cut := s.xferCancelled m
    if n.1 < written || n.2 < data.length || (!nak && !cut && !(n.1 == written.val && n.2 == data.length)) then s
    else
      let s : State := { s with mgt := { s.mgt with modLog := (s.xferBytes m).take (written + 1) :: s.mgt.modLog } }
      s.leaveBus.endXfer m (if cut then stAborted else if nak then stModuleBus else stOk) written data nak false)

/-- MOD_SCL_TIMEOUT (R562): the counts reached so far. -/
def execModSclTimeout (written : Fin 33) (data : List Byte) (s : State) : Res := done (match s.mgt.modNow with
  | none => s
  | some m =>
    let n := s.xferCounts m
    if n.1 < written || n.2 < data.length then s
    else
      let s := (s.leaveBus.modLines s.pins.modSda false).raise F.MGT_MOD_STAT.stuck
      s.endXfer m stModuleBus written data false true)

/-! Bus clears (R561, R570) -/

/-- A bus clear falls due. -/
def State.dueClear (s : State) : State := { s with mgt := { s.mgt with clearDue := true } }

/-- Three attempts have failed: everything that waits for the bus ends. -/
def State.failBus (s : State) : State :=
  let s := (s.raise F.MGT_MOD_STAT.stuck).raise F.MGT_EVT.mod_bus_stuck
  let ms := s.mgt.modQueue
  let s : State := { s with mgt := { s.mgt with modQueue := [] } }
  ms.foldl (fun s m => s.endXfer m stModuleBus 0 [] false true) s

/-- MOD_BUS_CLEAR: `high`: SDA was found high; else `fails` attempts failed, and with fewer than three the next one freed the
bus. The one further clear after a reset pulse starts no other pulse. -/
def execModBusClear (high : Bool) (fails : Fin 4) (s : State) : Res :=
  let further := s.mgt.clearFails != 0
  done (if s.mgt.modNow.isSome || !(s.mgt.clearDue || (!high && !s.mgt.modQueue.isEmpty)) then s
  else
    let s : State := { s with mgt := { s.mgt with clearDue := false, clearFails := 0 } }
    if high then s.modLines true s.pins.modScl
    else
      let s := s.satInc F.MGT_MOD_CNT.clears
      if fails.val < 3 then (s.modLines true true).lower F.MGT_MOD_STAT.stuck
      else
        let s := ((s.modLines false s.pins.modScl).satInc F.MGT_MOD_CNT.clear_fail).failBus
        if s.bit F.MGT_MOD_CFG.reset_on_stuck && !further then
          State.showModReset { s with mgt := { s.mgt with pulse := true } }
        else s)

/-- MOD_RESET_PULSE_END -/
def execModResetPulseEnd (s : State) : Res :=
  done (if s.mgt.pulse then State.showModReset { s with mgt := { s.mgt with pulse := false, clearDue := true, clearFails := 1 } } else s)

/-! Registers -/

/-- A write of MGT_MOD_CFG. -/
def State.writeModCfg (s : State) (value : Word) : State :=
  let was := s.bit F.MGT_MOD_CFG.en
  let s := s.setReg Reg.MGT_MOD_CFG (value &&& 0xFFFFFF0F)
  s.when (!was && nbit value.toNat 0) State.dueClear

/-- MGT_MOD_CFG_WRITE -/
def execMgtModCfgWrite (value : Word) (s : State) : Res := done (if !s.up then s else s.writeModCfg value)

/-- The controller is reset: a transaction on the bus starts over, and a bus clear is due. -/
def State.resetModBus (s : State) : State :=
  let s := match s.mgt.modNow with
    | none => s
    | some m => { s with mgt := { s.mgt with modNow := none, modQueue := m :: s.mgt.modQueue } }
  (s.showBus (s.bit F.MGT_MOD_STAT.busy) false).dueClear

/-- A write of MGT_MOD_CTRL. -/
def State.writeModCtrl (s : State) (value : Word) : State :=
  let s := s.setFld F.MGT_MOD_CTRL.mod_reset (bits value.toNat 0 1)
  let s := s.when (nbit value.toNat 1) State.dueClear
  (s.when (nbit value.toNat 2) State.resetModBus).showModReset

/-- MOD_CLEAR_REQUEST -/
def execModClearRequest (s : State) : Res := done (if !s.up then s else s.dueClear)

/-- MOD_CONTROLLER_RESET -/
def execModControllerReset (s : State) : Res := done (if !s.up then s else s.resetModBus)

/-- MOD_RESET_ASSERT: a write of mod_reset. -/
def execModResetAssert (assert : Bool) (s : State) : Res :=
  done (if !s.up then s else (s.setFld F.MGT_MOD_CTRL.mod_reset (b2n assert)).showModReset)

end Sys2Proof.Machine
end

