-- ==== Sys2Proof/Machine/Reset.lean ====
section
/-!
DEFINITION. Power-up, the boot ROM and the resets (R509-R531, R580): what each kind of reset clears and keeps (R521), the slot
selection and the measurement (R511-R516), and the watchdog (R524). SAFE_ENTRY stands in Access.lean, since it makes register
writes (R539).
-/
namespace Sys2Proof.Machine

/-! Cold and warm resets -/

/-- The table entries whose offset `p` keeps. -/
def keepRegs (p : Nat → Bool) (t : Tbl Word) : Tbl Word := t.filter (fun e => p e.1)

/-- Step 1 of R509: the straps are sampled (R275, R579, R588), the cause and the boot count are written. -/
def State.sampleStraps (s : State) (cause count : Nat) : State :=
  let s : State := { s with power := { s.power with test := s.pins.testEn } }
  let s := (s.setFld F.HUB_BOOT_STRAP.boot_sel s.pins.bootSel).setFld F.HUB_BOOT_STRAP.id s.pins.strapId
  let s := (s.setFld F.COL_SELF.id s.pins.strapId).setFld F.MGT_SMB_CFG.addr (0x60 + s.pins.smbAddr % 8)
  ((s.setFld F.HUB_BOOT_STAT.reset_cause cause).setReg Reg.HUB_BOOT_COUNT (BitVec.ofNat 32 count)).showModReset

/-- What no reset touches: the waiting commands, host memory, fuses, flash, the levels that others set on pins, and what has
been sent; the counters of the model go on. -/
def State.afterReset (s : State) (p : Power) : State :=
  { State.reset with
    pending := s.pending
    free := s.free
    host := s.host
    fuses := s.fuses
    pins := s.pins
    flash := s.flash
    hub := { nextId := s.hub.nextId }
    msix := { sent := s.msix.sent }
    links := { sent := s.links.sent, mgmt := s.links.mgmt }
    mgt := { mctpSent := s.mgt.mctpSent, doeSent := s.mgt.doeSent, modLog := s.mgt.modLog }
    power := p }

/-- A cold reset with its cause code (R519, R521): the ROM runs (step 3 of R509). -/
def State.coldReset (s : State) (cause : Nat) : State := (s.cutFlash.afterReset { boot := 3 }).sampleStraps cause 1

/-- Registers that a warm reset keeps (R521): the TIM block, HUB_SCRATCH, the boot count, the MSI-X table, the capture, the
lifecycle counters, and what the PWR block shows of live conditions and of the domains that are on. -/
def warmKeeps (o : Nat) : Bool :=
  (0x200000 ≤ o && o < 0x300000) || (0x40 ≤ o && o < 0x80) || (0x8000 ≤ o && o < 0x9000) || (0xE00008 ≤ o && o < 0xE0002C) ||
  o == Reg.HUB_STATE || o == Reg.PWR_DOM_CTRL || o == Reg.PWR_DOM_STAT || o == Reg.PWR_FAIL_STAT || o == Reg.PWR_SUPPLY_STAT ||
  o == Reg.PWR_THERM_STAT || (0x400040 ≤ o && o < 0x400060)

/-- A warm reset with its cause code (R519, R521). The capture freezes; a launch and an alignment that wait end; what PWR shows live
follows the thresholds that the reset brings back. -/
def State.warmReset (s : State) (cause : Nat) : State :=
  let s := s.freeze.dropLaunch.dropAlign
  let count := (s.reg Reg.HUB_BOOT_COUNT).toNat + 1
  let t := s.afterReset { boot := 3, switching := s.power.switching, removed := s.power.removed, blind := s.power.blind, hot := s.power.hot, temps := s.power.temps }
  let t : State := { t with
    regs := keepRegs warmKeeps s.regs
    time := { s.time with fresh := [] }
    govs := s.govs
    msix := { masked := s.msix.masked, sent := s.msix.sent }
    mem := s.mem.filter (fun e => decide (cold 0 ≤ e.1) && decide (e.1 < cold 0x100000000))
    capture := s.capture
    decision := { vetoPin := s.decision.vetoPin, vetoLow := s.decision.vetoLow, lowSince := s.decision.vetoLow } }
  let t := t.setFld F.DEC_VETO_STAT.level (b2n !s.decision.vetoLow)
  let t := (((t.lower F.PWR_THERM_STAT.sensor_fail).setFld F.PWR_SUPPLY_STAT.seen 0).setFld F.HUB_STATE.fault_cause 0).setLife lifeBoot
  (t.sampleStraps cause count).showWarn.showLimits

/-- A warm reset is asked for: it waits while flash is being written (R527). The cause of the first request that waits is the one that
counts (log 160). -/
def State.askWarm (s : State) (cause : Nat) : State :=
  if s.power.flashOp.elim false (fun o => o.started) then
    { s with power := { s.power with resetWait := s.power.resetWait.or (some cause) } }
  else s.warmReset cause

/-- POWER_ON: power reaches PD00 with RESET_N high. -/
def execPowerOn (s : State) : Res := done (s.coldReset 1)

/-- COLD_RESET: RESET_N was low for at least 1 µs. Without power it does nothing (log 8). -/
def execColdReset (s : State) : Res := done (if s.power.boot = 0 then s else s.coldReset 2)

/-- May HUB_RESET be written on this path now (R510)? -/
def State.mayWarm (s : State) : WarmCause → Bool
  | .bar0 => s.readable Reg.HUB_RESET
  | .smbus => s.up
  | .firmware => s.power.firmware
  | .watchdog => s.power.wdtDue

/-- The cause codes of R519. -/
def warmCode : WarmCause → Nat
  | .bar0 => 3
  | .smbus => 4
  | .watchdog => 5
  | .firmware => 6

/-- A write of HUB_RESET (R519): warm = 1 and key = 0xA5, or nothing. -/
def warmKeyed (value : Word) : Bool := nbit value.toNat 0 && bits value.toNat 24 8 == 0xA5

/-- WARM_RESET: a write of `value` to HUB_RESET, or 10 ms after a watchdog expiry. -/
def execWarmReset (cause : WarmCause) (value : Word) (s : State) : Res :=
  done (if !s.mayWarm cause || (cause != .watchdog && !warmKeyed value) then s
  else
    let s := s.when (cause != .watchdog) (fun s => s.setReg Reg.HUB_RESET (value &&& 0xFF000001))
    State.askWarm { s with power := { s.power with wdtDue := false } } (warmCode cause))

/-- FLASH_OP_DONE: the write ends, with the bytes that failed; a warm reset that waited for it starts. -/
def execFlashOpDone (faults : List (Nat × Byte)) (s : State) : Res := done (match s.power.flashOp with
  | none => s
  | some o =>
    if !o.started then s
    else
      let s := s.endFlash o faults
      match s.power.resetWait with
      | none => s
      | some c => s.warmReset c)

/-- WATCHDOG_EXPIRY: FAULT with cause 5; a warm reset follows if reset_on_expiry is 1 (R524, R531). -/
def execWatchdogExpiry (s : State) : Res :=
  done (if s.power.boot = 0 || !s.bit F.HUB_WDT_CFG.en then s
  else
    let s := s.enterFault 5
    { s with power := { s.power with wdtDue := s.power.wdtDue || s.bit F.HUB_WDT_CFG.reset_on_expiry } })

/-! PCIe reset -/

/-- Registers that a PCIe reset clears whatever targets they concern: queues, MSI-X, DMA and translation, targets T0-T2. -/
def pcieClears (o : Nat) : Bool :=
  (0x1000 ≤ o && o < 0x1400) || (0x8000 ≤ o && o < 0x9008) || (0x300000 ≤ o && o < 0x400000) || (0x100800 ≤ o && o < 0x100860)

/-- The sources that target T0-T2. -/
def State.hostSources (s : State) : BitVec 256 := sourceMap (fun x => s.fld (F.INT_SRC_CFG.target x) != 3)

/-- Interrupt state of T0-T2 ends (R521). What T3 has claimed stays active until its EOI there (R502), whatever target its source has now; a
source that T0-T2 had claimed is active no more. -/
def State.resetInterrupts (s : State) : State :=
  let keep := ~~~s.hostSources
  { s with
    regs := s.regs.filter (fun e => !(decide (0x100000 ≤ e.1) && decide (e.1 < 0x100400) && inMap s.hostSources ((e.1 - 0x100000) / 4)))
    intc := { s.intc with
      pend := s.intc.pend &&& keep
      soft := s.intc.soft &&& keep
      active := s.intc.active &&& sourceMap (fun x => (s.intc.stack 3).any (fun e => e.1 == x))
      rate := s.intc.rate &&& keep
      nested := tclear s.intc.nested 0 3
      best := tclear s.intc.best 0 3 } }

/-- What a PCIe reset does to one command in flight (R523): STORE and ERASE run on with their completion discarded, every other
one is cancelled with the effects of R461: a SURVEY's sequence ends at its next round, a command that has not started undoes nothing.
START_LIVE, a brief command, is not cancelled. -/
def State.dropForPcie (s : State) (c : Cmd) : State :=
  if c.op = 0x40 || c.op = 0x41 then
    { s with power := { s.power with
      flashOp := s.power.flashOp.map (fun o => if o.cmd = c.id then { o with discard := true } else o) } }
  else if c.op = 0x11 || c.op = 0x18 || c.stage == .fetched then s
  else if c.op = 0x13 then if c.stage == .waiting then s.drainReplay else s
  else if c.op = 0x60 then
    if s.onModuleBus c.id then s.leaveBus
    else { s with mgt := { s.mgt with modQueue := s.mgt.modQueue.filter (fun m => m.cmd != c.id || m.gauge) } }
  else (s.undo c).letGo c

/-- PCIE_RESET: PERST_N, hot reset, link down or FLR (R519, R521, R523, R529, R568). -/
def execPcieReset (s : State) : Res :=
  done (if s.power.boot = 0 then s
  else
    let cs := sortBy (fun a b => a.id ≤ b.id) s.cmds
    let s := s.resetInterrupts
    let s : State := { s with
      regs := keepRegs (fun o => !pcieClears o) s.regs
      hub := { nextId := s.hub.nextId }
      dma := {}
      msix := { sent := s.msix.sent }
      pcie := {}
      mgt := { s.mgt with doe := {} } }
    cs.foldl State.dropForPcie (s.setFld F.SEC_STAT.doe_state 0))

/-! The boot ROM -/

/-- The flash offset of slot k (R538). -/
def slotBase (k : Nat) : Nat := 0x800000 * k

/-- Does the header of slot k fit R511? -/
def State.slotHeadOk (s : State) (k : Nat) : Bool :=
  let h := s.flashRead (slotBase k) 32
  h.take 4 == [0x45, 0x57, 0x46, 0x57] && decide (1 ≤ u32 h 4) && decide (u32 h 4 ≤ 0x7FFFE0) &&
    (sub h 13 3 ++ sub h 20 12).all (fun b => b == 0)

/-- The slot as stored: header and body. -/
def State.slotImage (s : State) (k : Nat) : List Byte :=
  s.flashRead (slotBase k) (32 + u32 (s.flashRead (slotBase k) 32) 4)

/-- The status of slot k once the ROM has read it: 1 good, 2 malformed header, 3 CRC failed. -/
def State.slotStatus (s : State) (k : Nat) : Nat :=
  if !s.slotHeadOk k then 2
  else if (crc32c ((s.slotImage k).drop 32)).toNat = u32 (s.flashRead (slotBase k) 32) 16 then 1 else 3

/-- The slot sequence of slot k. -/
def State.slotSeq (s : State) (k : Nat) : Nat := u16 (s.flashRead (slotBase k) 32) 8

/-- Is the slot selected by sequence (R512)? -/
def State.bySequence (s : State) : Bool := decide (2 ≤ s.fld F.HUB_BOOT_STRAP.boot_sel)

/-- The slot that R512 selects: by the strap, or by sequence among the slots whose header is well formed. -/
def State.firstSlot (s : State) : Nat :=
  if !s.bySequence then s.fld F.HUB_BOOT_STRAP.boot_sel
  else if !s.slotHeadOk 0 && s.slotHeadOk 1 then 1
  else if !s.slotHeadOk 1 then 0
  else
    let d := (s.slotSeq 1 + 65536 - s.slotSeq 0) % 65536
    if 1 ≤ d && d ≤ 32767 then 1 else 0

/-- The slot booted, if either is well formed, and the statuses of A and B. -/
def State.bootSlot (s : State) : Option Nat × Nat × Nat :=
  let a := s.firstSlot
  let sa := s.slotStatus a
  let sb := if sa != 1 then s.slotStatus (1 - a) else if s.bySequence && !s.slotHeadOk (1 - a) then 2 else 0
  (if sa = 1 then some a else if sb = 1 then some (1 - a) else none, if a = 0 then (sa, sb) else (sb, sa))

/-- Write measurement block `i` (R516). -/
def State.measure (s : State) (i kind : Nat) (info value : List Byte) : State :=
  s.setRegs (Reg.HUB_MEAS (i - 1) 0)
    (bytesWords (leBytes 1 i ++ leBytes 1 kind ++ leBytes 2 value.length ++ padTo 12 info ++ padTo 48 value))

/-- Measurement blocks 1-5 of a boot from slot `k`; none: no slot was well formed, and the spec states no digest for block 2. -/
def State.measureAll (s : State) (k : Option Nat) : State :=
  let romSum := (List.range 48).map Config.romDigest
  let s := s.measure 1 0 [Config.romVersion] romSum
  let s := match k with
    | some k =>
      let h := s.flashRead (slotBase k) 32
      s.measure 2 0 (leBytes 1 k ++ sub h 8 5) (sha384 (s.slotImage k))
    | none => s.freeBytes 48 |>.2.measure 2 0 [] (s.freeBytes 48).1
  let s := s.measure 3 0 [] (sha384 s.fuseBlock)
  let s := s.measure 4 0 (leBytes 4 (crc32c s.disabledMap).toNat) (sha384 s.disabledMap)
  let st := (s.reg Reg.HUB_BOOT_STAT).toNat
  s.measure 5 1 [] (leBytes 1 (s.fld F.HUB_BOOT_STRAP.boot_sel) ++ leBytes 1 (k.getD 0) ++ leBytes 1 (st % 8) ++
    leBytes 1 (bits st 4 2) ++ leBytes 1 (bits st 6 2) ++ leBytes 2 (s.fld F.HUB_BOOT_STRAP.id) ++ leBytes 1 (bits st 24 4) ++
    leBytes 4 (s.reg Reg.HUB_BOOT_COUNT).toNat)

/-- What the ROM shows in HUB_BOOT_STAT once it has selected. -/
def State.showBoot (s : State) (k : Option Nat) (a b : Nat) : State :=
  let s := (s.setFld F.HUB_BOOT_STAT.slot (k.getD 0)).setFld F.HUB_BOOT_STAT.fallback (k.elim 0 (fun k => b2n (k != s.firstSlot)))
  let s := (s.setFld F.HUB_BOOT_STAT.by_sequence (b2n s.bySequence)).setFld F.HUB_BOOT_STAT.slot_a a
  (s.setFld F.HUB_BOOT_STAT.slot_b b).setFld F.HUB_BOOT_STAT.rom_version Config.romVersion.toNat

/-- Step 4 and the start of step 5 of R509: MOD_RESET_N rises and a bus clear is due (R561, R563); TIM_GOV_LIMIT.vmax goes to
each rail (R535); every domain that is off starts to come on. -/
def State.startFirmware (s : State) : State :=
  let s : State := { s with power := { s.power with boot := 4, firmware := true } }
  let s := s.showModReset.dueClear
  let s := (List.range 8).foldl (fun s p => s.avsWrite p (s.fld (F.TIM_GOV_LIMIT.vmax p))) s
  (List.range 21).foldl (fun s i =>
    if !s.domOn (3 + i) || s.switchOf (3 + i) == some false then s.startSwitch (3 + i) true else s) s

/-- FIRMWARE_START: the ROM has read its slot and measured; firmware starts, or the ROM serves recovery (R513, R514). With
TEST_EN sampled high the ROM has stopped (R580, R588). -/
def execFirmwareStart (s : State) : Res :=
  done (if s.power.boot != 3 || s.power.rom || s.power.test then s
  else
    let (k, a, b) := s.bootSlot
    let s := ((s.showBoot k a b).digestMap.measureAll k).raise F.HUB_BOOT_STAT.meas_lock
    match k with
    | some k =>
      let h := s.flashRead (slotBase k) 32
      (s.setReg Reg.HUB_FW_VER (packWord [(u8 h 10, 0), (u8 h 11, 8), (u8 h 12, 16)])).startFirmware
    | none =>
      let s : State := { s with power := { s.power with rom := true } }
      (s.raise F.HUB_BOOT_STAT.recovery).enterFault 5)

end Sys2Proof.Machine
end

