-- ==== Sys2Proof/Machine/Rings.lean ====
section
/-!
DEFINITION. The rings (R412-R420, R424, R434): doorbells, fetching an entry with steps 1 to 6 of its checks, enabling
and disabling a queue.
-/
namespace Sys2Proof.Machine

/-- SQ_DOORBELL: a value below N on an enabled queue becomes the tail; any other sets db_err (R415, R510). -/
def execSqDoorbell (q : Fin 16) (value : Word) (s : State) : Res :=
  let v := value.toNat % 4096
  done (if s.up && s.bit (F.HUB_QP_CFG.en q) && v < s.depth q then
    (s.setFld (F.HUB_QP_SQ_TAIL.tail q) v).setQueue q { s.queue q with sqDb := v }
  else s.raise (F.HUB_QP_STAT.db_err q))

/-- CQ_DOORBELL: as SQ_DOORBELL, and the new head may not pass the tail; the entries passed over are free again. A
write of the head it has frees none (log 18). -/
def execCqDoorbell (q : Fin 16) (value : Word) (s : State) : Res :=
  let v := value.toNat % 4096
  let n := s.depth q
  let freed := (v + n - s.fld (F.HUB_QP_CQ.head q)) % n
  done (if s.up && s.bit (F.HUB_QP_CFG.en q) && v < n && freed ≤ (s.queue q).used then
    (s.setFld (F.HUB_QP_CQ.head q) v).setQueue q { s.queue q with cqDb := v, used := (s.queue q).used - freed }
  else s.raise (F.HUB_QP_STAT.db_err q))

/-- May the device fetch from queue `q` (R416, R434, R510)? A slot of the in-flight table must be free (R429). -/
def State.mayFetch (s : State) (q : Nat) : Bool :=
  s.up && s.bit (F.HUB_QP_CFG.en q) && !s.bit (F.HUB_QP_STAT.halted q) &&
    s.fld (F.HUB_QP_STAT.sq_head q) != s.fld (F.HUB_QP_SQ_TAIL.tail q) &&
    (s.queue q).used + s.reserved q + 2 ≤ s.depth q && s.freeSlot.isSome

/-- Put a fetched command into the lowest free slot (which slot is the model's choice, log 18). -/
def State.seat (s : State) (c : Cmd) : State :=
  match s.freeSlot with
  | none => s
  | some k => { s with hub := { s.hub with table := tset noCmd s.hub.table k (some c), nextId := s.hub.nextId + 1 } }

/-- Complete a command at its fetch with a completion that does not enter the store (R420). -/
def State.answer (s : State) (c : Cmd) (comp : Completion) : State :=
  let s := s.dropCmd c.id
  let s := s.when (nbit comp.flags 1) (fun s => s.satInc (F.HUB_QP_COUNT.duplicates c.queue))
  let s := s.when (comp.status == stSeqConflict) (fun s => s.satInc (F.HUB_QP_COUNT.conflicts c.queue))
  s.post comp c.notify

/-- Steps 3 to 6 of R417 on a command whose parameters are known. A command that passes stays at stage 1. -/
def State.checkEntry (s : State) (c : Cmd) (qid : Nat) (len : Nat) : State :=
  let same (op : Nat) (d : Word) : Bool := op == c.op && d == c.digest
  match (s.queueCmds c.queue).find? (fun x => x.seq == c.seq && x.id != c.id) with
  | some x =>
    if same x.op x.digest then s.answer c (c.completion stDuplicate 6 [3])
    else s.answer c (c.completion stSeqConflict 4 [3])
  | none =>
    match (s.queue c.queue).store.find? (fun e => e.comp.seq == c.seq) with
    | some e =>
      if same e.comp.op e.digest then
        s.answer c { e.comp with flags := setBit e.comp.flags 1, sqHead := c.sqHead }
      else s.answer c (c.completion stSeqConflict 4 [3])
    | none =>
      match opInfo c.op (c.w 0) (c.w 1) with
      | none => s.finish c.id stBadOpcode [4]
      | some (_, rule) =>
        if qid != c.queue then s.finish c.id stParam [5]
        else if !rule.ok len then s.finish c.id stLength [6]
        else s

/-- The parameter digest (R419). -/
def entryDigest (bs : List Byte) (ws : List Word) : Word := crc32c (bs.take 4 ++ wordBytes ws)

/-- Step 2 of R417: fetch an indirect buffer of `n` words; its fault is recorded (R464) and completes the command. -/
def State.fetchIndirect (s : State) (c : Cmd) (bs : List Byte) (flags n : Nat) : State :=
  let a := leNat ((bs.drop 8).take 8)
  let (d, s') := s.takeFree
  let c2 := { c with digest := d.setWidth 32 }
  if a % 4 != 0 || !hostRange a (4 * n) then (s'.seat c2).finish c.id stParam [2]
  else
    let (data, f, s) := s.readHost (!nbit flags 1) a (4 * n)
    match f with
    | some x =>
      let (d, s) := (s.recordFault (s.faultWords { engine := 0xF, queue := c.queue, op := c.op, seq := c.seq } x)).takeFree
      (s.seat { c with digest := d.setWidth 32 }).finish c.id stFaultXlat [2]
    | none =>
      let ws := bytesWords data
      let c := { c with
        words := ws
        digest := entryDigest bs ws
        cls := (opInfo c.op (ws.getD 0 0).toNat (ws.getD 1 0).toNat).elim .brief (fun i => i.1) }
      (s.seat c).checkEntry c (leNat ((bs.drop 6).take 1)) n

/-- A fetched entry of 64 bytes (R413): steps 1 and 2, then the rest. -/
def State.takeEntry (s : State) (q : Nat) (internal : Option Word) (bs : List Byte) : State :=
  let flags := leNat ((bs.drop 1).take 1)
  let n := leNat ((bs.drop 2).take 2)
  let inline := bytesWords (bs.drop 8)
  let ws := inline.take n
  let op := leNat (bs.take 1)
  let c : Cmd := {
    id := s.hub.nextId
    seq := leNat ((bs.drop 4).take 2)
    op := op
    sub := flags / 16
    queue := q
    cls := (opInfo op (ws.getD 0 0).toNat (ws.getD 1 0).toNat).elim .brief (fun i => i.1)
    stage := .fetched
    digest := entryDigest bs ws
    notify := nbit flags 2
    words := ws
    internal := internal
    reserved := nbit flags 3 || leNat ((bs.drop 7).take 1) != 0
    sqHead := s.fld (F.HUB_QP_STAT.sq_head q) }
  let ind := nbit flags 0
  if (!ind && 14 < n) || (ind && (n == 0 || 16384 < n)) then
    let c := { c with digest := entryDigest bs inline }
    (s.seat c).finish c.id stLength [1]
  else if ind then s.fetchIndirect c bs flags n
  else (s.seat c).checkEntry c (leNat ((bs.drop 6).take 1)) n

/-- COMMAND_FETCH: read the entry at the SQ head, advance the head, reserve two CQ entries and make steps 1 to 6
(R416, R417). A fault of the ring access halts the queue (R434). -/
def execCommandFetch (x : QueueFetch) (s : State) : Res :=
  let q := x.queue.val
  done (if !s.mayFetch q then s
  else
    let h := s.fld (F.HUB_QP_STAT.sq_head q)
    let (bs, f, s) := s.readHost (!s.bit (F.HUB_QP_CFG.phys q)) (s.wide (Reg.HUB_QP_SQ_BASE_LO q) + 64 * h) 64
    match f with
    | some x => s.ringFault q 0 0 x
    | none => (s.setFld (F.HUB_QP_STAT.sq_head q) ((h + 1) % s.depth q)).takeEntry q x.internal bs)

/-- Write the held completions at the CQ tail, in the order in which their commands completed (R434). -/
def State.flushHeld (s : State) : List (Completion × Bool) → State
  | [] => s
  | (c, n) :: rest => (s.post c n).flushHeld rest

/-- A write of HUB_QP_CFG (R412, R424, R434): with en = 1 before the write, depth and phys keep their values and a
write that would change them sets cfg_err. Setting en from 0 to 1 resets the ring pointers and the phase, clears halted
and ring_fault, and writes the held completions. -/
def State.writeQpCfg (s : State) (q : Nat) (value : Word) : State :=
  let was := s.bit (F.HUB_QP_CFG.en q)
  let old := s.reg (Reg.HUB_QP_CFG q)
  let keep : Word := 0x0FFF0008
  let rw := value &&& 0x0FFF007F
  let v := if was then (rw &&& ~~~keep) ||| (old &&& keep) else rw
  let s := s.when (was && ((rw ^^^ old) &&& keep) != 0) (fun s => s.raise (F.HUB_QP_STAT.cfg_err q))
  let s := s.setReg (Reg.HUB_QP_CFG q) v
  if !was && nbit value.toNat 0 then
    let held := (s.queue q).held
    let s := ((s.setFld (F.HUB_QP_STAT.sq_head q) 0).setFld (F.HUB_QP_SQ_TAIL.tail q) 0).setReg (Reg.HUB_QP_CQ q) 0x1000
    let s := (s.lower (F.HUB_QP_STAT.halted q)).lower (F.HUB_QP_STAT.ring_fault q)
    (s.setQueue q { s.queue q with used := 0, held := [] }).flushHeld held
  else s

/-- QP_ENABLE: a write of HUB_QP_CFG with en = 1. -/
def execQpEnable (q : Fin 16) (value : Word) (s : State) : Res :=
  done (if s.up && nbit value.toNat 0 then s.writeQpCfg q value else s)

/-- QP_DISABLE: a write of HUB_QP_CFG with en = 0: fetching stops at once (R424). -/
def execQpDisable (q : Fin 16) (value : Word) (s : State) : Res :=
  done (if s.up && !nbit value.toNat 0 then s.writeQpCfg q value else s)

/-- A write of a ring base: ignored with cfg_err while the queue is enabled (R412). -/
def State.ringBaseBlocked (s : State) (q : Nat) : Bool := s.bit (F.HUB_QP_CFG.en q)

end Sys2Proof.Machine
end

