-- ==== Sys2Proof/Machine/Spool.lean ====
section
/-!
DEFINITION. The time unit (R30-R54, R66-R74): lock and loss of MCLK, the ORBIT marker, PPS and wall time, TIME_ALIGN and
SCHEDULE_LAUNCH, and the clears of its counters.
-/
namespace Sys2Proof.Machine

/-! MCLK (R30-R32, R73) -/

/-- PLL_LOCK: the first lock after a reset that clears time starts the count from 0; a later one resumes the held counts
at the next crossing (R31, R32). -/
def execPllLock (s : State) : Res :=
  let t := s.time
  done (if s.power.boot = 0 || !t.held then s
  else
    let s : State := { s with time := if t.started then { t with held := false, relock := true } else
      { t with held := false, started := true, spool := 0, crossing := 0, orbit := 0 } }
    s.raise F.TIM_STATUS.pll_lock)

/-- A waiting TIME_ALIGN ends with this status. -/
def State.endAlign (s : State) (status : Nat) (words : List Word) : State := match s.time.align with
  | none => s
  | some w => s.dropAlign.finish w.cmd status words

/-- A pending launch ends with ST_ABORTED. -/
def State.abortLaunch (s : State) : State := match s.time.launch with
  | none => s
  | some (_, id) => s.dropLaunch.finish id stAborted []

/-- MCLK loss (R32, R73): the counters hold; LIVE and DRAINING end in FAULT. -/
def State.mclkLoss (s : State) : State :=
  let s := (s.raise F.TIM_STATUS.mclk_loss).lower F.TIM_STATUS.pll_lock
  let s : State := { s with time := { s.time with held := true, relock := false } }
  let s := s.abortLaunch.endAlign stAborted []
  s.when s.liveOrDraining (fun s => s.enterFault 1)

/-- MCLK_LOSS -/
def execMclkLoss (s : State) : Res := done s.mclkLoss

/-- MCLK_FREQ_MEASURE: the measured frequency is shown; lanes check their rates (R76, R228), flood windows follow it (R331),
and outside 19-51 MHz MCLK is lost. -/
def execMclkFreqMeasure (khz : BitVec 16) (s : State) : Res :=
  let s := s.setFld F.TIM_MCLK_FREQ.khz khz.toNat
  let s := (List.range 96).foldl State.checkRate s
  let s := ((List.range 8).foldl State.checkOutRate s).refreshWindows
  done (s.when (khz.toNat < 19000 || 51000 < khz.toNat) State.mclkLoss)

/-! The ORBIT marker (R38-R43) -/

/-- Was a marker seen in this crossing or the one before: its sample was high, so this crossing sees no further rise (R38)? -/
def State.markerHigh (s : State) : Bool :=
  s.time.lastMarker.elim false (fun k => k == s.xindex || (k + 1) % 2 ^ 59 == s.xindex)

/-- A marker is seen that no TIME_ALIGN takes (R39, R40). -/
def State.classMarker (s : State) : State :=
  let c := s.time.crossing
  let s : State := { s with time := { s.time with lastMarker := some s.xindex } }
  if c = 0 then s
  else
    let s := ((s.raise F.TIM_STATUS.orbit_slip).setFld F.TIM_ORBIT_SLIP.slip_crossing c).satInc F.TIM_ORBIT_SLIP.slip_count
    { s with time := { s.time with offSeen := true, resync := some c } }

/-- ORBIT_MARKER_MISSING: once in a crossing with counter 0 -/
def execOrbitMarkerMissing (s : State) : Res := done
  (if s.counts && s.orbitOn && s.time.crossing == 0 && !s.time.offSeen && s.time.lastMarker != some s.xindex &&
      s.time.missed != some s.xindex then
    { (s.satInc F.TIM_ORBIT_MISS.count).raise F.TIM_STATUS.orbit_missing with time := { s.time with missed := some s.xindex } }
  else s)

/-- A write of TIM_ORBIT_LEN waits for the next boundary; 0 is ignored (R35). -/
def State.writeOrbitLen (s : State) (value : Word) : State :=
  let n := bits value.toNat 0 16
  if n = 0 then s else { s with time := { s.time with lenPending := some n } }

/-- TIM_ORBIT_LEN_WRITE -/
def execTimOrbitLenWrite (value : Word) (s : State) : Res := done (if s.up then s.writeOrbitLen value else s)

/-! PPS and wall time (R44-R49, R68) -/

/-- Set the wall counter. -/
def State.setWall (s : State) (sec acc : Nat) : State :=
  { s with time := { s.time with wallSec := sec % 2 ^ 48, wallAcc := acc } }

/-- An accepted edge at REFCLK sample `n` (R46, R49). PPS is sampled with REFCLK, so an edge that comes while MCLK is lost sets or aligns the
wall counter, which MCLK loss holds, too (log 129). -/
def State.acceptPps (s : State) (n : Nat) : State :=
  let s := (s.setWide Reg.TIM_PPS_CAPTURE_LO s.time.spool).setReg Reg.TIM_PPS_WALL_FRAC (BitVec.ofNat 32 s.wallFrac)
  let s := s.lower F.TIM_STATUS.pps_missing
  let s : State := { s with time := { s.time with lastPps := some n } }
  match s.time.wallSet with
  | some sec =>
    let s : State := { s with time := { s.time with wallSet := none } }
    (s.setWall sec 0).lower F.TIM_STATUS.wall_set_pending
  | none =>
    if s.bit F.TIM_CTRL.align_on_pps then s.setWall (s.time.wallSec + if 2 ^ 31 ≤ s.wallFrac then 1 else 0) 0 else s

/-- PPS_PULSE: a pulse whose rising edge is REFCLK sample `refclk` has been high for `width` samples (R44, R45). -/
def execPpsPulse (refclk width : Nat) (s : State) : Res := done
  (if width = 0 then s
  else if width < 10 then s.satInc F.TIM_PPS_STAT.narrow_count
  else if s.time.lastPps.elim false (fun p => refclk < p + 90000000) then s.satInc F.TIM_PPS_STAT.early_count
  else s.acceptPps refclk)

/-- PPS_MISSING -/
def execPpsMissing (s : State) : Res :=
  done ((s.raise F.TIM_STATUS.pps_missing).raise F.TIM_STATUS.pps_missing_seen)

/-- Does the accumulator carry at the next tick? -/
def State.carries48 (s : State) : Bool := 2 ^ 64 ≤ s.time.wallAcc + s.wide Reg.TIM_WALL_RATE_LO

/-- WALL_SECOND_CARRY: the next tick of this crossing carries out of the accumulator (R48). -/
def execWallSecondCarry (s : State) : Res :=
  done (if s.counts && !s.time.relock && s.time.spool % 32 < 31 && s.carries48 then s.tick else s)

/-- The pending wall time (R49); the registers hold what was committed (R7, R9). -/
def State.writeWallSet (s : State) (lo hi : Word) : State :=
  let s := (s.setReg Reg.TIM_WALL_SET_LO lo).setReg Reg.TIM_WALL_SET_HI (hi &&& 0xFFFF)
  let s : State := { s with time := { s.time with wallSet := some (lo.toNat + 2 ^ 32 * bits hi.toNat 0 16) } }
  s.raise F.TIM_STATUS.wall_set_pending

/-! Clears (R66) -/

/-- Clear the histogram and the late count of a tag. -/
def State.clearTag (s : State) (t : Nat) : State :=
  ((List.range 16).foldl (fun s j => s.lower (F.TIM_DSLACK_HIST.count t j)) s).lower (F.TIM_MENU_LATE_COUNT.count t)

/-- A write of TIM_HIST_CLEAR. -/
def State.writeHistClear (s : State) (value : Word) : State :=
  let v := value.toNat
  let s := s.setReg Reg.TIM_HIST_CLEAR (value &&& 0x3FF)
  let s := (List.range 8).foldl (fun s t => s.when (nbit v t) (fun s => s.clearTag t)) s
  let s := s.when (nbit v 8) (fun s => (List.range 8).foldl (fun s p => s.setFld (F.TIM_GOV_MINSLACK.minslack p) 0x7FFF) s)
  s.when (nbit v 9) (fun s => ((s.lower F.TIM_ORBIT_SLIP.slip_count).lower F.TIM_ORBIT_MISS.count).lower F.TIM_LATE_STAT.discarded)

/-- HIST_CLEAR_TAGS -/
def execHistClearTags (tags : BitVec 8) (s : State) : Res :=
  done (if s.up then s.writeHistClear (BitVec.ofNat 32 tags.toNat) else s)

/-- GOV_MINSLACK_RESET -/
def execGovMinslackReset (s : State) : Res := done (if s.up then s.writeHistClear 0x100 else s)

/-- TIME_COUNTERS_CLEAR -/
def execTimeCountersClear (s : State) : Res := done (if s.up then s.writeHistClear 0x200 else s)

/-! Aligning (R50, R70) -/

/-- TIME_ALIGN -/
def execTimeAlign (q : Fin 16) (s : State) : Res :=
  done (s.command 0x38 q (fun _ => [lifeSafe, lifeLoaded, lifeArmed]) (fun c s =>
    if c.sub != 0 || c.w64 0 % 32 != 0 || !s.orbitOn then s.finish c.id stParam []
    else if s.bit F.TIM_STATUS.launch_pending || s.time.align.isSome then s.finish c.id stBusy []
    else
      let s := s.raise F.TIM_STATUS.align_pending
      State.wait { s with time := { s.time with align := some ⟨c.w64 0, c.w 2, s.xindex, c.id, 2 * s.fld F.TIM_ORBIT_LEN.len + 2⟩ } } c.id))

/-- Lanes that wait for an orbit boundary file frames for crossing `x` and later (R98). -/
def State.joinLanes (s : State) (x : Nat) : State :=
  (List.range 96).foldl (fun s n =>
    if (s.lane n).joinWait then s.setLane n { s.lane n with joinWait := false, joinFrom := x } else s) s

/-- The marked crossing is crossing 0 of orbit O at spool count S, an orbit boundary (R50, R70, R619). -/
def State.alignTo (s : State) (w : AlignWait) : State :=
  let old := s.xindex
  let x := w.spool / 32
  let s : State := { s with time := { s.time with
    spool := wrap64 (w.spool + s.time.spool % 32), crossing := 0, orbit := w.orbit, resync := none, offSeen := false
    boundaryDone := false, lastMarker := some x, lenPending := none } }
  s.renumber old x

/-- The crossings that have begun since a TIME_ALIGN was accepted; the index may wrap. -/
def State.sinceAlign (s : State) (w : AlignWait) : Nat := (s.xindex + 2 ^ 59 - w.accepted) % 2 ^ 59

/-- May a marker of this crossing be the one that TIME_ALIGN waits for: one of the 2L + 2 crossings that begin after its acceptance, with
the L of the acceptance (log 136), and the time unit uses the marker (R43)? -/
def State.alignOpen (s : State) (w : AlignWait) : Bool :=
  s.counts && s.orbitOn && s.sinceAlign w != 0 && decide (s.sinceAlign w ≤ w.limit) && !s.markerHigh

/-- The sample of the last crossing that a TIME_ALIGN waits for is past and was no marker: it ends (R50). -/
def State.timeoutAlign (s : State) : State := match s.time.align with
  | none => s
  | some w => if w.limit < s.sinceAlign w || (s.sinceAlign w == w.limit && decide (16 ≤ s.time.spool % 32)) then
      s.endAlign stAborted [] else s

/-- TIME_ALIGN_TIMEOUT -/
def execTimeAlignTimeout (s : State) : Res := done s.timeoutAlign

/-! Launching (R52, R71) -/

/-- SCHEDULE_LAUNCH -/
def execScheduleLaunch (q : Fin 16) (s : State) : Res :=
  done (s.command 0x39 q (fun _ => [lifeArmed]) (fun c s =>
    if c.sub != 0 || c.w64 0 % 32 != 0 || c.w64 0 < s.time.spool + 64 then s.finish c.id stParam []
    else if s.bit F.TIM_STATUS.launch_pending then s.finish c.id stBusy []
    else
      let s := (s.raise F.TIM_STATUS.launch_pending).setWide Reg.TIM_LAUNCH_COUNT_LO (c.w64 0)
      State.accept { s with time := { s.time with launch := some (c.w64 0, c.id) } } c.id (loHi (c.w64 0))))

/-- Does a scheduled launch fall due at the next boundary? -/
def State.launchDue (s : State) : Option (Nat × Nat) :=
  if s.counts && s.life == lifeArmed then s.time.launch.filter (fun l => s.reached (l.1 / 32)) else none

/-- LAUNCH: the device enters LIVE and the final completion is posted. -/
def State.launchNow (s : State) (l : Nat × Nat) : State := (s.enterLive l.2).finish l.2 stOk (loHi (l.1 / 32))

/-- LAUNCH -/
def execLaunch (s : State) : Res := done (s.launchDue.elim s (fun l => s.noting (fun s => s.launchNow l)))

end Sys2Proof.Machine
end

