-- ==== Sys2Proof/Machine/Access.lean ====
section
/-!
DEFINITION. Register accesses on the three paths (R6-R10, R408-R410): reads with the holding copies, writes by access type with
the registers whose write does more, the ATLAS window (R425-R428), BAR4 (R382), WRITE_CONTROL (R444), and the register writes that
firmware makes at the entry to SAFE (R539).
-/
namespace Sys2Proof.Machine

/-! Reads -/

/-- Latch the higher words of a wide value whose lowest word is at `o` into the holding copy of a path (R9). -/
def State.latch (s : State) (p : Path) (o n : Nat) : State :=
  s.setPath p { s.path p with
    hold := (List.range (n - 1)).foldl (fun t k => tset noWord t (o + 4 * (k + 1)) (some (s.view (o + 4 * (k + 1))))) (s.path p).hold }

/-- A read of an assigned register without a claim: what R9 has latched, or its value. -/
def State.readWord (s : State) (p : Path) (o : Nat) (d : RegDesc) : State :=
  let w := if d.back = 0 then s.view o else (tget noWord (s.path p).hold o).getD (s.view o)
  let s := s.when (d.back == 0 && decide (1 < d.words)) (fun s => s.latch p o d.words)
  { s with rdata := w }

/-- Is `o` INT_TGT_CLAIM of a target? -/
def claimTarget (o : Nat) : Option Nat :=
  if 0x100800 ≤ o && o < 0x100880 && (o - 0x100800) % 0x20 == 4 then some ((o - 0x100800) / 0x20) else none

/-- A 32-bit read at an aligned BAR0 offset (R408, R410, R500, R510). -/
def State.readReg (s : State) (p : Path) (o : Nat) : State :=
  if !s.readable o then { s with rdata := 0 }
  else match RegMap.find o with
    | none => { s.accessError o with rdata := 0 }
    | some d => match claimTarget o with
      | some k => s.claim k
      | none => s.readWord p o d

/-! Writes by access type -/

/-- The word after a write of `v` by the access types of the row (R7, R8). -/
def rowWrite (d : RegDesc) (old v : Word) : Word :=
  let m : Word := BitVec.ofNat 32 (d.rw ||| d.wl)
  (((old &&& ~~~m) ||| (v &&& m)) &&& ~~~(v &&& BitVec.ofNat 32 d.w1c)) ||| (v &&& BitVec.ofNat 32 d.w1s)

/-- Does the row take any write? -/
def rowWritable (d : RegDesc) : Bool := d.rw ||| d.wl ||| d.w1c ||| d.w1s != 0

/-- The W1C bits of a register that hardware sets at the tick 0 at hand: a write in that cycle clears none of them (R11). -/
def State.freshBits (s : State) (o : Nat) : Word := tget (fun _ => 0) s.time.fresh o

/-- A write by access type alone. -/
def State.writePlain (s : State) (o : Nat) (v : Word) : State := match RegMap.find o with
  | none => s
  | some d => if rowWritable d then s.setReg o (rowWrite d (s.reg o) v ||| s.freshBits o) else s

/-! Registers whose write does more -/

/-- May translation be set up: every engine is IDLE and every queue is disabled (R469)? -/
def State.datFree (s : State) : Bool :=
  (List.range 8).all (fun e => (s.engine e).mode == .idle) && (List.range 16).all (fun q => !s.queueRunning q)

/-- A write of COL_SELF (R275). -/
def State.writeColSelf (s : State) (v : Word) : State :=
  if s.life != lifeSafe then s.raise F.COL_SURVEY_STAT.cfg_err else s.setReg Reg.COL_SELF (v &&& 0x1FF)

/-- A write of COL_TORUS (R276). -/
def State.writeColTorus (s : State) (v : Word) : State :=
  if s.life != lifeSafe && s.life != lifeLoaded then s.raise F.COL_SURVEY_STAT.cfg_err else s.setReg Reg.COL_TORUS (v &&& 0x1FF)

/-- COL_SELF_WRITE -/
def execColSelfWrite (value : Word) (s : State) : Res := done (if s.up then s.writeColSelf value else s)

/-- COL_TORUS_WRITE -/
def execColTorusWrite (value : Word) (s : State) : Res := done (if s.up then s.writeColTorus value else s)

/-- The cause code of a warm reset asked for on a path (R519). -/
def pathCause : Path → Nat
  | .pcie => 3
  | .smb => 4
  | .fw => 6

/-- HUB: queues, resets and MSI-X. -/
def State.writeHub (s : State) (p : Path) (o : Nat) (v : Word) : State :=
  if 0x1000 ≤ o && o < 0x1400 then
    let q := (o - 0x1000) / 0x40
    match o % 0x40 with
    | 0 => s.writeQpCfg q v
    | 0x20 => s.writeQpCancel q v
    | _ => s.writePlain o v
  else if o = Reg.HUB_RESET then
    if bits v.toNat 24 8 != 0xA5 then s
    else if nbit v.toNat 0 then (s.writePlain o v).askWarm (pathCause p) else s.writePlain o v
  else if o = Reg.HUB_DIE_RESET then s.writeDieReset v
  else if 0x8000 ≤ o && o < 0x8400 && o % 0x10 = 0xC then (s.writePlain o v).sendHeld
  else s.writePlain o v

/-- INT: sources, pending bits and targets. The message that an EOI may cause is due in the same step (R498). -/
def State.writeInt (s : State) (o : Nat) (v : Word) : State :=
  if o < 0x100400 then s.writeSrcCfg ((o - 0x100000) / 4) v
  else if o < 0x100420 then s.pendClear ((o - 0x100400) / 4) v.toNat
  else if o < 0x100440 then s.pendSet ((o - 0x100420) / 4) v.toNat
  else if 0x100800 ≤ o && o < 0x100880 then
    let k := (o - 0x100800) / 0x20
    match (o - 0x100800) % 0x20 with
    | 8 => (s.eoi k v).1.settleWith (s.eoi k v).2
    | 0x14 => s.writeTgtVec k v
    | _ => s.writePlain o v
  else s.writePlain o v

/-- TIM -/
def State.writeTim (s : State) (o : Nat) (v : Word) : State :=
  if o = Reg.TIM_CTRL then s.writeTimCtrl v
  else if o = Reg.TIM_ORBIT_LEN then s.writeOrbitLen v
  else if o = Reg.TIM_HIST_CLEAR then s.writeHistClear v
  else if 0x200400 ≤ o && o < 0x200500 then
    let p := (o - 0x200400) / 0x20
    match o % 0x20 with
    | 4 => s.writeGovLimit p v
    | 8 => s.writeGovStat p v
    | _ => s.writePlain o v
  else s.writePlain o v

/-- DAT_CFG takes effect only while translation may be set up (R469). -/
def State.writeDat (s : State) (o : Nat) (v : Word) : State :=
  if o = Reg.DAT_CFG && !s.datFree then s.raise F.DAT_STAT.cfg_err else s.writePlain o v

/-- PWR: domains and thermal limits; thermal_warn stays set while a reading is at warn_c or above (R545). -/
def State.writePwr (s : State) (o : Nat) (v : Word) : State :=
  if o = Reg.PWR_DOM_CTRL then s.writeDomCtrl v
  else if o = Reg.PWR_THERM_LIMIT then s.writeThermLimit v
  else if o = Reg.PWR_THERM_CFG then (s.writePlain o v).showWarn.showLimits
  else if o = Reg.PWR_EVT then (s.writePlain o v).showWarn
  else s.writePlain o v

/-- MGT -/
def State.writeMgt (s : State) (o : Nat) (v : Word) : State :=
  if o = Reg.MGT_MOD_CFG then s.writeModCfg v
  else if o = Reg.MGT_MOD_CTRL then s.writeModCtrl v
  else s.writePlain o v

/-- A channel register of the riddle: LIVE and DRAINING refuse it (R114). -/
def State.writeCh (s : State) (ch r o : Nat) (v : Word) : State := match r with
  | 0 => s.writeChField ch v
  | 4 => s.writeChScale ch 0 v
  | 8 => s.writeChScale ch 1 v
  | 0x10 => s.writeChLimit ch v
  | 0xC => if s.liveOrDraining then s.riddleErr else s.writePlain o v
  | 0x14 => if s.liveOrDraining then s.riddleErr else s.writePlain o v
  | _ => s.writePlain o v

/-- INL -/
def State.writeInl (s : State) (o : Nat) (v : Word) : State :=
  let t := (o - 0x800000) / 0x100000
  let r := o % 0x100000
  if r = 0 then s.writeXoffset t v
  else if r = 0x14 then s.writeInlCntClear t v
  else if 0x1000 ≤ r then
    let n := 48 * t + (r - 0x1000) / 0x40
    match r % 0x40 with
    | 0 => s.writeLaneCfg n v
    | 4 => s.writeLaneAlign n v
    | 8 => s.writeLaneMarker n v
    | _ => s.writePlain o v
  else s.writePlain o v

/-- DEC: an output lane that is disabled goes idle, one that is enabled is checked (R228). -/
def State.writeDec (s : State) (o : Nat) (v : Word) : State :=
  if o = Reg.DEC_SYNC_CFG then s.writeSyncCfg v
  else if 0xB00100 ≤ o && o < 0xB00120 then
    let n := (o - 0xB00100) / 4
    let s := s.writePlain o v
    if s.bit (F.DEC_LANE_CFG.en n) then s.checkOutRate n else s.idleLane n
  else s.writePlain o v

/-- TTH: a port's configuration, with retrain as a bit that acts and reads 0. -/
def State.writeTth (s : State) (o : Nat) (v : Word) : State :=
  if 0xC01000 ≤ o && o < 0xC01180 && o % 0x40 = 0 then
    let p := (o - 0xC01000) / 0x40
    let s := s.writePortCfg p v
    s.when (nbit v.toNat 2) (fun s => s.takeDown p false)
  else if o = Reg.TTH_PE_TAIL then (s.writePlain o v).showPe
  else s.writePlain o v

/-- A write of one word at an assigned offset on a path, by block (R408). -/
def State.writeOne (s : State) (p : Path) (o : Nat) (v : Word) : State := match o / 0x100000 with
  | 0 => s.writeHub p o v
  | 1 => s.writeInt o v
  | 2 => s.writeTim o v
  | 3 => s.writeDat o v
  | 4 => s.writePwr o v
  | 5 => s.writeMgt o v
  | 7 => if 0x710000 ≤ o then s.writeCh (3072 + (o - 0x710000) / 0x40) (o % 0x40) o v else s.writePlain o v
  | 8 => s.writeInl o v
  | 9 => s.writeInl o v
  | 10 =>
    if 0xA10000 ≤ o then s.writeCh ((o - 0xA10000) / 0x40) (o % 0x40) o v
    else if 0xA00010 ≤ o && o < 0xA00030 && s.liveOrDraining then s.riddleErr
    else s.writePlain o v
  | 11 => s.writeDec o v
  | 12 => s.writeTth o v
  | 13 => if o = Reg.COL_SELF then s.writeColSelf v else if o = Reg.COL_TORUS then s.writeColTorus v else s.writePlain o v
  | b =>
    if 16 ≤ b && b < 32 then
      if o % 0x100000 = 0x1C then s.writeCntClear (b - 16) v
      else if o % 0x100000 = 0x128 then s.writeFstatClear (b - 16) v
      else s.writePlain o v
    else s.writePlain o v

/-- Commit a wide value of two words at `o` (R9). -/
def State.commitWide (s : State) (o : Nat) (lo hi : Word) : State :=
  if o = Reg.TIM_WALL_SET_LO then s.writeWallSet lo hi
  else if 0x1000 ≤ o && o < 0x1400 && s.ringBaseBlocked ((o - 0x1000) / 0x40) then
    s.raise (F.HUB_QP_STAT.cfg_err ((o - 0x1000) / 0x40))
  else if o = Reg.DAT_ROOT_LO && !s.datFree then s.raise F.DAT_STAT.cfg_err
  else (s.writePlain o lo).writePlain (o + 4) hi

/-- The value that a path holds for the lower word at `o`, and the path without it. -/
def State.takeLow (s : State) (p : Path) (o : Nat) : Word × State :=
  ((tget noWord (s.path p).low o).getD (s.reg o),
    s.setPath p { s.path p with low := tset noWord (s.path p).low o none })

/-- A 32-bit write at an aligned BAR0 offset on a path. A lower word of a wide value waits for its highest word (R9, R10). -/
def State.writeReg (s : State) (p : Path) (o : Nat) (v : Word) : State :=
  if !s.readable o then s
  else match RegMap.find o with
    | none => s.accessError o
    | some d =>
      if d.words < 2 || !rowWritable d then s.writeOne p o v
      else if d.back = 0 then s.setPath p { s.path p with low := tset noWord (s.path p).low o (some v) }
      else
        let (lo, s) := s.takeLow p (o - d.back)
        s.commitWide (o - d.back) lo v

/-! Rows -/

/-- An aligned offset. -/
def alignDown (o : Nat) : Nat := o / 4 * 4

/-- REGISTER_WRITE: a 32-bit write on one of the paths, at the aligned offset. -/
def execRegisterWrite (path : Path) (off : Nat) (value : Word) (s : State) : Res := done (s.writeReg path (alignDown off) value)

/-- WIDE_LOW_WORD_READ: a 32-bit read on one of the paths; R9 latches the higher words. -/
def execWideLowWordRead (path : Path) (off : Nat) (s : State) : Res := done (s.readReg path (alignDown off))

/-- Is the access one that BAR0 and BAR2 perform (R409)? -/
def accessFits (off bytes : Nat) : Bool := (bytes == 4 || bytes == 8) && off % bytes == 0

/-- The 32-bit accesses of an aligned access (R409): an aligned 64-bit one is two, the lower address first. -/
def accessWords (off bytes : Nat) : List Nat := if bytes == 8 then [off, off + 4] else [off]

/-- Count the 32-bit accesses among these offsets that reach no register of BAR0 (R408). -/
def State.countUnassigned (s : State) (os : List Nat) : State :=
  os.foldl (fun s o => if o < 0x2000000 && (RegMap.find o).isNone then s.accessError o else s) s

/-- BAD_ACCESS: an access of the wrong size or alignment, or an aligned one to an unassigned BAR0 offset, is counted with its
offset; each half of a 64-bit access by itself (R409). Before firmware starts nothing is counted (R510). -/
def execBadAccess (bar : Bar) (off bytes : Nat) (write : Bool) (s : State) : Res :=
  let s' := if write then s else { s with rdata := 0 }
  let words := accessWords off bytes
  done (if !s.up then s'
  else if !accessFits off bytes then s'.accessError off
  else if bar == .bar0 && words.any (fun o => o < 0x2000000 && (RegMap.find o).isNone) then s'.countUnassigned words
  else s)

/-- TIM_WALL_SET_WRITE: the highest word is written; the lower word is the one held on that path (R9, R49). -/
def execTimWallSetWrite (path : Path) (hi : Word) (s : State) : Res := done (s.writeReg path Reg.TIM_WALL_SET_HI hi)

/-! The atlas -/

/-- A 32-bit write at an atlas address (R426, R427); `o` is the offset that an error records. -/
def State.atlasWrite (s : State) (p : Path) (a o : Nat) (w : Word) : State :=
  if a < 0x2000000 then s.writeReg p a w
  else if s.memWritable a then s.memWrite a (leBytes 4 w.toNat)
  else s.accessError o

/-- A 32-bit read at an atlas address through the window: the PCIe copy serves R9, INT_TGT_CLAIM claims nothing. -/
def State.atlasLook (s : State) (a : Nat) : State :=
  if a < 0x2000000 then
    if (claimTarget a).isSome then { s with rdata := s.view a } else s.readReg .pcie a
  else State.looked { s with rdata := s.atlasWord a }

/-- ATLAS_ACCESS: a 32-bit access at `off` in the window (R427), with what ECC finds in a word read from the cold frame (R383). -/
def execAtlasAccess (off : Nat) (op : AtlasOp) (s : State) : Res :=
  let o := alignDown (off % 0x2000000)
  let a := (s.reg Reg.HUB_ATLAS_BASE).toNat * 2 ^ 25 + o
  done (match op with
  | .write w => if s.up then s.atlasWrite .pcie a (0x2000000 + o) w else s
  | .read found => if s.up then (s.readEcc a found).atlasLook a else { s with rdata := 0 })

/-- BAR4_WRITE: bytes at an offset in the cold frame (R382). -/
def execBar4Write (off : Nat) (data : List Byte) (s : State) : Res :=
  done (if !s.up then s
  else if (List.range data.length).all (fun i => off + i < 2 ^ 32 && s.memWritable (cold (off + i))) then s.coldWrite off data
  else (s.satInc F.CFM_ECC_STAT.bar4_reject).raise F.CFM_EVT.bar4_reject)

/-! WRITE_CONTROL and the config bank -/

/-- Register writes in order on the firmware path; a warm reset among them ends them. -/
def State.writePairs (s : State) : List (Nat × Word) → State
  | [] => s
  | (o, v) :: l => if s.up then (s.writeReg .fw o v).writePairs l else s

/-- (offset, value) pairs of a list of words. -/
def wordPairs : List Word → List (Nat × Word)
  | o :: v :: l => (o.toNat, v) :: wordPairs l
  | _ => []

/-- May this offset stand in a WRITE_CONTROL (R444)? -/
def pairOk (o : Nat) : Bool := o % 4 == 0 && (RegMap.find o).isSome

/-- WRITE_CONTROL -/
def execWriteControl (q : Fin 16) (s : State) : Res :=
  done (s.command 0x03 q (fun _ => notBoot) (fun c s =>
    let x := c.w64 0
    let ps := wordPairs (c.words.drop 2)
    if c.sub != 0 || !ps.all (fun e => pairOk e.1) || (x != 0 && !s.farEnough x) then s.finish c.id stParam []
    else if x = 0 then (s.writePairs ps).finish c.id stOk [BitVec.ofNat 32 ps.length]
    else (s.addEffect ⟨x, c.id, .writeControl ps⟩).wait c.id))

/-- Make the writes of a WRITE_CONTROL whose crossing has come. It runs while it makes them, so that a cancel among them misses it
(R432). -/
def State.runWrites (s : State) (e : Effect) (ps : List (Nat × Word)) : State :=
  ((s.stage e.cmd .running).writePairs ps).finish e.cmd stOk [BitVec.ofNat 32 ps.length]

/-- Is it a WRITE_CONTROL? -/
def isWriteControl : EffectKind → Bool
  | .writeControl _ => true
  | _ => false

/-- WRITE_CONTROL_APPLY -/
def execWriteControlApply (s : State) : Res := done (match s.takeDue isWriteControl with
  | some (e, s) => match e.kind with
    | .writeControl ps => s.runWrites e ps
    | _ => s
  | none => s)

/-! The entry to SAFE -/

/-- The resident config bank (R539): the pairs, if its magic, count, CRC and offsets are good. -/
def State.configBank (s : State) : Option (List (Nat × Word)) :=
  let n := u32 (s.flashRead 0x1000000 8) 4
  if s.flashRead 0x1000000 4 != [0x45, 0x57, 0x43, 0x42] || 131070 < n then none
  else
    let bs := s.flashRead 0x1000000 (8 + 8 * n)
    let ps := wordPairs (bytesWords (bs.drop 8))
    if (crc32c bs).toNat != u32 (s.flashRead (0x1000000 + 8 + 8 * n) 4) 0 || !ps.all (fun e => pairOk e.1) then none else some ps

/-- Apply the resident config bank. -/
def State.applyBank (s : State) : State := match s.configBank with
  | some ps => (s.raise F.PWR_CFG.cb_applied).writePairs ps
  | none => s.raise F.PWR_CFG.cb_invalid

/-- Check the certificate chain (R565). Its length field is read as four bytes (log 46). -/
def State.checkChain (s : State) : State :=
  let n := u32 (s.flashRead 0x1400000 4) 0
  let good := n ≤ 65536 && sha384 (Config.leafKey (s.flashRead 0x1400000 n)) == tgetMany (fun _ => (0 : Byte)) 1 s.fuses.keyHash 0 48
  (s.setFld F.SEC_CHAIN_LEN.len (if n ≤ 65536 then n else 0)).setFld F.SEC_STAT.chain_valid (b2n good)

/-- SAFE_ENTRY: step 5 of R509 ends: every domain is up and the memory units are zeroed; the device enters SAFE unless it is in
FAULT, with the ledger scan (R542), the chain check (R565) and the config bank (R539). -/
def execSafeEntry (s : State) : Res :=
  done (if s.power.boot != 4 || !s.power.firmware then s
  else
    let s := (List.range 21).foldl (fun s i => s.endSwitch (3 + i)) s
    let s := s.memZero (dieBase 0) 0x40000000
    let s : State := { s with power := { s.power with boot := 6, removed := [] } }
    if s.life != lifeBoot then s else (s.setLife lifeSafe).scanLedger.checkChain.applyBank)

end Sys2Proof.Machine
end

