-- ==== Sys2Proof/Machine/Image.lean ====
section
/-!
DEFINITION. LOAD_IMAGE (R211, R212, R226, R286, R363, R460, R526): reading the image, and what replaces the old one once
every check has passed.
-/
namespace Sys2Proof.Machine

/-- Is the cause of FAULT still active (R526)? -/
def State.causeActive (s : State) : Bool := match s.fld F.HUB_STATE.fault_cause with
  | 1 => !s.bit F.TIM_STATUS.pll_lock
  | 3 => s.bit F.PWR_THERM_STAT.trip
  | 4 => s.bit F.PWR_SUPPLY_STAT.now || s.bit F.PWR_FAIL_STAT.pwr_fail
  | 5 => !s.power.firmware
  | _ => false

/-- A running fill ends where it is; its bank stays not ready (R226). -/
def State.cancelFill (s : State) : State := match s.image.fill with
  | none => s
  | some f =>
    let s := { s with image := { s.image with fill := none } }.lower F.HUB_IMG_STAT.fill_busy
    s.finish f.cmd stAborted [s.reg Reg.HUB_IMG_STAT]

/-- A running fallow load ends where it is (R226). -/
def State.cancelFallow (s : State) : State := match s.image.fallow with
  | none => s
  | some f =>
    let s := s.endFallow f false
    s.finish f.cmd stAborted [s.reg Reg.HUB_IMG_STAT]

/-- Bytes of staging (R380, R211). -/
def stagingSize : Nat := 0x20000000

/-- A LOAD_IMAGE that starts: from host memory it remembers what its bytes will replace in staging. -/
def State.newLoad (s : State) (id : Nat) (host : Bool) (a n : Nat) : Load :=
  if host then ⟨id, some a, n, s.mem.filter (fun e => cold 0 ≤ e.1 && e.1 < cold 0 + n), s.image.staged⟩
  else ⟨id, none, n, [], s.image.staged⟩

/-- A load that fails a check changes nothing (R211): staging is as it was before (log 33). -/
def State.unstage (s : State) (l : Load) : State :=
  if l.host.isNone then s
  else
    let s := l.old.foldl (fun s e => s.memWrite e.1 [e.2]) (s.memZero (cold 0) l.len)
    { s with image := { s.image with staged := l.staged } }

/-- LOAD_IMAGE. -/
def execLoadImage (q : Fin 16) (s : State) : Res :=
  done (s.command 0x08 q (fun _ => [lifeSafe, lifeLoaded, lifeFault]) (fun c s =>
    let n := c.w 2
    let host := c.sub == 0
    if 1 < c.sub || (host && !hostRange (c.w64 0) n) then s.finish c.id stParam s.loadWords
    else if n = 0 || stagingSize < n then s.finish c.id stLength s.loadWords
    else if s.image.load.isSome then s.finish c.id stBusy s.loadWords
    else if s.life == lifeFault && s.causeActive then s.finish c.id stState s.loadWords
    else
      let d : Desc := if host then ⟨.hostVirtual, .atlas, 0, c.w64 0, cold 0, n⟩ else ⟨.atlas, .buffer, 0, cold 0, 0, n⟩
      if (s.engineIn .idle).isEmpty then s.startEngine c [d]
      else
        let s := s.cancelFill.cancelFallow
        let s := s.when (s.life == lifeFault) (fun s => s.restoreDomains.sendFlush)
        let s : State := { s with image := { s.image with
          load := some (s.newLoad c.id host (c.w64 0) n)
          staged := s.image.staged && !host } }
        s.startEngine c [d]))

/-! What a successful load replaces (R212) -/

/-- The menus of an image with the dies they use. -/
def loadedMenus (img : List Byte) : List Menu :=
  let bk := readBanks img
  let bs := imageBlocks img
  let dm := readDecMap img
  (readMenus img).map (fun m =>
    let r := dm.menus.getD m.number (0, 0)
    { m with dies := menuDies bk bs m, results := r.1 + 1, outDie := r.2 })

/-- The initial menus all of whose blocks stand after every initial block has been written in order. -/
def loadedWeights (img : List Byte) : List Nat :=
  let ms := (initialMenus img).map (fun m => m.number)
  let bs := ((imageBlocks img).filter (fun b => ms.contains b.owner)).zipIdx
  let free := (readMenus img).filter (fun m => !(imageBlocks img).any (fun b => b.owner == m.number && b.rows != 0))
  let good := ms.filter (fun m => bs.all (fun a => a.1.owner != m || bs.all (fun b => b.2 ≤ a.2 || b.1.owner == m || !b.1.meets a.1)))
  good ++ (free.map (fun m => m.number)).filter (fun m => !good.contains m)

/-- The riddle's channels and scale sets: everything as the image gives it, accounting and tracking at 0. -/
def State.loadRiddle (s : State) (img : List Byte) : State :=
  let r := readRiddle img
  let s := (s.resetRegs 0xA10000 0x30000).resetRegs 0x710000 0x30000
  let s := r.1.zipIdx.foldl (fun s e => s.setFld (F.RDL_MENU_SSEL.scale_set e.2) (e.1 % 2)) s
  r.2.foldl (fun s e =>
    let w (k : Nat) : Word := BitVec.ofNat 32 (e.2.getD k 0)
    (((((s.setReg (Reg.RDL_CH_FIELD e.1) (w 0 &&& 0x803FFFFF)).setReg (Reg.RDL_CH_SCALE0 e.1) (w 1)).setReg (Reg.RDL_CH_SCALE1 e.1) (w 2)).setReg
      (Reg.RDL_CH_FILL e.1) (w 3 &&& 0xFFFF)).setReg (Reg.RDL_CH_LIMIT e.1) (w 4)).setReg (Reg.RDL_CH_TRACK e.1) (w 5 &&& 0x7FFF)) s

/-- The decision map (R233). DEC_MENU_MAP shows the menus as they become resident. -/
def State.loadDecMap (s : State) (img : List Byte) : State :=
  let dm := readDecMap img
  let s := [0, 1, 2, 3, 4, 5, 6, 7].foldl (fun s t => s.setReg (Reg.DEC_MENU_MAP t) 0) s
  dm.lanes.zipIdx.foldl (fun s e => (s.setFld (F.DEC_LANE_CFG.kind e.2) e.1.1).setFld (F.DEC_LANE_CFG.tags e.2) e.1.2) s

/-- Every bridle entry is RETIRED with epoch 0 and no channel; the image's entries get their members, trace and rings
(R286, R287, R289). -/
def State.loadBridle (s : State) (img : List Byte) : State :=
  let s := (List.range 64).foldl (fun s g =>
    let s := s.when (s.bit (brHeld g)) (fun s => s.releaseVc g)
    s.when (s.fld (brState g) != grRetired) (fun s => s.raise F.COL_BRIDLE_EVT.change)) s
  let s : State := { (s.lower F.COL_GRAFT_STAT.pending).resetRegs (Reg.COL_BRIDLE 0 0) 0x2000 with groups := [] }
  (readBridle img).foldl (fun s e => ((s.setBitmap e.1 e.2.2).setFld (brTrace e.1) (b2n e.2.1)).deriveRings e.1) s

/-- The words of a record. -/
def recordWords (bs : List Byte) : List Word := (List.range (bs.length / 4)).map (fun i => BitVec.ofNat 32 (u32 bs (4 * i)))

/-- Collective schedules, zones and variants (R302, R341). -/
def State.loadSchedules (s : State) (img : List Byte) : State :=
  let cs := readColSched img
  let s := (s.resetRegs (Reg.COL_SCHED 0 0) 0x2000).resetRegs (Reg.COL_ZONE 0 0) 0x400
  let s := cs.entries.zipIdx.foldl (fun s e => s.setRegs (Reg.COL_SCHED e.2 0) (recordWords e.1)) s
  let s := cs.zones.zipIdx.foldl (fun s e => s.setRegs (Reg.COL_ZONE e.2 0) (recordWords e.1)) s
  let s := (List.range 64).foldl (fun s z => (s.setZone z {}).lower (F.COL_LZ_REL.rz z)) s
  { s with
    coll := { s.coll with runs := [], zones := [], gens := [], heldAborts := [], retry := [], landing := [] }
    image := { s.image with variants := cs.variants.map readVariant } }

/-- Seeds: the shadow seed, prescaler rows and tap descriptors (R356, R363). -/
def State.loadSeeds (s : State) (img : List Byte) : State :=
  let sd := readSeeds img
  let s := s.setWide Reg.DET_SHADOW_SEED_LO sd.shadow
  let s := sd.prescalers.foldl (fun s e => s.memWrite (rowAddr e.1 e.2.1) (padTo 128 (leBytes 8 e.2.2))) s
  { s with image := { s.image with taps := sd.taps } }

/-- Quarantine ends (R199), and every unit is idle without a slot: no token of the old image is left in a queue, a spill
area or on its way (log 132). -/
def State.loadUnits (s : State) : State :=
  let s := (List.range 16).foldl (fun s d => (List.range 104).foldl (fun s k =>
    ((s.lower (F.TRL_SITE_FSTAT.quarantined d k)).lower (F.TRL_SITE_FSTAT.recent d k)).lower (F.TRL_SITE_SPILL.used d k)) s) s
  { s with trellis := { s.trellis with units := [], flight := [], faultTimes := [] } }

/-- Both banks (R212, R213). -/
def State.loadBanks (s : State) (img : List Byte) : State :=
  let bk := readBanks img
  let s := ((s.clearBank 0).clearBank 1).writeBank bk 0 (u8 img 0x13)
  if u8 img 0x22 == 0xFF then ((s.setBankSet 1 none).lower F.HUB_IMG_STAT.bank1_valid).lower F.HUB_IMG_STAT.bank1_set
  else s.writeBank bk 1 (u8 img 0x22)

/-- Commands that wait for what the load has replaced end (R460). -/
def State.loadAborts (s : State) : State :=
  let scales := (s.effects.filter (fun e => match e.kind with
    | .setScales _ => true
    | _ => false)).map (fun e => e.cmd)
  let ends := s.cmds.filter (fun c => scales.contains c.id || (c.stage == .waiting && (c.op == 0x19 || c.op == 0x1A)))
  ends.foldl State.abortWaiting s

/-- INL_EXPECT: the lanes that resident menus read (R95). -/
def State.applyExpect (s : State) : State :=
  let ls := (s.image.menus.filter s.isResident).flatMap (fun m => m.lanesIn)
  let mask (lo n : Nat) : Nat := (List.range n).foldl (fun a i => if ls.contains (lo + i) then a + 2 ^ i else a) 0
  let s := [0, 1].foldl (fun s d =>
    (s.setFld (F.INL_EXPECT_LO.expect d) (mask (48 * d) 32)).setFld (F.INL_EXPECT_HI.expect d) (mask (48 * d + 32) 16)) s
  { s with image := { s.image with expectDue := false } }

/-- The loaded image's identity (R208). -/
def State.loadIdentity (s : State) (img : List Byte) : State :=
  let dg := img.drop (img.length - 48)
  let s := (s.setFld F.HUB_IMG_ID.id (imageId img)).setRegs (Reg.HUB_IMG_DIGEST 0)
    ((List.range 12).map (fun i => BitVec.ofNat 32 (beNat (sub dg (4 * i) 4))))
  let s := ((s.raise F.HUB_IMG_STAT.valid).lower F.HUB_IMG_STAT.unfit)
  { s with image := { s.image with
    menus := loadedMenus img, sets := imgSets img, features := (readDecMap img).features, sections := readSections img
    dies := u16 img 0x14, unfit := [], weighted := loadedWeights img, staged := true } }

/-- The menu that an image makes current. -/
def defaultMenu (img : List Byte) : Option Menu := (readMenus img).find? (fun m => m.number == u8 img 0x23)

/-- All checks have passed: the image replaces the old one, and the device is LOADED (R212). -/
def State.commitImage (s : State) (img : List Byte) : State :=
  let s := s.loadAborts
  let s := (((s.loadUnits.loadIdentity img).loadRiddle img).loadDecMap img).loadBridle img
  let s := ((s.loadSchedules img).loadBanks img)
  let s := (s.writeWeights (fun b => (initialMenus img).any (fun m => m.number == b.owner))).loadSeeds img
  let s := match defaultMenu img with
    | none => s
    | some m => s.switchTo m.tag
  let s := s.applyExpect.noteMenus
  let s := (List.range 8).foldl State.dropMirror s
  let s := (s.image.menus.filter s.isResident).foldl State.remirror s
  (s.lower F.HUB_STATE.fault_cause).enter lifeLoaded

/-- LOAD_IMAGE_COMMIT: the image is read; the first failure of its checks ends the command. -/
def State.commitLoad (s : State) (l : Load) : State :=
  let img := s.coldRead 0 l.len
  let s : State := { s with image := { s.image with load := none } }
  match s.imageErr img with
  | some (step, st, e) =>
    let s := ((s.setReg Reg.HUB_IMG_ERRLOC (packWord [(step, 0), (e.kind % 256, 8), (e.unit % 2048, 16)])).setFld
      F.HUB_IMG_ERROFF.offset e.off).unstage l
    s.finish l.cmd st s.loadWords
  | none =>
    let s := s.commitImage img
    s.finish l.cmd stOk s.loadWords

/-- LOAD_IMAGE_COMMIT; ECC may correct errors in the staging region (R383). -/
def execLoadImageCommit (s : State) : Res := done (match s.image.load with
  | none => s
  | some l => if s.moved l.cmd then (s.corrected 0x4000000).commitLoad l else s)

end Sys2Proof.Machine
end

