-- ==== Sys2Proof/Machine/Prune.lean ====
section
/-!
DEFINITION. Pruning, restoring and the sidestep pause (R225, R367-R376, R448, R449). The row map, the digest and the trays of
moved units change when the pause ends.
-/
namespace Sys2Proof.Machine

/-! Commands -/

/-- The command that waits for a job. -/
def State.jobCmd (s : State) (j : PruneJob) : Option Cmd :=
  s.cmds.find? (fun c => c.op == (if j.restore then 0x21 else 0x20) && c.stage == .waiting && c.cu == some (j.die, j.row, j.pos))

/-- PRUNE_UNIT (R370, R448). -/
def execPruneUnit (q : Fin 16) (s : State) : Res :=
  done (s.command 0x20 q (fun _ => [lifeSafe, lifeLoaded, lifeArmed, lifeLive, lifeDraining, lifeReplay]) (fun c s =>
    match c.sub == 0 && c.only [0x7FF], c.cu with
    | true, some (d, r, p) =>
      if !s.available d r p then s.finish c.id stState []
      else if (s.logicalOf d r p).isNone then s.finish c.id stParam []
      else if s.jobOn d then s.finish c.id stBusy []
      else (s.acceptJob { die := d, row := r, pos := p }).wait c.id
    | _, _ => s.finish c.id stParam []))

/-- The hub forgets the faults of the unit at a place (R199). -/
def State.forgetFaults (s : State) (u : Nat) : State :=
  { s with trellis := { s.trellis with faultTimes := tset (fun _ => []) s.trellis.faultTimes u [] } }

/-- RESTORE_UNIT (R373, R449): a quarantine alone clears at once. -/
def execRestoreUnit (q : Fin 16) (s : State) : Res :=
  done (s.command 0x21 q (fun _ => [lifeSafe, lifeLoaded, lifeArmed, lifeLive, lifeDraining, lifeReplay]) (fun c s =>
    let u := bits (c.w 0) 0 11
    let d := uDie u
    let r := uRow u
    let k := 13 * r + uCol u
    if c.sub != 0 || !c.only [0x7FF] || !isUnit u || (cuPos (uCol u)).elim false (fun p => nbit (s.fusedMask d r) p) then
      s.finish c.id stParam []
    else if s.jobOn d then s.finish c.id stBusy []
    else match (cuPos (uCol u)).filter (fun p => nbit (s.prunedMask d r) p) with
      | some p => (s.acceptJob { die := d, row := r, pos := p, restore := true }).wait c.id
      | none =>
        if !s.bit (F.TRL_SITE_FSTAT.quarantined d k) then s.finish c.id stState []
        else
          let s := (s.lower (F.TRL_SITE_FSTAT.quarantined d k)).lower (F.TRL_SITE_FSTAT.recent d k)
          let s := s.forgetFaults u
          s.finish c.id stOk [BitVec.ofNat 32 s.time.orbit]))

/-! Taking effect -/

/-- Complete the command of a job. -/
def State.endJob (s : State) (j : PruneJob) (orbit : Nat) (bit : Bool) : State := match s.jobCmd j with
  | none => s
  | some c => s.finish c.id stOk [BitVec.ofNat 32 orbit, packWord [(b2n bit, 0)]]

/-- A prune fences the die: the image that uses it is unfit, and the menus that do (R225, R368). -/
def State.fenceDie (s : State) (d : Nat) : State :=
  let s := (s.setFence d true).raise F.DET_STATUS.die_fenced
  let hit := (s.image.menus.filter (fun m => nbit m.dies d)).map (fun m => m.number)
  let s : State := { s with image := { s.image with unfit := distinct (s.image.unfit ++ hit) } }
  s.when (nbit s.image.dies d) (fun s => s.raise F.HUB_IMG_STAT.unfit)

/-- The pruned positions of a row once these jobs have taken effect. -/
def State.nextPruned (s : State) (js : List PruneJob) (d r : Nat) : Nat :=
  (js.filter (fun j => j.row == r)).foldl (fun m j => if j.restore then clearBit m j.pos else setBit m j.pos) (s.prunedMask d r)

/-- Do these prunes fence the die: a second pruned unit in a row, or too few positions left (R368, R375)? -/
def State.jobsFence (s : State) (js : List PruneJob) (d : Nat) : Bool := js.any (fun j => !j.restore &&
  let m := s.nextPruned js d j.row
  (2 ≤ ((List.range 9).filter (fun p => nbit m p)).length ||
    ((List.range 9).filter (fun p => !nbit (s.fusedMask d j.row) p && !nbit m p)).length < s.exposed))

/-- Copy the trays and tables of every unit that moved from its old place to its new one: the second tray plane (R370). -/
def State.moveTrays (old s : State) (d : Nat) : State :=
  (List.range 64).foldl (fun t i =>
    let u := unitAddr d (i / 8) (cuCols.getD (i % 8) 0)
    if old.site u = s.site u || s.exposed ≤ i % 8 then t
    else
      let t := t.memWrite (slotAddr d (s.site u) 0) (old.memRead (slotAddr d (old.site u) 0) 0x2000)
      t.memWrite (lutAddr d (s.site u) 0) (old.memRead (lutAddr d (old.site u) 0) 0x10000)) s

/-- Columns to the east that a unit has moved. -/
def State.shiftOf (old s : State) (u : Nat) : Int := (s.physCol u : Int) - old.physCol u

/-- Rewrite, in the valid slots of every unit, the routes whose source or end has moved (R370). -/
def State.reroute (old s : State) (d : Nat) : State :=
  if (List.range 64).all (fun i => old.shiftOf s (unitAddr d (i / 8) (cuCols.getD (i % 8) 0)) == 0) then s
  else (List.range 1664).foldl (fun s i =>
    let u := unitAddr (i / 104) (i % 104 / 13) (i % 13)
    if !s.unitExposed u then s
    else (s.validSlots u).foldl (fun t e =>
      let bs := s.slotBytes u e.1
      let new := rerouted u (old.shiftOf s) bs
      if new = bs then t else t.memWrite (slotAddr (uDie u) (s.site u) e.1) new) s) s

/-- Trace entries of a prune and of the units it moved (R365), named for the first event at the boundary. -/
def State.tracePrune (old s : State) (d : Nat) (js : List PruneJob) (orbit crossing : Nat) : State :=
  let ev : EvRef := { orbit := orbit, crossing := crossing }
  let s := js.foldl (fun s j => if j.restore then s
    else s.trace 3 ((old.logicalOf d j.row j.pos).getD (cuAddr d j.row j.pos)) 0 0 0 ev) s
  (List.range 64).foldl (fun t i =>
    let u := unitAddr d (i / 8) (cuCols.getD (i % 8) 0)
    if old.site u = s.site u || s.exposed ≤ i % 8 then t else t.trace 4 u 0 0 0 ev) s

/-- The jobs of a die take effect. -/
def State.runJobs (s : State) (d : Nat) (js : List PruneJob) (orbit crossing : Nat) : State :=
  let old := s
  let s := (List.range 8).foldl (fun s r => s.setFld (F.DET_ROW_MAP.pruned (8 * d + r)) (s.nextPruned js d r)) s
  let s := (js.filter (fun j => !j.restore)).foldl (fun s j =>
    let k := 13 * j.row + cuCols.getD j.pos 0
    (((s.lower (F.TRL_SITE_FSTAT.quarantined d k)).lower (F.TRL_SITE_FSTAT.recent d k)).lower
      (F.TRL_SITE_FSTAT.prune_pending d k)).forgetFaults (cuAddr d j.row j.pos)) s
  let s := old.reroute (old.moveTrays s d) d
  let cleared := old.fenced d && js.any (fun j => j.restore) && !s.rowsBad d && s.domOn (8 + d)
  let s := (if cleared then s.setFence d false else s).digestMap
  let s := (old.tracePrune s d js orbit crossing).raise F.DET_STATUS.prune_applied
  js.foldl (fun s j => s.endJob j orbit (if j.restore then cleared else s.fenced d)) s

/-- Jobs of a die reach their boundary: a fence takes effect at once, a sidestep begins its pause. -/
def State.reachJobs (s : State) (d orbit crossing start : Nat) (ready : PruneJob → Bool) : State :=
  let js := s.spares.jobs.filter (fun j => j.die == d && ready j)
  if js.isEmpty || (s.pauseOf d).isSome then s
  else
    let s := (s.setJobs (s.spares.jobs.filter (fun j => !(j.die == d && ready j)))).setFld F.DET_PRUNE_STAT.orbit orbit
    if s.jobsFence js d then
      let s := js.foldl (fun s j => s.lower (F.TRL_SITE_FSTAT.prune_pending d (13 * j.row + cuCols.getD j.pos 0))) (s.fenceDie d)
      js.foldl (fun s j => s.endJob j orbit (!j.restore)) s
    else
      { s with spares := { s.spares with pauses := tset (fun _ => none) s.spares.pauses d (some ⟨start, orbit, crossing, js⟩) } }.showPrunes

/-- The first event index that a boundary at crossing index `x` holds back; in REPLAY the one after the newest presented. -/
def State.firstAfter (s : State) (x : Nat) : Nat :=
  if s.life = lifeReplay then s.events.foldl (fun n e => max n (e.index + 1)) 0 else x

/-- Every die's prepared prunes, and its restores, which need no preparation (R373), reach the boundary that begins crossing index `x`,
crossing `c` of orbit `o`. -/
def State.pruneBoundary (s : State) (o c x : Nat) : State :=
  (List.range 16).foldl (fun s d => s.reachJobs d o c (s.firstAfter x) (fun j => j.prepared || j.restore)) s

/-- Is the device at an orbit boundary: before it, at the last tick of its crossing, or past it with the counters? -/
def State.atBoundary (s : State) : Bool :=
  s.counts && s.reached (s.xindex + 1) && (s.time.boundaryDone || s.counter.atEnd)

/-- The orbit and crossing that the boundary begins. -/
def State.boundaryId (s : State) : Nat × Nat :=
  if s.time.boundaryDone then (s.time.orbit, s.time.crossing) else ((s.time.orbit + 1) % 2 ^ 32, s.counter.next.crossing)

/-- Prunes and restores reach the orbit boundary that is at hand. -/
def State.applyJobs (s : State) : State :=
  if s.atBoundary then s.pruneBoundary s.boundaryId.1 s.boundaryId.2 (s.xindex + 1) else s

/-- PRUNE_PREPARED: firmware has computed the sidestep of the oldest prune; outside LIVE and REPLAY it takes effect at once. -/
def execPrunePrepared (s : State) : Res := done (match takeFirst (fun j => !j.prepared && !j.restore) s.spares.jobs with
  | none => s
  | some (j, _) =>
    let js := s.spares.jobs.map (fun x => if x = j then { x with prepared := true } else x)
    let s := s.setJobs js
    if s.life = lifeLive || s.life = lifeReplay then s else s.reachJobs j.die s.time.orbit s.time.crossing (s.xindex + 1) (fun x => x.prepared && !x.restore))

/-- PRUNE_APPLY: the orbit boundary at hand. -/
def execPruneApply (s : State) : Res := done s.applyJobs

/-- RESTORE_APPLY: the orbit boundary at hand. -/
def execRestoreApply (s : State) : Res := done s.applyJobs

/-- Does the die hold a token of an event before the boundary, or of a shadow run, or is one on its way there (R371)? -/
def State.dieHolds (s : State) (d start : Nat) : Bool :=
  let early (e : EvRef) : Bool := e.shadow || e.index < start
  s.trellis.units.any (fun x => uDie x.1 == d && ((x.2.inEvent && early x.2.ev) ||
    [0, 1, 2, 3, 4, 5].any (fun q => (x.2.tokens q).any (fun t => early t.ev)))) ||
  s.trellis.flight.any (fun f => match f.dest with
    | .unit u _ => uDie u == d && (early f.tok.ev || f.origin == some d)
    | _ => false)

/-- SIDESTEP_SWITCH: a paused die that holds no earlier token switches its planes and routes. -/
def execSidestepSwitch (die : Fin 16) (s : State) : Res := unstalled s (match s.pauseOf die with
  | none => s
  | some p =>
    if s.dieHolds die p.start then s
    else
      let s := { s with spares := { s.spares with pauses := tset (fun _ => none) s.spares.pauses die none } }.showPrunes
      s.runJobs die p.jobs p.orbit p.crossing)

end Sys2Proof.Machine
end

