-- ==== Sys2Proof/Machine/Record.lean ====
section
/-!
DEFINITION. The capture ring (R384-R388): the record of a crossing (R385), the side entries of the riddle's state (R386) and their
ring (R387). The header of a group of side entries, which the spec leaves open but for what it holds: log 47.
-/
namespace Sys2Proof.Machine

/-- The channels of the riddle. -/
def allChannels : List Nat := List.range 6144

/-- The side entry of a channel (R386), as four words. -/
def State.sideEntry (s : State) (ch : Nat) : List Word :=
  [packWord [(ch, 0), (s.fld (F.RDL_CH_TRACK.clamped ch), 16), (s.fld (F.RDL_CH_TRACK.held ch), 17), (s.fld (F.RDL_CH_FIELD.track ch), 18)],
    s.scaleWord ch 0, s.scaleWord ch 1, s.reg (Reg.RDL_CH_TMAX ch)]

/-- Cold-frame address of the record of crossing index `j` (R385). -/
def State.recordAddr (s : State) (j : Nat) : Nat := 0x20000000 + (j % max 1 s.capLen) * 9344

/-- Size of the side-record ring. -/
def sideSize : Nat := 0x04000000

/-- The status code of what a lane's slot held: 0 good, 1 missing, 2 bad. -/
def inputCode : Input → Nat
  | .frame _ => 0
  | .missing => 1
  | .bad => 2

/-- Pack 2-bit statuses of 96 lanes. -/
def statusBytes (ins : Nat → Input) : List Byte :=
  leBytes 24 ((List.range 96).foldl (fun a n => a + inputCode (ins n) * 4 ^ n) 0)

/-- Pack a set of lanes. -/
def laneBytes (ls : List Nat) : List Byte := leBytes 12 (ls.foldl setBit 0)

/-- The 96 bytes of one lane in a record (R385). -/
def State.laneRecord (s : State) (n : Nat) (x : Input) : List Byte := match x with
  | .frame f => [0, BitVec.ofNat 8 n, BitVec.ofNat 8 (b2n (s.rawMode n)), 0] ++ padTo 88 f.covered ++ leBytes 4 f.crc.toNat
  | _ => padTo 96 [BitVec.ofNat 8 (inputCode x), BitVec.ofNat 8 n, BitVec.ofNat 8 (b2n (s.rawMode n))]

/-- The 9,344 bytes of a record (R385). -/
def State.recordBytes (s : State) (j tag side : Nat) (ins : Nat → Input) (expected : List Nat) : List Byte :=
  let head := leBytes 8 j ++ leBytes 4 s.time.orbit ++ leBytes 2 s.time.crossing ++ leBytes 1 tag ++ leBytes 1 side ++
    statusBytes ins ++ laneBytes expected
  padTo 128 (head ++ leBytes 4 (crc32c head).toNat) ++ (List.range 96).flatMap (fun n => s.laneRecord n (ins n))

/-- The entries of this crossing (R386), and whether they are a full snapshot. The entries of a boundary or snapshot become
the base of the next boundary's difference. -/
def State.sideEntries (s : State) (boundary : Bool) : List (List Word) × Bool × State :=
  let c := s.capture
  let full := c.snapshotDue || (boundary && 64 ≤ c.boundaries)
  let named := c.named.map s.sideEntry
  let s : State := { s with capture := { c with named := [], snapshotDue := false, boundaries := if full then 0 else c.boundaries } }
  if !full && !boundary then (named, false, s)
  else
    let now := allChannels.map (fun ch => (ch, s.sideEntry ch))
    let wrote := if full then now else now.filter (fun e => tget (fun _ => []) c.last e.1 != e.2)
    (wrote.map (fun e => e.2) ++ named, full, { s with capture := { s.capture with last := now } })

/-- The groups that the oldest record still needs: its latest full snapshot and every later one (R387). -/
def neededGroups (gs : List (Nat × Nat × Nat × Bool)) (oldest : Nat) : List (Nat × Nat × Nat × Bool) :=
  match (gs.filter (fun g => g.2.2.2 && g.1 ≤ oldest)).getLast? with
  | some f => gs.filter (fun g => f.1 ≤ g.1)
  | none => gs.filter (fun g => oldest < g.1)

/-- Write the group of crossing `j` (R387): the side bits of the record, and the state. Positions count on past the end of the
ring; a group is never split. -/
def State.writeGroup (s : State) (j oldest : Nat) (es : List (List Word)) (full : Bool) : Nat × State :=
  if es.isEmpty then (0, s)
  else
    let size := 16 + 16 * es.length
    let p := s.capture.sidePos
    let a := if sideSize < p % sideSize + size then p + sideSize - p % sideSize else p
    let gs := neededGroups s.capture.groups oldest
    if sideSize < a + size - (gs.head?.elim a (fun g => g.2.1)) then
      let first := gs.head?.elim j (fun g => g.1)
      let lost := s.capture.overflowed.filter (fun x => first ≤ x) ++ [j]
      let s : State := { s with capture := { s.capture with overflowed := lost } }
      (2, (s.raise F.CFM_CAP_STAT.side_overflow).raise F.CFM_EVT.side_overflow)
    else
      let bs := leBytes 8 j ++ leBytes 4 es.length ++ leBytes 4 0 ++ es.flatMap wordBytes
      let s := s.coldWrite (0xE0000000 + a % sideSize) bs
      (1, { s with capture := { s.capture with groups := gs ++ [(j, a, es.length, full)], sidePos := a + size } })

/-- Write the record of crossing index `j`, with its side entries; a post-trigger period may end with it (R388). -/
def State.writeRecord (s : State) (j tag : Nat) (ins : Nat → Input) (expected : List Nat) (boundary : Bool) : State :=
  if !s.capRuns then s
  else
    let oldest := max (s.capture.oldest.getD j) (j + 1 - s.capLen)
    let (es, full, s) := s.sideEntries boundary
    let (side, s) := s.writeGroup j oldest es full
    let s := s.coldWrite (s.recordAddr j) (s.recordBytes j tag side ins expected)
    let s := (s.setWide Reg.CFM_CAP_NEWEST_LO j).setWide Reg.CFM_CAP_OLDEST_LO oldest
    let ends := s.capState == capPost && s.wide Reg.CFM_CAP_TRIG_X_LO + s.fld F.CFM_CAP_CFG.post_x ≤ j
    { s with capture := { s.capture with newest := some j, oldest := some oldest, freezeDue := s.capture.freezeDue || ends } }

end Sys2Proof.Machine
end

