-- ==== Sys2Proof/Machine/Present.lean ====
section
/-!
DEFINITION. The presentation of an event (R93-R96, R113, R360, R364) and its emission by the riddle (R112). REPLAY presents through
the same operation (Machine/Replay.lean).
-/
namespace Sys2Proof.Machine

/-! Presentation -/

/-- The lanes of INL_EXPECT. -/
def State.expectedLanes (s : State) : List Nat :=
  (List.range 96).filter (fun n => nbit (s.wide (Reg.INL_EXPECT_LO (n / 48))) (n % 48))

/-- What the slot of crossing index `a` gives (R95). -/
def slotInput : Slot → Input
  | .empty => .missing
  | .bad => .bad
  | .good f => .frame f

/-- Empty the slot of crossing index `a` on every lane (R93). -/
def State.emptySlots (s : State) (a : Nat) : State :=
  s.lanes.foldl (fun s e => if s.slot e.1 a = .empty then s else s.setSlot e.1 a .empty) s

/-- Count an expected lane's missing or bad input (R96). -/
def State.countInput (s : State) (n : Nat) (x : Input) : State := match x with
  | .missing => s.satInc (F.INL_LANE_ERR3.missing (n / 48) (n % 48))
  | .bad => s.satInc (F.INL_LANE_ERR3.bad (n / 48) (n % 48))
  | .frame _ => s

/-- The input digest of an event (R360). -/
def inputDigest (lanes : List (Nat × Input)) : Word :=
  crc32c (lanes.flatMap (fun l => [BitVec.ofNat 8 l.1, BitVec.ofNat 8 (inputCode l.2)] ++ match l.2 with
    | .frame f => f.covered
    | _ => []))

/-- Is an event sampled for shadow verification (R364)? -/
def State.isSampled (s : State) (orbit crossing : Nat) : Bool :=
  (crc64 (leBytes 8 (s.wide Reg.DET_SHADOW_SEED_LO) ++ leBytes 4 orbit ++ leBytes 2 crossing ++ [0, 0])).toNat %
    2 ^ s.fld F.DET_SHADOW_CFG.k == 0

/-- The scale words of the channels of `lanes` in set `set`. -/
def State.scalesOf (s : State) (set : Nat) (lanes : List Nat) : Tbl Word :=
  (lanes.flatMap (fun n => (List.range 64).map (fun k => 64 * n + k))).foldl
    (fun t ch => tset (fun _ => 0) t ch (s.scaleWord ch set)) []

/-- Both scale words of the channels of `lanes` (R398). -/
def State.scalePairs (s : State) (lanes : List Nat) : List (Nat × Word × Word) :=
  lanes.flatMap (fun n => (List.range 64).map (fun k => (64 * n + k, s.scaleWord (64 * n + k) 0, s.scaleWord (64 * n + k) 1)))

/-- The input flags of an event (R95): missing and bad, over the expected lanes. -/
def inputFlags (ins : Nat → Input) (expected : List Nat) : Nat :=
  flagIf (expected.any (fun n => ins n == .bad)) 4 (flagIf (expected.any (fun n => ins n == .missing)) 3 0)

/-- Present an event: its entry at the decision output, its collective runs, and what the riddle will emit. -/
def State.presentEvent (s : State) (ev : EvRef) (tag : Nat) (m : Menu) (ins : Nat → Input) (expected : List Nat) (replay : Bool) : State :=
  let lanes := m.lanesIn.map (fun n => (n, ins n))
  let sampled := s.isSampled ev.orbit ev.crossing
  let fl := flagIf (s.scaleClamp tag m.lanesIn) 9 (flagIf sampled fSampled (inputFlags ins expected))
  let e : EventEntry := {
    index := ev.index, orbit := ev.orbit, crossing := ev.crossing, tag := tag, menu := m.number, cut := (ev.index + m.dlat) % 2 ^ 59
    maskPolicy := m.maskPolicy, mask := m.mask, flags := fl, inputDigest := inputDigest lanes
    inputs := if sampled then lanes else [], scales := if sampled then s.scalePairs m.lanesIn else [], replay := replay }
  let p : Presented := {
    index := ev.index, tag := tag, ev := ev, lanes := lanes
    scales := s.scalesOf (s.fld (F.RDL_MENU_SSEL.scale_set tag)) m.lanesIn, expected := expected }
  let a : Await := { index := ev.index, tag := tag, results := m.results, die := m.outDie, cut := e.cut, replay := replay }
  State.createRuns { s with
    events := s.events ++ [e], presented := some p
    decision := { s.decision with awaits := s.decision.awaits ++ [a] } } ev.index tag ev

/-- Present the crossing that has begun, in LIVE. -/
def State.presentLive (s : State) : State :=
  let a := s.xindex
  let tag := s.fld F.HUB_MENU_CUR.cur_tag
  match s.residentAt tag with
  | none => s
  | some m =>
    let ins := fun n => slotInput (s.slot n a)
    let expected := s.expectedLanes
    let ev : EvRef := { index := a, orbit := s.time.orbit, crossing := s.time.crossing }
    let s' := expected.foldl (fun s n => s.countInput n (ins n)) s
    s'.presentEvent ev tag m ins expected false

/-- Tick 0 of a crossing, once the counters stand: the record of the capture, the presentation in LIVE, and the slots of this
crossing end empty (R93); what a SET_SCALES names belongs to the record of its own crossing (R386). `boundary`: the crossing begins an
orbit. -/
def State.openCrossing (s : State) (boundary : Bool) : State :=
  let a := s.xindex
  let s := s.when s.liveOrDraining (fun s =>
    s.writeRecord a (s.fld F.HUB_MENU_CUR.cur_tag) (fun n => slotInput (s.slot n a)) s.expectedLanes boundary)
  let s := s.when (s.life == lifeLive) State.presentLive
  let s : State := { s with capture := { s.capture with named := [] } }
  s.emptySlots a

/-! Emission -/

/-- The riddle emits the event of the current presentation (R112): EVENT_START, the data tokens of the lanes that its menu reads,
EVENT_END with no flag. A field that does not fit a lane's mode marks the event INPUT_BAD if the lane is expected (R107). -/
def State.riddleEmit (s : State) : State := match s.presented with
  | none => s
  | some p => match s.image.menus.find? (fun m => some m.number == (s.events.find? (fun e => e.index == p.index)).map (fun e => e.menu)) with
    | none => { s with presented := none }
    | some m =>
      let d := Dest.unit m.entry m.queue
      let s : State := { s with presented := none }
      let s := s.fly d (ctlToken 0 p.tag 0 [p.ev.crossing, p.ev.index % 65536] p.ev)
      let s := p.lanes.foldl (fun s l =>
        let (ws, bad, s) := s.laneToken l.1 (fun ch => tget (fun _ => 0) p.scales ch) l.2 p.account
        let s := s.when (bad && p.expected.contains l.1) (fun s => s.flagEvent p.index 4)
        s.fly d { kind := 0, tag := p.tag, ctx := 0, lanes := ws, ev := p.ev }) s
      s.fly d (ctlToken 1 p.tag 0 [0] p.ev)

/-- RIDDLE_EMIT: tick 24 of the crossing. -/
def execRiddleEmit (s : State) : Res := unstalled s s.riddleEmit

end Sys2Proof.Machine
end

