-- ==== Sys2Proof/Machine/Boundary.lean ====
section
/-!
DEFINITION. Orbit boundaries (R34, R42, R70, R122, R371, R386, R396), and the crossing that TIME_ALIGN marks, which is one (R50, R70). A
marker that TIME_ALIGN does not take stands in Machine/Spool.lean.
-/
namespace Sys2Proof.Machine

/-- Will the crossing that begins next be presented in LIVE? -/
def State.nextPresents (s : State) : Bool :=
  if s.life = lifeLive then !s.effects.any (fun e => isDrain e.kind && s.due e)
  else s.life == lifeArmed && (s.effects.any (fun e => e.kind.isStart && s.due e) || s.launchDue.isSome || s.syncDue)

/-- Leaving a crossing whose counter is 0 ends the watch of R41. -/
def State.leaveZero (s : State) : State :=
  if s.time.crossing = 0 then { s with time := { s.time with offSeen := false } } else s

/-- The counters step over an orbit boundary (R34, R35, R42). -/
def State.stepOrbit (s : State) : State :=
  let c := s.counter
  let wraps := s.time.orbit + 1 == 2 ^ 32
  let s := s.when c.resync.isSome (fun s => s.raise F.TIM_STATUS.orbit_resync)
  let s := s.when wraps (fun s => s.raise F.TIM_STATUS.orbit_wrap)
  let s := s.setFld F.TIM_ORBIT_LEN.len c.nextLen
  { s with time := { s.time with
    crossing := c.next.crossing
    orbit := (s.time.orbit + 1) % 2 ^ 32
    lenPending := none
    resync := none
    boundaryDone := true } }

/-- What an orbit boundary brings beside the counters and the scales: lanes join (R98), prunes and restores reach it, `jobs` says how
(R371, R373), the capture counts it (R386), a new k takes effect (R396). Crossing index `x` is the first that a joining lane files. -/
def State.boundaryWork (s : State) (x : Nat) (jobs : State → State) : State :=
  let s := jobs (s.joinLanes x)
  let s := s.when s.capRuns (fun s => { s with capture := { s.capture with boundaries := s.capture.boundaries + 1 } })
  match s.spares.nextK with
  | some k => { s.setFld F.DET_SHADOW_CFG.k k with spares := { s.spares with nextK := none } }
  | none => s

/-- The orbit boundary that ends this crossing, at its last tick. The event still presented is emitted before tracking derives, since its
samples belong to the orbit that ends (R129). -/
def State.orbitBoundary (s : State) : State :=
  let s := (s.when (!s.stalled) State.riddleEmit).toLastTick
  let s := s.when s.nextPresents State.deriveScales
  let s := s.leaveZero.stepOrbit
  s.boundaryWork (s.xindex + 1) State.applyJobs

/-- Does the crossing end with a boundary that has not been taken yet? -/
def State.boundaryAhead (s : State) : Bool := s.counts && !s.time.boundaryDone && s.counter.atEnd

/-- ORBIT_BOUNDARY -/
def execOrbitBoundary (s : State) : Res := done (if s.boundaryAhead then s.noting State.orbitBoundary else s)

/-! Aligning (R50, R70) -/

/-- TIME_ALIGN takes a marker in this crossing: it becomes crossing 0 of orbit O at spool count S, an orbit boundary. A pending length takes
effect there; effects named for the old count follow R619, with crossing S / 32 as the one with which the new count begins. -/
def State.markAlign (s : State) (w : AlignWait) : State :=
  let before := 32 * s.xindex
  let x := w.spool / 32
  let s := s.when (s.life == lifeLive) State.deriveScales
  let s := (s.setFld F.TIM_ORBIT_LEN.len s.counter.nextLen).alignTo w
  let s := ((s.boundaryWork x (fun s => s.pruneBoundary w.orbit 0 x)).followCount (x + 1)).loadCount x
  s.endAlign stOk (loHi before)

/-- ORBIT_MARKER_SEEN: the sample of this crossing is high and that of the one before was low (R38). A waiting TIME_ALIGN takes the
crossing, if it may (R50). -/
def execOrbitMarkerSeen (s : State) : Res := done
  (if !s.counts || !s.orbitOn || s.markerHigh then s
  else match s.time.align with
    | some w => if s.alignOpen w then s.markAlign w else s.classMarker
    | none => s.classMarker)

/-- TIME_ALIGN_MARK: a marker is seen in a crossing that the waiting TIME_ALIGN takes. -/
def execTimeAlignMark (s : State) : Res := done (match s.time.align with
  | some w => if s.alignOpen w then s.markAlign w else s
  | none => s)

end Sys2Proof.Machine
end

