-- ==== Sys2Proof/Machine/Compute.lean ====
section
/-!
DEFINITION. Compute units at work (R137-R140, R154-R156, R160-R163, R167-R171, R187, R188, R356-R358): firings of stage 0,
counter wraps with their emissions, and the ERROR tokens that stand for operands.
-/
namespace Sys2Proof.Machine

/-- What a firing takes: the tokens of the primary input with its queue, and the token of the b source with its queue. -/
structure Operands where
  prim : Nat
  a : List Token
  b : Option (Nat × Token)

/-- All tokens of a firing. -/
def Operands.all (o : Operands) : List Token := o.a ++ (o.b.map (fun x => x.2)).toList

/-- The first ERROR token among the operands (R192). -/
def Operands.error (o : Operands) : Option Token := o.all.find? Token.errData

/-- Does the stage take its b operand from a queue (R139, R140)? -/
def StageCfg.bQueue (st : StageCfg) : Option Nat :=
  if (st.func == 1 || st.func == 2) && 8 ≤ st.bSrc then some (st.bSrc - 8) else none

/-- The b operand of a stage at the head of its queue; `skip` tokens stand before it. -/
def State.bToken (s : State) (u : Nat) (st : StageCfg) (prim skip : Nat) : Option (Option (Nat × Token)) :=
  match st.bQueue with
  | none => some none
  | some q => match (((s.unit u).tokens q).drop (if q = prim then skip else 0)).head? with
    | some t => if t.operand then some (some (q, t)) else none
    | none => none

/-- The operands of a firing of stage 0 with slot `i`, when all are there. -/
def State.operands (s : State) (u i q : Nat) : Option Operands :=
  let bs := s.slotBytes u i
  let n := if (readHeader bs).inWide then 2 else 1
  let ts := ((s.unit u).tokens q).take n
  if ts.length = n && ts.all Token.operand then
    (s.bToken u (readStage bs 0x40) q n).map (fun b => ⟨q, ts, b⟩)
  else none

/-- The 64 values of the b operand of a stage (R140, R164). -/
def State.bVals (s : State) (u : Nat) (bs : List Byte) (st : StageCfg) (b : Option (Nat × Token)) : List Int :=
  match b with
  | some (_, t) => t.vals
  | none =>
    if st.bSrc = 1 then (readLanes bs 0x140).map (fun v => wrap32 (v * 2 ^ st.vecShift))
    else if st.bSrc = 2 then List.replicate 64 (((s.unit u).cnt.getD st.holdCtr 0 : Nat) : Int)
    else List.replicate 64 (signed 32 st.imm)

/-- Lane a[k] of BCAST (R138). The spec gives no lane for a counter above 63: a free value of the operands (log 9). -/
def State.bcastLane (s : State) (u : Nat) (st : StageCfg) (a : List Int) : Int :=
  let k := (s.unit u).cnt.getD st.holdCtr 0
  if k < 64 || !st.bcast || st.func != 1 then a.getD k 0 else (Config.bcastLane k a).toInt

/-- Fire stage `j` of the active slot with its values (R138). -/
def State.fire (s : State) (u i j : Nat) (a b : List Int) : State :=
  let st := readStage (s.slotBytes u i) (0x40 + 16 * j)
  let v := s.unit u
  let (acc, ovf) := fireStage st (v.accOf j) a b (s.bcastLane u st a) (s.lut u (4 * i + j))
  let s := s.setUnit u { v with acc := tset (fun _ => []) v.acc j acc }
  s.when ovf (fun s => s.noteOvf u)

/-- Does a firing of the stage read this byte under parity (R197)? From 0x140 on the vector, from 0x200 on the LUT table of the stage. -/
def StageCfg.firesByte (st : StageCfg) (p : Nat) : Bool :=
  (0x140 ≤ p && p < 0x1C0 && st.bSrc == 1 && (st.func == 1 || st.func == 2)) || (0x200 ≤ p && st.func == 3)

/-- Does an emission of the stage read this byte under parity (R197): the per-lane M? -/
def StageCfg.emitsByte (st : StageCfg) (p : Nat) : Bool := 0xC0 ≤ p && p < 0x140 && st.requant && st.perLane

/-- A parity failure of the row, where the stage reads the byte (R197). The detail is the byte's offset in the slot (R194); a LUT table has
none, and its detail is a free value (log 142). -/
def State.parityAt (s : State) (u : Nat) (parity : Option (Fin 1024)) (reads : Nat → Bool) (stage : Nat) (l : List (Ctr × Nat)) : State :=
  match parity with
  | none => s
  | some p =>
    if !reads p then s
    else if p.val < 0x200 then s.faultAt u 7 p stage l
    else
      let (c, s) := s.takeFree
      s.faultAt u 7 (bits c.toNat 0 17) stage l

/-- The tokens of one primary operand of slot `i` (R163). -/
def State.width (s : State) (u i : Nat) : Nat := if (s.slotHeader u i).inWide then 2 else 1

/-- The operand a of stage 0 is held, or consumed once it is held no more (R139). -/
def State.holdOr (s : State) (u q i : Nat) (held : Bool) : State :=
  let s := s.setUnit u { s.unit u with holding := held }
  if held then s else s.consumeN u q (s.width u i)

/-- A firing of stage 0 (R138, R139, R150, R157, R187, R188). `err`: the row is that of an ERROR operand. -/
def State.fireTry (s : State) (u : Nat) (err : Bool) (parity : Option (Fin 1024)) : Try :=
  let v := s.unit u
  if isMu u || !v.inEvent || !v.wraps.isEmpty then none
  else match s.headOf u Token.operand with
  | none => none
  | some (q, t) =>
    let s1 := s.followToken u t 1
    match (s1.unit u).slot with
    | none => some ([], s1.dropEvent u)
    | some i => match s1.operands u i q with
      | none => none
      | some o =>
        if o.error.isSome != err then none
        else
          let bs := s1.slotBytes u i
          let st := readStage bs 0x40
          let s1 := s1.when (o.all.any (fun x => x.tag != t.tag || x.ctx != t.ctx)) (fun s => s.faultUnit u 3 4 0 1)
          let s1 := s1.parityAt u parity st.firesByte 0 (s1.atLimit u 0 1)
          let s1 := match o.error with
            | none => s1
            | some e => s1.takeError u e
          let a := match o.a with
            | [lo, hi] => wideVals lo hi
            | x :: _ => x.vals
            | [] => []
          let s1 := if (s1.unit u).subst then s1 else s1.fire u i 0 a (s1.bVals u bs st o.b)
          let (s1, ws) := s1.advanceUnit u 1
          let s1 := s1.holdOr u q i (st.hold && !ws.contains st.holdCtr)
          match o.b with
          | none => some ([], s1)
          | some (bq, _) => some ([], s1.consume u bq)

/-- A firing of stage 0. -/
def State.fireStage0 (s : State) (u : Nat) (err : Bool) (parity : Option (Fin 1024)) : State := s.attempt (s.fireTry u err parity)

/-! Emissions -/

/-- Send the piece of an emission to the digest engine for every tap that it belongs to (R356-R358), and number the
emission. -/
def State.tapEmission (s : State) (u ctx stage : Nat) (vals : List Int) (bad : Bool) : State :=
  let v := s.unit u
  let n := tget (fun _ => 0) v.emits (4 * ctx + stage)
  let ds := s.image.taps.filter (fun d => d.tag == v.tag && d.ctx == ctx && d.unit == s.homeOf u && d.stage == stage && n < d.count)
  let ps := ds.map (fun d =>
    { ev := v.ev, tap := d.tap, first := d.first + n * d.lanes
      vals := if bad then [] else (vals.take d.lanes).map (fun x => BitVec.ofNat 32 (unsigned 32 x)), bad := bad : Piece })
  let s := s.setUnit u { v with emits := tset (fun _ => 0) v.emits (4 * ctx + stage) (n + 1) }
  { s with trellis := { s.trellis with pieces := s.trellis.pieces ++ ps } }

/-- Send the output tokens of a stage 3 emission (R149, R163), or ERROR tokens in their place (R187). -/
def State.emitOut (s : State) (u : Nat) (rs : List RouteCfg) (wide : Bool) (vals : List Int) : State :=
  let v := s.unit u
  if v.subst then
    let e := s.errToken u v.fold false
    (List.range (if wide then 2 else 1)).foldl (fun s _ => s.sendData u rs e) s
  else (outLanes wide vals).foldl (fun s ls => s.sendData u rs ⟨0, v.tag, v.fold, 0, ls, v.ev⟩) s

/-- Stage `j` passes its accumulators on and clears them (R155, R161, R162, R169): the next stage fires, or tokens leave;
none when an operand of the next stage is not there. `l`: the outermost counters at their limit, for a fault (R190). -/
def State.emit (s : State) (u i : Nat) (rs : List RouteCfg) (parity : Option (Fin 1024)) (l : List (Ctr × Nat)) (j : Nat) : Option State :=
  let bs := s.slotBytes u i
  let h := readHeader bs
  let st := readStage bs (0x40 + 16 * j)
  let l := l ++ (if j = 3 then s.atLimit u 0 3 else [])
  let s := s.parityAt u parity st.emitsByte j l
  let v := s.unit u
  let (vals, ovf) := emitStage st (v.accOf j) (readLanes bs 0xC0)
  let s := s.setUnit u { v with acc := tset (fun _ => []) v.acc j [] }
  let s := s.when (ovf && !v.subst) (fun s => s.noteOvf u)
  let s := s.tapEmission u h.ctx j vals v.subst
  if j = 3 then
    let (s, ws) := (s.emitOut u rs h.outWide vals).advanceUnit u 3
    let st0 := readStage bs 0x40
    some (s.when (v.holding && ws.contains st0.holdCtr) (fun s => s.holdOr u h.primary i false))
  else
    let nx := readStage bs (0x40 + 16 * (j + 1))
    (s.bToken u nx 8 0).map (fun b =>
      let s := s.when (b.elim false (fun x => (x.2.tag, x.2.ctx) != v.want)) (fun s => s.faultAt u 3 4 (j + 1) l)
      let s := s.parityAt u parity nx.firesByte (j + 1) l
      let s := match b with
        | some (_, t) => if t.errData then s.takeError u t else s
        | none => s
      let s := if (s.unit u).subst then s else s.fire u i (j + 1) vals (s.bVals u bs nx b)
      match b with
      | none => s
      | some (q, _) => s.consume u q)

/-- The outermost counter of the chain of counter `k`, whose wrap is carried out, if it stood at its limit at the firing (R190): it has wrapped
too, or it did not advance and stands there. -/
def State.wrapLimit (s : State) (u k : Nat) : List (Ctr × Nat) :=
  let (cs, vals) := s.chain u 0
  let o := k + ((cs.drop (k + 1)).takeWhile (fun c => c.source == 2)).length
  let c := cs.getD o offCtr
  let ws := (s.unit u).wraps
  if ws.contains o || (!ws.contains (o - 1) && vals.getD o 0 == c.limit) then [(c, o)] else []

/-- The actions of a wrap of a compute unit (R155, R168): emissions of the mask from stage 0 on, then the wrap_token. -/
def State.wrapCu (s : State) (u i k : Nat) (parity : Option (Fin 1024)) : Option State :=
  let bs := s.slotBytes u i
  let c := readCtr bs (0x20 + 8 * k)
  let rs := readRoutes bs
  let l := s.wrapLimit u k
  let v := s.unit u
  let s := s.setUnit u { v with wraps := v.wraps.drop 1, since := if c.mask = 0 then v.since else s.time.spool }
  (([0, 1, 2, 3].filter (nbit c.mask)).foldl (fun (x : Option State) j => x.bind (fun s => s.emit u i rs parity l j)) (some s)).map
    (fun s => (if c.token = 1 then s.sendWrapToken u k rs else s).takeSteps u)

/-- The actions of a wrap of a generator (R143, R155, R311): the wrap_token; at the final wrap the pass ends, which triggers the
other generator, releases a held read (R179) and the zones of the generator. -/
def State.wrapMu (s : State) (u g : Nat) : State :=
  let v := s.unit u
  let x := v.gen g
  let bs := s.slotBytes u x.slot
  let a := readGen bs g
  let k := x.wraps.headD 0
  let c := a.ctrs.getD k ⟨0, 0, false, 0, 0, 0⟩
  let last := k + 1 == a.active.length
  let s := s.setUnit u (v.setGen g { x with wraps := x.wraps.drop 1, active := !last && x.active, ended := last || x.ended })
  let s := if c.token = 1 then s.sendWrapToken u (4 * g + k) (readRoutes bs) else s
  if !last then s.takeSteps u
  else
    let o := readGen bs (1 - g)
    let w := s.unit u
    let y := { w.gen (1 - g) with held := false }
    let y := if o.used && o.trigger == 1 then { y with trig := y.trig ++ [(x.tag, x.ctx)] } else y
    ((s.setUnit u (w.setGen (1 - g) y)).passReleases u g v.ev).takeSteps u

/-- COUNTER_WRAP (R155): the first counter whose wrap is due carries out its actions, when its operands are there and its
tokens fit. -/
def State.wrapTry (s : State) (u : Nat) (parity : Option (Fin 1024)) : Try :=
  let v := s.unit u
  if isMu u then
    ([0, 1].find? (fun g => !(v.gen g).wraps.isEmpty)).map (fun g => (readRoutes (s.slotBytes u (v.gen g).slot), s.wrapMu u g))
  else match v.slot, v.wraps with
    | some i, k :: _ => (s.wrapCu u i k parity).map (fun t => (readRoutes (s.slotBytes u i), t))
    | _, _ => none

/-- A wrap's actions. -/
def State.counterWrap (s : State) (u : Nat) (parity : Option (Fin 1024)) : State := s.attempt (s.wrapTry u parity)

end Sys2Proof.Machine
end

