-- ==== Sys2Proof/Machine/Survey.lean ====
section
/-!
DEFINITION. Survey rounds and the topology table (R278-R285, R296, R297). What management messages say stands as data (log 24).
-/
namespace Sys2Proof.Machine

/-- The change counters of the six ports. -/
def State.portChanges (s : State) : List Nat := [0, 1, 2, 3, 4, 5].map (fun p => s.fld (F.TTH_PORT_STATE.changes p))

/-- The change counter of a package: their 16-bit sum (R279). -/
def State.changeSum (s : State) : Nat := (s.portChanges.foldl (fun a b => a + b) 0) % 65536

/-- The UP mask of the own ports. -/
def State.upMask (s : State) : Nat := [0, 1, 2, 3, 4, 5].foldl (fun m p => if s.portUp p then m + 2 ^ p else m) 0

/-- Words 0-5 of this package's own topology entry (R279, R285). -/
def State.ownEntry (s : State) : List Word :=
  [packWord [(3, 0), (b2n (s.fld F.COL_PORT_MISWIRE.mask != 0), 2), (s.upMask, 3), (s.fld F.HUB_FW_VER.major, 16),
      (s.fld F.HUB_FW_VER.minor, 24)],
    BitVec.ofNat 32 s.fuses.serial.toNat, BitVec.ofNat 32 (s.fuses.serial.toNat / 2 ^ 32), s.reg Reg.HUB_IMG_ID, BitVec.ofNat 32 (s.fld F.DET_DMAP_DIGEST.digest),
    packWord [(s.changeSum, 0), (s.fld F.HUB_FW_VER.patch, 16)]]

/-- The IDs that a round asks: every one inside the extents but its own. -/
def State.asked (s : State) : List Nat := (List.range 512).filter (fun i => s.inExtent i && i != s.self)

/-- The walk reply of a package. -/
def State.walkReply (s : State) (id : Nat) : Option (List Word) := tget (fun _ => none) s.survey.replies id

/-- The packages that replied in the walk. -/
def State.replied (s : State) : List Nat := s.asked.filter (fun i => (s.walkReply i).isSome)

/-- Start a round: the next generation, in Settle (R278). -/
def State.startRound (s : State) : State :=
  let s := (s.wrapInc F.COL_SURVEY_STAT.gen).raise F.COL_SURVEY_STAT.running
  { s with survey := { s.survey with phase := 1, replies := [], confirms := [], changes := [] } }

/-- A sequence begins with no abandoned round behind it. -/
def State.startSequence (s : State) : State := (s.setFld F.COL_SURVEY_STAT.unstable_run 0).startRound

/-- SURVEY: it starts a sequence, or joins an automatic one (R282, R283). -/
def execSurvey (q : Fin 16) (s : State) : Res :=
  done (s.command 0x18 q (fun _ => [lifeSafe, lifeLoaded, lifeArmed, lifeLive, lifeDraining, lifeReplay]) (fun c s =>
    if c.sub != 0 then s.finish c.id stParam []
    else if !s.survey.cmds.isEmpty then s.finish c.id stBusy []
    else
      let s : State := { s with survey := { s.survey with cmds := [c.id] } }
      let s := if s.survey.phase = 0 then s.startSequence else s
      s.wait c.id))

/-- SURVEY_HOLDOFF_END: the hold-off after the last port change is over (R283); in BOOT and FAULT no sequence starts. A SURVEY of the
meantime leaves the hold-off as it is: while its sequence runs, the automatic one waits. -/
def execSurveyHoldoffEnd (s : State) : Res :=
  done (if !s.survey.holdoff || s.survey.phase != 0 then s
  else
    let t : State := { s with survey := { s.survey with holdoff := false } }
    if !s.up || s.life == lifeBoot || s.life == lifeFault then t else t.startSequence)

/-- SURVEY_SETTLE_END: the walk asks every package (R278). -/
def execSurveySettleEnd (s : State) : Res :=
  done (if s.survey.phase != 1 then s
  else
    let s : State := { s with survey := { s.survey with phase := 2, changes := s.portChanges } }
    s.asked.foldl (fun s i => s.sendMgmt i .identityRequest) s)

/-- IDENTITY_REQUEST: answered with the own entry, or with the change counter (R279). -/
def execIdentityRequest (source : Fin 512) (change : Bool) (s : State) : Res :=
  done (if !s.up then s else (s.takeMgmt source).sendMgmt source (if change then .changeReply s.changeSum else .identityReply s.ownEntry))

/-- IDENTITY_REPLY: the words of a walk reply, or the change counter that a confirm re-read brought. -/
def execIdentityReply (source : Fin 512) (confirm : Bool) (words : List Word) (s : State) : Res :=
  let s := s.takeMgmt source
  done (if !s.asked.contains source.val then s
  else if s.survey.phase = 2 && !confirm then
    { s with survey := { s.survey with replies := tset (fun _ => none) s.survey.replies source (some words) } }
  else if s.survey.phase = 3 && confirm && (s.walkReply source).isSome then
    { s with survey := { s.survey with confirms := tset (fun _ => none) s.survey.confirms source (some (bits (words.headD 0).toNat 0 16)) } }
  else s)

/-- SURVEY_WALK_END: the change counter of every package that replied is read again (R278). -/
def execSurveyWalkEnd (s : State) : Res :=
  done (if s.survey.phase != 2 then s
  else
    let s : State := { s with survey := { s.survey with phase := 3 } }
    s.replied.foldl (fun s i => s.sendMgmt i .changeRequest) s)

/-- Is the round unstable (R280)? -/
def State.unstable (s : State) : Bool :=
  s.portChanges != s.survey.changes || s.replied.any (fun i =>
    tget (fun _ => none) s.survey.confirms i != some (bits (((s.walkReply i).getD []).getD 5 0).toNat 0 16))

/-! The published table (R281, R285) -/

/-- Word 0 of a package in this round, without reachable and hops. -/
def State.surveyWord (s : State) (id : Nat) : Nat :=
  if id = s.self then (s.ownEntry.headD 0).toNat else ((s.walkReply id).elim 0 (fun ws => (ws.headD 0).toNat))

/-- May a hop leave a package on a port: both ends UP; the own miswired ports are known (R285, log 49)? -/
def State.surveyLink (s : State) (id p : Nat) : Bool :=
  let far := s.neighbour id p
  nbit (s.surveyWord id) (3 + p) && nbit (s.surveyWord far) (3 + (if p % 2 = 0 then p + 1 else p - 1)) &&
    !(id == s.self && s.miswired p)

/-- Hop counts of the packages reached, by rounds of one hop more. -/
def State.hopCounts (s : State) : Nat → Nat → List (Nat × Nat) → List (Nat × Nat)
  | 0, _, l => l
  | fuel + 1, d, l =>
    let edge := (l.filter (fun e => e.2 == d)).flatMap (fun e =>
      ([0, 1, 2, 3, 4, 5].filter (s.surveyLink e.1)).map (fun p => s.neighbour e.1 p))
    let new := (distinct edge).filter (fun i => !l.any (fun e => e.1 == i))
    if new.isEmpty then l else s.hopCounts fuel (d + 1) (l ++ new.map (fun i => (i, d + 1)))

/-- The entry of a package: it replied, or all words are 0. -/
def State.topoEntry (s : State) (hops : List (Nat × Nat)) (id : Nat) : List Word :=
  let ws : Option (List Word) := if id = s.self then some s.ownEntry else s.walkReply id
  match ws with
  | none => List.replicate 8 0
  | some ws =>
    let h := (hops.find? (fun e => e.1 == id)).map (fun e => e.2)
    let w := (ws.headD 0).toNat
    packWord [(1, 0), (b2n h.isSome, 1), (bits w 2 7, 2), (h.getD 0 % 16, 12), (bits w 16 16, 16)] ::
      ((ws.drop 1).take 4 ++ [BitVec.ofNat 32 (bits (ws.getD 5 0).toNat 0 24), BitVec.ofNat 32 (s.fld F.COL_SURVEY_STAT.gen), 0])

/-- Publish the round (R281). -/
def State.publish (s : State) : State :=
  let hops := s.hopCounts 512 0 [(s.self, 0)]
  let ids := (List.range 512).filter (fun i => i == s.self || s.replied.contains i)
  let table := (List.range 512).map (fun i => (i, if ids.contains i then s.topoEntry hops i else List.replicate 8 0))
  let reach := ids.filter (fun i => hops.any (fun e => e.1 == i))
  let s := table.foldl (fun s e => s.setRegs (Reg.COL_TOPO e.1 0) e.2) s
  let s := (s.setFld F.COL_TOPO_COUNT.present ids.length).setFld F.COL_TOPO_COUNT.reachable reach.length
  ((s.setFld F.COL_TOPO_GEN.gen (s.fld F.COL_SURVEY_STAT.gen)).raise F.COL_TOPO_GEN.valid).raise F.COL_SURVEY_STAT.published

/-- The result words of SURVEY. -/
def State.surveyWords (s : State) : List Word :=
  [BitVec.ofNat 32 (s.fld F.COL_SURVEY_STAT.gen), BitVec.ofNat 32 (s.fld F.COL_TOPO_COUNT.present),
    BitVec.ofNat 32 (s.fld F.COL_TOPO_COUNT.reachable), BitVec.ofNat 32 (s.fld F.COL_SURVEY_STAT.unstable_run)]

/-- Has the command of the sequence been cancelled (R461)? One that a PCIe reset has taken out of the table has been, too (R523). -/
def State.surveyCancelled (s : State) : Bool := s.survey.cmds.any (fun i => (s.cmd i).elim true (fun c => c.cancelled))

/-- The sequence ends and its command completes; a cancelled one with ST_ABORTED. -/
def State.endSequence (s : State) (status : Nat) : State :=
  let cmds := s.survey.cmds
  let s := s.lower F.COL_SURVEY_STAT.running
  let s : State := { s with survey := { s.survey with phase := 0, replies := [], confirms := [], changes := [], cmds := [] } }
  cmds.foldl (fun s i =>
    if (s.cmd i).any (fun c => c.cancelled) then s.finish i stAborted s.surveyWords else s.finish i status s.surveyWords) s

/-- SURVEY_CONFIRM_END: a stable round is published; after an unstable one the next begins, or the sequence ends after 8 or at a
cancel (R280, R282, R461). -/
def execSurveyConfirmEnd (s : State) : Res :=
  done (if s.survey.phase != 3 then s
  else if !s.unstable then (s.publish.setFld F.COL_SURVEY_STAT.unstable_run 0).endSequence stOk
  else
    let s := s.satInc F.COL_SURVEY_STAT.unstable_run
    if 8 ≤ s.fld F.COL_SURVEY_STAT.unstable_run then (s.raise F.COL_SURVEY_STAT.unstable).endSequence stSurveyUnstable
    else if s.surveyCancelled then s.endSequence stAborted
    else s.startRound)

end Sys2Proof.Machine
end

