-- ==== Sys2Proof/Machine/Groups.lean ====
section
/-!
DEFINITION. Groups: FORM_GROUP and the roll call (R289-R294, R298-R301), RETIRE_GROUP (R295) and grafts (R342-R344, R349).
-/
namespace Sys2Proof.Machine

/-- The packages of a roll call: the members, or the survivors of a graft (R343). -/
def State.party (s : State) (g : Nat) : List Nat := match (s.group g).graft with
  | some x => bitmapIds x.bitmap
  | none => s.members g

/-- The caller: the lowest of them (R291, R343). -/
def State.callerOf (s : State) (g : Nat) : Nat := (s.party g).headD 0

/-- Does a roll call of the group run here, without an outcome? -/
def State.calling (s : State) (g : Nat) : Bool :=
  s.fld (brState g) == grForming ||
    (s.fld (brState g) == grGrafting && (s.group g).graft.elim false (fun x => x.ok.isNone))

/-- The result words of FORM_GROUP and GRAFT_GROUP. -/
def State.groupWords (s : State) (g field member ce : Nat) (orbit : Option Nat) : List Word :=
  [packWord [(field, 0), (member, 16)], BitVec.ofNat 32 (s.fld (brEpoch g)), BitVec.ofNat 32 (s.fld (brVc g)), BitVec.ofNat 32 ce] ++
    orbit.toList.map (BitVec.ofNat 32)

/-- The entry digest of a record: over the variant's bitmap in a graft (R286, R343). -/
def State.rollDigest (s : State) (g : Nat) : Nat := match (s.group g).graft with
  | some x => (crc32c (x.bitmap ++ [BitVec.ofNat 8 (s.fld (brTrace g))])).toNat
  | none => s.fld (brDigest g)

/-- This package's record (R291). -/
def State.ownRecord (s : State) (g : Nat) : Record where
  image := (s.reg Reg.HUB_IMG_ID).toNat
  fw := 256 * s.fld F.HUB_FW_VER.major + s.fld F.HUB_FW_VER.minor
  stamp := s.time.spool
  entry := s.rollDigest g
  dmap := s.fld F.DET_DMAP_DIGEST.digest
  epoch := s.fld (brEpoch g)
  arrival := s.time.spool

/-- Keep a record, in place of an older one of the same member. -/
def State.keepRecord (s : State) (g id : Nat) (r : Record) : State :=
  let v := s.group g
  s.setGroup g { v with records := tset (fun _ => none) v.records id (some r) }

/-- The record of a member. -/
def State.recordOf (s : State) (g id : Nat) : Option Record := tget (fun _ => none) (s.group g).records id

/-! Outcomes (R293) -/

/-- A roll call has failed: the entry returns to the state before it; one that was RETIRED lets go of its channel (R289). -/
def State.failGroup (s : State) (g status field member : Nat) : State :=
  let v := s.group g
  match v.graft with
  | some x =>
    let ws := s.groupWords g field member 0 (some x.orbit)
    let s := ((s.setGroup g { v with graft := none, cmd := 0, records := [] }).setGroupState g grAborted).lower
      F.COL_GRAFT_STAT.pending
    s.finish v.cmd status ws
  | none =>
    let ws := s.groupWords g field member 0 none
    let s := (s.setGroup g { v with cmd := 0, records := [] }).setGroupState g v.prior
    let s := s.when (v.prior == grRetired) (fun s => s.releaseVc g)
    s.finish v.cmd status ws

/-- Has orbit `o` begun? A boundary already taken at the last tick has not. -/
def State.orbitBegun (s : State) (o : Nat) : Bool :=
  if s.time.boundaryDone then o < s.time.orbit else o ≤ s.time.orbit

/-- An OK outcome: READY under the new epoch (R289); a graft holds it for its orbit, or comes too late (R343, R344). -/
def State.formGroup (s : State) (g epoch : Nat) : State :=
  let v := s.group g
  match v.graft with
  | none =>
    let s := (s.setGroup g { v with cmd := 0, records := [] }).makeReady g epoch
    s.finish v.cmd stOk (s.groupWords g 0 0 0 none)
  | some x =>
    if s.orbitBegun x.orbit then
      (s.failGroup g stAborted 0 0).originate g 0 ceRollcall 7 s.time.spool
    else s.setGroup g { v with graft := some { x with ok := some epoch }, records := [] }

/-- Apply an outcome: 0 OK, 1 MISMATCH, 2 TIMEOUT. -/
def State.applyOutcome (s : State) (g kind field member epoch : Nat) : State :=
  if kind = 0 then s.formGroup g epoch
  else if kind = 1 then s.failGroup g stGroupMismatch field member
  else s.failGroup g stGroupTimeout 0 member

/-- The caller sends its outcome to every member and applies it (R293). -/
def State.sendOutcome (s : State) (g kind field member epoch : Nat) : State :=
  let far := (s.party g).filter (fun m => m != s.self)
  let s := s.setGroup g { s.group g with sentOutcome := true }
  let s := far.foldl (fun s m => s.sendMgmt m (.outcome g kind field member epoch)) s
  s.applyOutcome g kind field member epoch

/-- Does field `f` of a member's record disagree with the caller's (R292, R300)? -/
def recordDiffers (f : Nat) (trace : Bool) (own r : Record) : Bool := match f with
  | 1 => r.image != own.image
  | 2 => r.fw != own.fw
  | 3 =>
    let due := r.stamp + r.path
    4 < max r.arrival due - min r.arrival due
  | 4 => r.entry != own.entry
  | _ => trace && r.dmap != own.dmap

/-- The first field that differs, and the first member in which it does (R292). -/
def State.disagreement (s : State) (g : Nat) : Option (Nat × Nat) :=
  match s.recordOf g s.self with
  | none => none
  | some own =>
    let rs := (s.party g).filterMap (fun m => (s.recordOf g m).map (fun r => (m, r)))
    ([1, 2, 3, 4, 5].flatMap (fun f =>
      (rs.filter (fun e => recordDiffers f (s.bit (brTrace g)) own e.2)).map (fun e => (f, e.1)))).head?

/-- Crossings from the current one to the begin of orbit `o`: the rest of this orbit, the next one as a pending length and an off-period marker
leave it (R35, R42), and the whole ones between. -/
def State.crossingsTo (s : State) (o : Nat) : Int :=
  let c := s.counter
  let rest := Int.ofNat c.len - Int.ofNat c.crossing + Int.ofNat (b2n s.time.boundaryDone)
  let n := Int.ofNat o - Int.ofNat s.time.orbit
  if n ≤ 0 then 0
  else if n = 1 then rest
  else rest + Int.ofNat c.nextLen - Int.ofNat c.reload + (n - 2) * Int.ofNat c.nextLen

/-- Does the orbit of a graft leave the margin (R343)? -/
def State.graftMargin (s : State) (g : Nat) : Bool :=
  (s.group g).graft.elim true (fun x => Int.ofNat (s.fld F.COL_GRAFT_CFG.margin_x) ≤ s.crossingsTo x.orbit)

/-- The caller acts once it holds a record of every member (R293). -/
def State.judgeRoll (s : State) (g : Nat) : State :=
  if s.callerOf g != s.self || !s.calling g || (s.group g).sentOutcome || !(s.party g).all (fun m => (s.recordOf g m).isSome) then s
  else match s.disagreement g with
    | some (f, m) => s.sendOutcome g 1 f m 0
    | none =>
      if !s.graftMargin g then s.sendOutcome g 2 0 s.self 0
      else
        let top := (s.party g).foldl (fun n m => max n ((s.recordOf g m).elim 0 (fun r => r.epoch))) 0
        s.sendOutcome g 0 0 0 ((top + 1) % 65536)

/-- Start the roll call: the record goes to the caller (R291). -/
def State.startRoll (s : State) (g : Nat) : State :=
  let r := s.ownRecord g
  if s.callerOf g = s.self then (s.keepRecord g s.self r).judgeRoll g
  else s.sendMgmt (s.callerOf g) (.rollCall g r.image r.fw r.stamp r.entry r.dmap r.epoch)

/-- Forget the aborts held for a group: its ordinals begin anew. -/
def State.dropHeldAborts (s : State) (g : Nat) : State :=
  { s with coll := { s.coll with heldAborts := s.coll.heldAborts.filter (fun e => e.1 != g) } }

/-- A channel of the group's own: the one that it holds, its transit hold, or the lowest free one (R288, R340). -/
def State.takeVc (s : State) (g : Nat) : Option (Nat × State) :=
  match (s.vcOf g).or s.freeVc with
  | none => none
  | some v => some (v, (((s.holdVc g v).raise (brHeld g)).setFld (brVc g) v).setMapBit F.COL_TRANSIT_MAP.transit v false)

/-- The published word 0 of a package. -/
def State.topoWord (s : State) (id : Nat) : Nat := s.fld (F.COL_TOPO.word id 0)

/-- FORM_GROUP (R290, R291, R294, R298, R301). -/
def execFormGroup (q : Fin 16) (s : State) : Res :=
  done (s.command 0x19 q (fun _ => [lifeLoaded, lifeArmed, lifeLive, lifeReplay]) (fun c s =>
    let g := bits (c.w 0) 0 6
    let st := s.fld (brState g)
    if c.sub != 0 || !c.only [0x3F, 0xFFFF, 0] || c.w 1 == 0 then s.finish c.id stParam []
    else if st != grRetired && st != grAborted then s.finish c.id stState (s.groupWords g 0 0 0 none)
    else if !s.isMember g then s.finish c.id stParam (s.groupWords g 0 0 0 none)
    else match s.takeVc g with
      | none => s.finish c.id stBusy (s.groupWords g 0 0 ceVcExhausted none)
      | some (_, t) =>
        match (s.members g).find? (fun m => s.topoWord m % 4 != 3) with
        | some m => s.finish c.id stGroupTimeout (s.groupWords g 0 m 0 none)
        | none =>
          let v := t.group g
          let s := (t.setGroup g { v with prior := st, cmd := c.id, sentOutcome := false, graft := none }).setGroupState g grForming
          ((s.dropHeldAborts g).wait c.id).startRoll g))

/-- ROLL_CALL_RECORD: kept, and judged where its roll call runs (R291-R293, R299). `path`: the sum of TTH_PORT_HOP along the
route (log 32). -/
def execRollCallRecord (source : Fin 512) (g : Fin 64) (image fw stamp entry dmap epoch path : Nat) (s : State) : Res :=
  done (if !s.up then s
  else ((s.takeMgmt source).keepRecord g source ⟨image, fw, stamp, entry, dmap, epoch, s.time.spool, path⟩).judgeRoll g)

/-- ROLL_CALL_TIMEOUT: the caller names the lowest member whose record is missing (R293). -/
def execRollCallTimeout (g : Fin 64) (s : State) : Res :=
  done (if s.callerOf g != s.self || !s.calling g || (s.group g).sentOutcome then s
  else match (s.party g).find? (fun m => (s.recordOf g m).isNone) with
    | none => s
    | some m => s.sendOutcome g 2 0 m 0)

/-- ROLL_CALL_OUTCOME: a member applies what the caller says (R293, R344). -/
def execRollCallOutcome (g : Fin 64) (kind : Fin 3) (field : Fin 6) (member : Fin 512) (epoch : BitVec 16) (s : State) : Res :=
  let s := s.takeMgmt (s.callerOf g)
  done (if s.callerOf g == s.self || !s.calling g then s else s.applyOutcome g kind field member epoch.toNat)

/-- FORM_GROUP_TIMEOUT: a member without an outcome names the caller (R293). -/
def execFormGroupTimeout (g : Fin 64) (s : State) : Res :=
  done (if s.callerOf g == s.self || !s.calling g then s else s.failGroup g stGroupTimeout 0 (s.callerOf g))

/-- Does a menu in use reference the group? -/
def State.groupInUse (s : State) (g : Nat) : Bool :=
  (List.range 8).any (fun t => s.tagInUse t && (s.entriesOf t).any (fun k => (s.schedCfg k).group == g))

/-- RETIRE_GROUP (R295, R348). -/
def execRetireGroup (q : Fin 16) (s : State) : Res :=
  done (s.command 0x1B q (fun _ => [lifeLoaded, lifeArmed, lifeLive, lifeDraining, lifeReplay, lifeFault]) (fun c s =>
    let g := bits (c.w 0) 0 6
    let st := s.fld (brState g)
    if c.sub != 0 || !c.only [0x3F] then s.finish c.id stParam []
    else if s.coll.runs.any (fun r => r.group == g && r.open) then s.finish c.id stBusy []
    else if (st != grReady && st != grAborted) || (s.life == lifeLive && s.groupInUse g) then s.finish c.id stState []
    else ((s.setGroupState g grRetired).releaseVc g).finish c.id stOk []))

/-- The variant of a group without a member (R341). -/
def State.variant (s : State) (g f : Nat) : Option Variant := s.image.variants.find? (fun v => v.group == g && v.omitted == f)

/-- May the variant's menu be switched to: resident and fit (R342)? -/
def State.variantFits (s : State) (v : Variant) : Bool :=
  v.menu == 0xFF || s.image.menus.any (fun m => m.number == v.menu && s.isResident m && !s.menuUnfit m)

/-- GRAFT_GROUP (R342, R343). -/
def execGraftGroup (q : Fin 16) (s : State) : Res :=
  done (s.command 0x1A q (fun _ => [lifeLoaded, lifeArmed, lifeLive]) (fun c s =>
    let g := bits (c.w 0) 0 6
    let f := bits (c.w 0) 16 9
    let o := c.w 1
    let stop (status : Nat) : State := s.finish c.id status (s.groupWords g 0 0 0 (some o))
    if c.sub != 0 || !c.only [0x01FF003F, full, 0xFFFF] || c.w 2 == 0 then stop stParam
    else if s.fld (brState g) != grAborted || !(s.variant g f).elim true s.variantFits then stop stState
    else if !(s.members g).contains f || f == s.self || o ≤ s.time.orbit + 1 then stop stParam
    else if s.switchPending || (List.range 64).any (fun k => s.fld (brState k) == grGrafting) then stop stBusy
    else match s.variant g f with
      | none => stop stNoGraft
      | some x =>
        let v := s.group g
        let s := (s.setGroup g { v with cmd := c.id, sentOutcome := false, graft := some ⟨x.bitmap, f, x.menu, o, none⟩ }).setGroupState g grGrafting
        let s := ((s.setFld F.COL_GRAFT_STAT.group g).setFld F.COL_GRAFT_STAT.omitted f).raise F.COL_GRAFT_STAT.pending
        (((s.setFld F.COL_GRAFT_STAT.orbit o).dropHeldAborts g).wait c.id).startRoll g))

/-- The graft that holds OK and whose orbit begins with the next tick, or has begun. -/
def State.dueGraft (s : State) : Option (Nat × Graft × Nat) :=
  (List.range 64).findSome? (fun g => match (s.group g).graft with
    | some x => if s.orbitBegun x.orbit || (s.nextTick % 32 == 0 && x.orbit ≤ s.nextId.1) then x.ok.map (fun e => (g, x, e)) else none
    | none => none)

/-- At its orbit: the new bitmap and rings, READY under the new epoch, the switch of the menu, ST_OK (R344). -/
def State.applyGraft (s : State) (g : Nat) (x : Graft) (epoch : Nat) : State :=
  let v := s.group g
  let s := ((s.setBitmap g x.bitmap).deriveRings g).setGroup g { v with graft := none, cmd := 0 }
  let s := (s.makeReady g epoch).lower F.COL_GRAFT_STAT.pending
  let s := match s.image.menus.find? (fun m => m.number == x.menu) with
    | some m => (s.setWide Reg.HUB_MENU_SWITCH_LO (s.nextTick / 32)).runSwitch ⟨s.nextTick / 32, 0, .selectMenu m.tag⟩ m.tag
    | none => s
  (s.finish v.cmd stOk (s.groupWords g 0 0 0 (some x.orbit))).raise F.COL_ABORT_EVT.graft

/-- GRAFT_APPLY -/
def execGraftApply (s : State) : Res := done (match s.dueGraft with
  | some (g, x, e) => s.applyGraft g x e
  | none => s)

end Sys2Proof.Machine
end

