-- ==== Sys2Proof/Machine/Lifecycle.lean ====
section
/-!
DEFINITION. ARM, START_LIVE and DRAIN (R27, R445-R447), IDENTIFY, and effects named for a crossing in order of acceptance (R458).
-/
namespace Sys2Proof.Machine

/-- The first crossing C with 32C ≥ the spool count + 64. -/
def State.firstFar (s : State) : Nat := (s.time.spool + 64 + 31) / 32

/-- IDENTIFY -/
def execIdentify (q : Fin 16) (s : State) : Res :=
  done (s.command 0x01 q (fun _ => anyLife) (fun c s =>
    if c.sub != 0 then s.finish c.id stParam []
    else s.finish c.id stOk ([Reg.HUB_ID, Reg.HUB_REV, Reg.HUB_FW_VER, Reg.HUB_SERIAL_LO, Reg.HUB_SERIAL_HI, Reg.HUB_IMG_ID].map s.view)))

/-- Does a resident menu's deadline come sooner than its claimed latency at the measured MCLK (R58)? -/
def State.tooFast (s : State) : Bool :=
  (s.image.menus.filter s.isResident).any (fun m => m.dlat * 1000000 < m.claimed * s.fld F.TIM_MCLK_FREQ.khz)

/-- ARM -/
def execArm (q : Fin 16) (s : State) : Res :=
  done (s.command 0x10 q (fun _ => [lifeLoaded]) (fun c s =>
    if c.sub != 0 then s.finish c.id stParam [s.reg Reg.HUB_STATE]
    else if !s.bit F.TIM_STATUS.pll_lock then s.finish c.id stState [s.reg Reg.HUB_STATE]
    else if s.tooFast || s.bit F.HUB_IMG_STAT.unfit then s.finish c.id stImageFit [s.reg Reg.HUB_STATE]
    else
      let s := s.enter lifeArmed
      s.finish c.id stOk [s.reg Reg.HUB_STATE]))

/-- START_LIVE: it completes at tick 0 of its crossing. -/
def execStartLive (q : Fin 16) (s : State) : Res :=
  done (s.command 0x11 q (fun _ => [lifeArmed]) (fun c s =>
    if c.sub != 0 then s.finish c.id stParam []
    else if s.bit F.TIM_STATUS.launch_pending then s.finish c.id stBusy []
    else if s.bit F.HUB_IMG_STAT.unfit then s.finish c.id stImageFit []
    else s.addEffect ⟨s.firstFar, c.id, .startLive⟩))

/-- A due START_LIVE takes effect. -/
def State.runStart (s : State) (e : Effect) : State :=
  if s.life != lifeArmed then s.finish e.cmd stAborted []
  else (s.enterLive e.cmd).finish e.cmd stOk (loHi e.crossing)

/-- LIVE_START -/
def execLiveStart (s : State) : Res := done (if !s.counts then s else match s.takeDue EffectKind.isStart with
  | some (e, s) => s.noting (fun s => s.runStart e)
  | none => s)

/-- DRAIN outside LIVE completes with ST_OK; the spec states no D as applied there. -/
def State.drained (s : State) (c : Cmd) : State := s.takeFree.2.finish c.id stOk (loHi s.takeFree.1.toNat)

/-- DRAIN -/
def execDrain (q : Fin 16) (s : State) : Res :=
  done (s.command 0x12 q (fun _ => [lifeArmed, lifeLive, lifeReplay]) (fun c s =>
    let x := if c.w64 0 = 0 then s.firstFar else c.w64 0
    if c.sub != 0 then s.finish c.id stParam []
    else if s.life = lifeReplay then s.drainReplay.drained c
    else if s.life = lifeArmed then ((s.overtake 0).dropGraftSwitch.enter lifeLoaded).drained c
    else if !s.farEnough x then s.finish c.id stParam []
    else ((s.setCmd { c with progress := x, stage := .waiting }).addEffect ⟨x, c.id, .drain (c.w64 0 != 0)⟩).resume))

/-- A due DRAIN takes effect (R27, R224): a menu switch that is still pending ends. -/
def State.runDrain (s : State) (e : Effect) : State :=
  if s.life = lifeLive then
    let gone := s.effects.filter (fun x => isSelectMenu x.kind)
    let s : State := { s with effects := s.effects.filter (fun x => !isSelectMenu x.kind) }
    let s := gone.foldl (fun s x => s.finish x.cmd stAborted []) s.dropSwitch.dropGraftSwitch
    (s.enter lifeDraining).drainDone
  else if s.life = lifeDraining then s
  else s.finish e.cmd stOk (loHi e.crossing)

/-- DRAIN_APPLY -/
def execDrainApply (s : State) : Res := done (match s.takeDue isDrain with
  | some (e, s) => s.noting (fun s => s.runDrain e)
  | none => s)

/-- A due CAPTURE_ARM sub-op 2 takes effect (R450): the capture is FROZEN, with no post-trigger period. -/
def State.runDisarm (s : State) (e : Effect) : State :=
  if s.capState != capRunning then s.finish e.cmd stOk [s.reg Reg.CFM_CAP_STAT]
  else
    let s := (s.setWide Reg.CFM_CAP_TRIG_X_LO (s.capture.newest.getD 0)).freeze
    s.finish e.cmd stOk [s.reg Reg.CFM_CAP_STAT]

/-- Carry out one effect whose crossing has come. -/
def State.runEffect (s : State) (e : Effect) : State := match e.kind with
  | .setScales es => s.runScales e es
  | .writeControl ps => s.runWrites e ps
  | .selectMenu t => s.noting (fun s => s.runSwitch e t)
  | .drain _ => s.noting (fun s => s.runDrain e)
  | .startLive => s.noting (fun s => s.runStart e)
  | .qstats first n clear _ => s.runQstats e first n clear
  | .disarm => s.noting (fun s => s.runDisarm e)

/-- Carry out every due effect in order of acceptance (R458). -/
def State.runEffects : Nat → State → State
  | 0, s => s
  | n + 1, s => match s.takeDue (fun _ => true) with
    | none => s
    | some (e, s) => runEffects n (s.runEffect e)

end Sys2Proof.Machine
end

