-- ==== Sys2Proof/Machine/Crossing.lean ====
section
/-!
DEFINITION. CROSSING_START (R31, R34, R93): the crossing ends and tick 0 of the next begins. What a boundary brings and its own
row has not brought yet (log 6) takes place here, in this order: the emission of the event still presented, replayed events that have
become complete (R394), the rest of the crossing's ticks, the end of a TIME_ALIGN that saw no marker, a freeze, the orbit boundary, a
launch, what else the barrier does (R242, R243), effects in order of acceptance (R458), a graft, new expected lanes.
-/
namespace Sys2Proof.Machine

/-- The launch that falls due, if any: the barrier's, or a scheduled one. -/
def State.launches (s : State) : State :=
  if s.syncDue then s.noting State.launchSync else s.launchDue.elim s (fun l => s.noting (fun s => s.launchNow l))

/-- The graft that falls due; at most one is pending (R342). -/
def State.grafts (s : State) : State := match s.dueGraft with
  | some (g, x, e) => s.noting (fun s => s.applyGraft g x e)
  | none => s

/-- Everything that takes place before tick 0. -/
def State.closeCrossing (s : State) : State :=
  let s := (s.when (s.presented.isSome && !s.stalled) State.riddleEmit).completeReplay
  let s := s.toLastTick.timeoutAlign
  let s := s.when s.capture.freezeDue State.freeze
  let s := s.when s.boundaryAhead (fun s => s.noting State.orbitBoundary)
  let s := s.launches.noting State.syncTick0
  let s := (State.runEffects s.effects.length s).grafts
  s.when s.image.expectDue State.applyExpect

/-- Tick 0: the spool count and the crossing counter step on; after a relock the count jumps and the wall clock has run
already (R32). -/
def State.stepCrossing (s : State) : State :=
  let boundary := s.time.boundaryDone
  let s := if s.time.relock then { s with time := { s.time with spool := s.nextTick, relock := false } } else s.tick
  let s := s.when (!boundary) (fun s =>
    let s := s.leaveZero
    { s with time := { s.time with crossing := s.time.crossing + 1 } })
  let s : State := { s with time := { s.time with boundaryDone := false, fresh := [] } }
  s.openCrossing boundary

/-- CROSSING_START -/
def execCrossingStart (s : State) : Res := done (if s.counts then s.closeCrossing.stepCrossing else s)

end Sys2Proof.Machine
end

