-- ==== Sys2Proof/Machine/Dma.lean ====
section
/-!
DEFINITION. The DMA engines: chunks, faults, pre-emption, remote writes and reads (chapter 17), with READ_STATE (R443),
XLAT_INVALIDATE (R454, R473) and the two DMA sub-ops (R456, R477, R478).
-/
namespace Sys2Proof.Machine

/-- The descriptor that an engine works on. -/
def Engine.desc (g : Engine) : Option Desc := g.descs[g.descIdx]?

/-- The fault of an engine at `done` bytes of its descriptor: the record is written, the engine is FAULTED and the command
engine is free (R465, R474, R486). -/
def State.engineFault (s : State) (e pe : Nat) (f : XFault) : State :=
  let g := s.engine e
  let pre := s.outranks (s.prio g.queue)
  let ws := s.faultWords ⟨e, g.queue, g.op, g.seq, pre, g.descIdx % 16, pe, g.done, g.total⟩ f
  let data := match g.desc with
    | some d => if d.srcKind == .remote then [] else g.data
    | none => g.data
  let g := { g with mode := .faulted, preemptPending := pre, fault := ws, waitTag := none, data := data }
  ((s.recordFault ws).setEngine e g).wait g.cmd

/-- `n` more bytes of the descriptor have been moved, below any chunk boundary. -/
def State.moveOn (s : State) (e n : Nat) : State :=
  let g := s.engine e
  let s := s.setEngine e { g with done := g.done + n, total := g.total + n }
  match s.cmd g.cmd with
  | none => s
  | some c => s.setCmd { c with progress := g.total + n }

/-- The last byte of the command has been moved. LOAD_IMAGE and LOAD_FALLOW go on to what follows their transfer. -/
def State.moveDone (s : State) (e : Nat) (c : Cmd) : State :=
  if c.op = 0x08 || c.op = 0x0B then s
  else s.finish c.id stOk (s.resultWords c (s.engine e).total (s.engine e).mark)

/-- A chunk boundary inside the command: a cancel ends it, a ready command of higher priority pre-empts it (R422, R423,
R479). -/
def State.chunkEnd (s : State) (e : Nat) (c : Cmd) : State :=
  let g := s.engine e
  if c.cancelled then s.endEarly c stPreempted
  else if s.outranks (s.prio g.queue) then
    ((s.setEngine e { g with mode := .preempted, preemptPending := false }).stage c.id .preempted).resume
  else s.setEngine e { g with preemptPending := false }

/-- The engine has moved `n` bytes without a fault: on to the next chunk, the next descriptor or the end (R465, R468). -/
def State.chunkDone (s : State) (e n : Nat) : State :=
  let s := s.moveOn e n
  let g := s.engine e
  match g.desc, s.cmd g.cmd with
  | some d, some c =>
    if g.done = d.len then
      let s := s.setEngine e { g with done := 0, descIdx := g.descIdx + 1 }
      if g.descs.length ≤ g.descIdx + 1 then s.moveDone e c else s.chunkEnd e c
    else if g.done % 4096 = 0 then s.chunkEnd e c
    else s
  | _, _ => s

/-- The bytes of a chunk from its source, up to the first that faults. -/
def State.chunkRead (s : State) (g : Engine) (d : Desc) (n : Nat) : List Byte × Option XFault × State :=
  match d.srcKind with
  | .hostVirtual => s.readHost true (d.src + g.done) n
  | .hostBus => s.readHost false (d.src + g.done) n
  | .atlas => (s.atlasRead (d.src + g.done) n, none, s.looked)
  | .buffer => (sub g.data (d.src + g.done) n, none, s)
  | .remote => (g.data.take n, none, s)

/-- Write bytes to the destination of a chunk, up to the first that faults. -/
def State.chunkWrite (s : State) (g : Engine) (d : Desc) (bs : List Byte) : Nat × Option XFault × State :=
  match d.dstKind with
  | .hostVirtual => s.writeHost true (d.dst + g.done) bs
  | .hostBus => s.writeHost false (d.dst + g.done) bs
  | .atlas => (bs.length, none, s.memWrite (d.dst + g.done) bs)
  | .buffer => (bs.length, none, s)
  | .remote => (bs.length, none, s)

/-- Move `n` bytes of the descriptor: every byte below the first that faults moves, and at one place the fault of the source
is recorded (R474). -/
def State.moveBytes (s : State) (e n : Nat) (d : Desc) : State :=
  let g := s.engine e
  let (bs, sf, s) := s.chunkRead g d n
  let (m, df, s) := s.chunkWrite g d bs
  match df, sf with
  | some f, _ => (s.moveOn e m).engineFault e 0 f
  | none, some f => (s.moveOn e m).engineFault e 0 f
  | none, none => s.chunkDone e n

/-! Remote descriptors (R482, R484) -/

/-- The tag entry of a remote write. -/
def State.tagEntry (s : State) (t : Nat) : TagEntry := tget (fun _ => {}) s.dma.tags t

/-- Replace a tag entry. -/
def State.setTagEntry (s : State) (t : Nat) (v : TagEntry) : State :=
  { s with dma := { s.dma with tags := tset (fun _ => {}) s.dma.tags t v } }

/-- The engine waits for a tag. -/
def State.waitFor (s : State) (e t : Nat) : State := s.setEngine e { s.engine e with waitTag := some t }

/-- Send one WRITE of at most 512 bytes under the next tag; while that tag is still held the write waits (R482). -/
def State.remoteWrite (s : State) (e n : Nat) (d : Desc) : State :=
  let g := s.engine e
  let t := s.fld F.DMA_TAG_NEXT.tag
  if (s.tagEntry t).held then s.waitFor e t
  else
    let (bs, sf, s) := s.chunkRead g d n
    match sf with
    | some f => s.engineFault e 0 f
    | none =>
      let s := s.sendMessage 2 false (msgHead 1 0 d.remote s.self t (d.dst + g.done) n ++ bs)
      let s := s.setTagEntry t ⟨g.seq, g.queue, g.op, e, true, s.time.spool % 2 ^ 32, true⟩
      let s := s.setFld F.DMA_TAG_NEXT.tag (t + 1)
      (s.setEngine e { g with waitTag := none }).chunkDone e n

/-- The lowest tag that no outstanding read bears (log 48). -/
def State.readTag (s : State) : Nat :=
  let used := s.links.reads.map (fun r => r.tag) ++ s.links.readWait.map (fun m => msgTag m.bytes)
  ((List.range 129).find? (fun t => !used.contains t)).getD 0

/-- Send a READ_REQ, or hold it while 64 are outstanding (R268). -/
def State.sendRead (s : State) (m : List Byte) : State :=
  if s.links.reads.length < 64 then
    let s : State := { s with links := { s.links with reads := s.links.reads ++ [⟨msgTag m, msgDst m⟩] } }
    s.sendMessage 2 false m
  else { s with links := { s.links with readWait := s.links.readWait ++ [{ port := 7, tc := 2, bytes := m }] } }

/-- Ask for at most 512 bytes, or move the bytes that have come. -/
def State.remoteRead (s : State) (e n : Nat) (d : Desc) : State :=
  let g := s.engine e
  if g.waitTag.isSome then s
  else if !g.data.isEmpty then
    let s := s.moveBytes e (min n g.data.length) d
    if (s.engine e).mode == .idle then s else s.setEngine e { s.engine e with data := [] }
  else
    let t := s.readTag
    (s.waitFor e t).sendRead (msgHead 2 0 d.remote s.self t (d.src + g.done) n)

/-- Run an engine up to its next chunk boundary, or for one remote message. -/
def State.runChunk (s : State) (e : Nat) : State :=
  let g := s.engine e
  match g.desc with
  | none => s
  | some d =>
    let n := min (4096 - g.done % 4096) (d.len - g.done)
    if d.dstKind == .remote then s.remoteWrite e (min 512 n) d
    else if d.srcKind == .remote then s.remoteRead e (min 512 n) d
    else s.moveBytes e n d

/-- Does an engine read the cold frame now, for another command than CAPTURE_READ, which counts what it meets itself? -/
def State.readsCold (s : State) (e : Nat) : Bool :=
  let g := s.engine e
  g.op != 0x29 && g.desc.any (fun d => d.srcKind == .atlas && cold 0 ≤ d.src + g.done && d.src + g.done < cold 0x100000000)

/-- DMA_CHUNK: a RUNNING engine that waits for nothing moves on (R465, R468); ECC may correct errors in what it reads of the
cold frame (R383). -/
def execDmaChunk (e : Fin 8) (s : State) : Res :=
  done (if (s.engine e).mode == .running && !(s.engine e).dataWait then
    (s.when (s.readsCold e) (fun s => s.corrected 512)).runChunk e
  else s)

/-- TAG_HOLD_EXPIRY: the tag is free, and a remote write that waited for it goes (R482). -/
def execTagHoldExpiry (tag : Fin 4096) (s : State) : Res :=
  let s := s.setTagEntry tag { s.tagEntry tag with held := false }
  done (match (s.engineIn .running).find? (fun e => (s.engine e).waitTag == some tag.val &&
      (s.engine e).desc.any (fun d => d.dstKind == .remote)) with
    | none => s
    | some e => s.runChunk e)

/-- READ_STATE: one descriptor from the atlas to host memory (R443). -/
def execReadState (q : Fin 16) (s : State) : Res :=
  done (s.command 0x02 q (fun _ => anyLife) (fun c s =>
    let a := c.w64 0
    let n := c.w 2
    if c.sub != 0 || !c.only [full, 0xFF, full, full, full] || a % 4 != 0 || n % 4 != 0 || n == 0 || 2 ^ 40 < a + n ||
        !hostRange (c.w64 3) n then s.finish c.id stParam [0]
    else s.startEngine c [⟨.atlas, .hostVirtual, 0, a, c.w64 3, n⟩]))

/-- Has a cached translation a page that overlaps `[a, a + n)`? -/
def Cached.meets (c : Cached) (a n : Nat) : Bool := c.va < a + n && a < c.va + 4096 * 512 ^ c.size

/-- Drop the cached translations that a test names: how many, and the state. -/
def State.dropCached (s : State) (p : Cached → Bool) : Nat × State :=
  let gone := s.dma.cache.filter (fun e => e.2.any p)
  (gone.length, { s with dma := { s.dma with cache := s.dma.cache.filter (fun e => !e.2.any p) } })

/-- XLAT_INVALIDATE: the translations go; the command ends when no access that used one is outstanding (R454, R473). -/
def execXlatInvalidate (q : Fin 16) (s : State) : Res :=
  done (s.command 0x58 q (fun _ => anyLife) (fun c s =>
    let a := c.w64 0
    let n := c.w 2
    if 1 < c.sub || !c.only [full, full, full] || (c.sub == 1 && !hostRange a n) then s.finish c.id stParam [0]
    else if c.sub = 1 && n == 0 then s.finish c.id stLength [0]
    else
      let (k, s) := s.dropCached (fun t => c.sub == 0 || t.meets a n)
      (s.setCmd { c with stage := .running, progress := k }).resume))

/-- XLAT_INVALIDATE_DONE: what engines that kept running have cached since goes too, so that no translation of the range remains
(R454, R473). -/
def execXlatInvalidateDone (q : Fin 16) (s : State) : Res :=
  done (match (s.queueCmds q).find? (fun c => c.op == 0x58 && c.stage == .running) with
    | none => s
    | some c =>
      let (k, s) := s.dropCached (fun t => c.sub == 0 || t.meets (c.w64 0) (c.w 2))
      s.finish c.id stOk [BitVec.ofNat 32 (c.progress + k)])

/-- The next command of a queue has this sub-op: one opcode serves two rows. -/
def State.nextSub (s : State) (q sb : Nat) : Bool := (s.nextOf q).any (fun c => c.sub == sb)

/-- A DMA sub-op: the engine that it names, checked, and what it does to the FAULTED engine. -/
def State.dmaSub (s : State) (q : Nat) (act : Cmd → Nat → State → State) : State :=
  s.command 0x68 q (fun _ => anyLife) (fun c s =>
    let e := bits (c.w 0) 0 3
    if 1 < c.sub || !c.only [7] then s.finish c.id stParam []
    else if (s.engine e).mode != .faulted then s.finish c.id stState []
    else act c e s)

/-- DMA_RESUME: the engine runs again and goes on from the bytes done (R465, R477). -/
def execDmaResume (q : Fin 16) (s : State) : Res :=
  done (if s.nextSub q 1 then s else s.dmaSub q (fun c e s =>
    let s := s.setEngine e { s.engine e with mode := .running }
    (s.stage (s.engine e).cmd .running).finish c.id stOk []))

/-- DMA_CANCEL: the faulted command ends with ST_FAULT_XLAT (R478). -/
def execDmaCancel (q : Fin 16) (s : State) : Res :=
  done (if !s.nextSub q 1 then s else s.dmaSub q (fun c e s =>
    let s := s.finish c.id stOk []
    match s.cmd (s.engine e).cmd with
    | none => s
    | some d => s.endEarly d stFaultXlat))

end Sys2Proof.Machine
end

