-- ==== Sys2Proof/Machine/Flits.lean ====
section
/-!
DEFINITION. The flits of an UP port (R254-R262, R264, R269-R274): which flit leaves in a flit period, and what is done with one
that comes in. The layout of a LINK flit's payload is not in the spec: the credits that it returns stand beside its bytes
(log 27).
-/
namespace Sys2Proof.Machine

/-! Bytes -/

/-- The 64 bytes of a flit (R254). -/
def flitBytes (seq ack : Nat) (nak : Bool) (c : Cargo) : List Byte :=
  let h := seq % 4096 + 4096 * (ack % 4096) + 2 ^ 24 + 2 ^ 25 * c.tc + 2 ^ 27 * c.kind + 2 ^ 29 * b2n (c.first && c.tc != 1) + 2 ^ 30 * b2n nak +
    2 ^ 31 * b2n c.dl
  let b := leBytes 4 h ++ leBytes 8 c.pilot ++ padTo 48 c.payload
  b ++ leBytes 4 (crc32c b).toNat

/-! Credits (R262, R310). Key 0-63: TC1 of a group; 64 and 65: TC2 by dateline lane; 66: TC3. -/

/-- The credit that a DATA flit takes. -/
def Cargo.creditKey (c : Cargo) : Nat := if c.tc = 1 then u8 c.head 0 % 64 else if c.tc = 2 then 64 + b2n c.dl else 66

/-- The flits that one credit pool holds. -/
def creditPool (key : Nat) : Nat := if key < 64 then 16 else if key < 66 then 64 else 32

/-- Does the sender hold a credit for the flit? -/
def Port.credit (v : Port) (c : Cargo) : Bool := tget (fun _ => 0) v.spent c.creditKey < creditPool c.creditKey

/-! The choice of a flit -/

/-- A message's flits: the first, and those behind it that are not the first of another. -/
def headMessage (l : List Cargo) : List Cargo := l.take 1 ++ (l.drop 1).takeWhile (fun c => !c.first)

/-- Does the pool of a chunk's group hold room for all flits of the chunk at the head of a list? So a chunk that has begun never waits for
credit, and no channel waits for another (R264, R310, R339; log 152). -/
def Port.roomFor (v : Port) (l : List Cargo) : Bool := match l with
  | [] => false
  | c :: _ => tget (fun _ => 0) v.spent c.creditKey + (headMessage l).length ≤ creditPool c.creditKey

/-- The next TC1 flit: the chunk under way goes on; between chunks, the first one with room whose group has none waiting before it. -/
def Port.pick1 (v : Port) : Option (Cargo × Port) := match v.out1 with
  | [] => none
  | c :: rest =>
    if !c.first then (if v.credit c then some (c, { v with out1 := rest }) else none)
    else
      let ok (k : Nat) : Bool := match v.out1.drop k with
        | [] => false
        | d :: l => d.first && v.roomFor (d :: l) && !(v.out1.take k).any (fun e => e.creditKey == d.creditKey)
      match (List.range v.out1.length).find? ok with
      | none => none
      | some k =>
        let m := headMessage (v.out1.drop k)
        m.head?.map (fun d => (d, { v with out1 := m.drop 1 ++ v.out1.take k ++ v.out1.drop (k + m.length) }))

/-- The next flit of a message class: the message under way goes on; between messages the other dateline lane may overtake one
without credit. -/
def pickMessage (v : Port) (l : List Cargo) : Option (Cargo × List Cargo) := match l with
  | [] => none
  | c :: rest =>
    if v.credit c then some (c, rest)
    else if !c.first then none
    else
      let k := (l.findIdx? (fun d => d.first && d.dl != c.dl)).getD l.length
      match l.drop k with
      | [] => none
      | d :: _ =>
        let m := headMessage (l.drop k)
        if v.credit d then some (d, m.drop 1 ++ l.take k ++ l.drop (k + m.length)) else none

/-- The next DATA flit by class (R264): TC1, then TC2, but one TC3 flit in 64 that waits. -/
def Port.pick (v : Port) : Option (Cargo × Port) := match v.pick1 with
  | some r => some r
  | none =>
    let two := (pickMessage v v.out2).map (fun r => (r.1, { v with out2 := r.2 }))
    let three := (pickMessage v v.out3).map (fun r => (r.1, { v with out3 := r.2 }))
    if 63 ≤ v.sinceTc3 && three.isSome then three else two.or three

/-- Put the flit of a new sequence number in order: it is kept until it is acknowledged, and takes its credit. -/
def Port.sequence (v : Port) (c : Cargo) : Nat × Port :=
  let k := c.creditKey
  (v.txSeq, { v with
    txSeq := (v.txSeq + 1) % 4096
    unacked := v.unacked ++ [(v.txSeq, { c with back := none })]
    spent := if c.kind = 2 then tset (fun _ => 0) v.spent k (tget (fun _ => 0) v.spent k + 1) else v.spent
    sinceTc3 := if c.kind = 2 && c.tc == 3 then 0 else if v.out3.isEmpty then 0 else v.sinceTc3 + 1 })

/-- A flit that is sent again takes a pending pilot item if it carries none: an item goes into the next flit to leave (R256). -/
def Port.addPilot (v : Port) (q : Nat) (c : Cargo) : Cargo × Port := match v.pilots with
  | i :: rest =>
    if c.pilot = 0 then
      let c := { c with pilot := i }
      (c, { v with pilots := rest, unacked := v.unacked.map (fun e => if e.1 = q then (q, c) else e) })
    else (c, v)
  | [] => (c, v)

/-- The flit that leaves next: credits that are due, a replay, data with a pilot item, a pilot item alone, credits, or
filler. -/
def Port.next (v : Port) : Nat × Cargo × Port :=
  let link := (0, { kind := 3, credits := v.owed : Cargo }, { v with owed := [], sinceCredit := 0 })
  let v1 := { v with sinceCredit := v.sinceCredit + 1 }
  if !v.owed.isEmpty && 31 ≤ v.sinceCredit then link
  else match v.resend with
    | q :: rest => match v.unacked.find? (fun e => e.1 == q) with
      | some e =>
        let (c, w) := { v1 with resend := rest }.addPilot q e.2
        (q, c, w)
      | none => (0, { kind := 0 }, { v1 with resend := rest })
    | [] =>
      if 256 ≤ v.unacked.length then (if v.owed.isEmpty then (0, { kind := 0 }, v1) else link)
      else match v1.pick with
        | some (c, w) =>
          let c := { c with pilot := w.pilots.headD 0 }
          let r := { w with pilots := w.pilots.drop 1 }.sequence c
          (r.1, c, r.2)
        | none => match v.pilots with
          | i :: rest =>
            let c : Cargo := { kind := 1, pilot := i }
            let r := { v1 with pilots := rest }.sequence c
            (r.1, c, r.2)
          | [] => if v.owed.isEmpty then (0, { kind := 0 }, v1) else link

/-! The line (R253) -/

/-- The lane of block `i` of a flit: round-robin over the four lanes of the port, from its lowest (R252). -/
def laneOf (p i : Nat) : Nat := 4 * p + i % 4

/-- Put blocks on a lane, newest first. -/
def State.putLine (s : State) (n : Nat) (bs : List (Option (List Byte))) : State :=
  { s with links := { s.links with line := tset (fun _ => []) s.links.line n (bs ++ tget (fun _ => []) s.links.line n) } }

/-- In short reach the 8 blocks of a flit go over the lanes, two on each, and each lane inserts an alignment block after every 16,384. The
code words of long reach are those of another standard (log 153). -/
def State.lineFlit (s : State) (p : Nat) (bs : List Byte) : State :=
  let v := s.port p
  if v.mode != 0 then s
  else
    let full := v.blocks + 2 == 16384
    let s := (List.range 8).foldl (fun s i => s.putLine (laneOf p i) [some (sub bs (8 * i) 8)]) s
    let s := if full then [0, 1, 2, 3].foldl (fun s i => s.putLine (laneOf p i) [none]) s else s
    s.setPort p { v with blocks := if full then 0 else v.blocks + 2 }

/-- FLIT_SEND: one flit period of an UP port. -/
def execFlitSend (p : Fin 6) (s : State) : Res := done
  (if !s.portUp p then s
  else
    let v := s.port p
    let (q, c, w) := v.next
    let bs := flitBytes q ((v.expect + 4095) % 4096) v.nakDue c
    let s := ((s.setPort p { w with nakDue := false, accepted := 0, ackDue := false }).freeBuffer c).lineFlit p bs
    { s with links := { s.links with sent := (p.val, bs, c.credits) :: s.links.sent } })

/-! A flit that comes in -/

/-- An acknowledgement releases the flits up to it (R257, R261); with nak the rest is replayed (R261). -/
def Port.takeAck (v : Port) (ack : Nat) (nak : Bool) : Port :=
  let v := match v.unacked.findIdx? (fun e => e.1 == ack) with
    | none => v
    | some i =>
      let rest := v.unacked.drop (i + 1)
      { v with unacked := rest, timerReplays := 0, resend := v.resend.filter (fun q => rest.any (fun e => e.1 == q)) }
  if nak then { v with resend := v.unacked.map (fun e => e.1) } else v

/-- Credits that have come back. -/
def Port.takeCredits (v : Port) (l : List (Nat × Nat)) : Port :=
  l.foldl (fun v e => { v with spent := tset (fun _ => 0) v.spent e.1 (tget (fun _ => 0) v.spent e.1 - e.2) }) v

/-- The pilot item of a flit (R256): a duplicate or a stale one is counted, any other is taken. Of the two ordinals kept, the
newer stands first; an ordinal is stale when it differs from the newest by 129 to 255 modulo 256 (log 31). Of ABORT items a copy is known by
what word 0 says, and words 1 and 2 by whether an ABORT still lacks them: the ABORTs of two originators for one ordinal are no copies of
each other (R333, R345; log 154). -/
def State.takePilot (s : State) (p item : Nat) : State :=
  let kind := bits item 0 2
  let g := bits item 2 6
  let o := bits item 8 8
  let word := bits item 16 4
  let value := bits item 32 32
  let key := if kind = 3 && word = 0 then (3 + 4 * value, 0) else (kind, word)
  let seen := tget (fun _ => []) (s.port p).seen g
  let keep (l : List (Nat × List (Nat × Nat))) (s : State) : State :=
    s.setPort p { s.port p with seen := tset (fun _ => []) (s.port p).seen g (l.take 2) }
  let act (s : State) : State :=
    if kind = 3 then s.abortItem p g o word (bits item 20 3) value else s.reduceItem p g item
  if kind = 0 then s
  else match seen.find? (fun e => e.1 == o) with
    | some e =>
      if e.2.contains key && !(kind == 3 && word != 0 && s.abortLacks p g o word) then s.satInc (F.TTH_PORT_ERR1.pilot_dup p)
      else act (keep (seen.map (fun x => if x.1 = o then (o, x.2 ++ (if x.2.contains key then [] else [key])) else x)) s)
    | none => match seen with
      | [] => act (keep [(o, [key])] s)
      | x :: _ =>
        if 129 ≤ (o + 256 - x.1) % 256 then s.satInc (F.TTH_PORT_ERR1.pilot_stale p)
        else act (keep ((o, [key]) :: seen) s)

/-- A TC1 flit: chunks are put together, taken here, or sent on by the route of their group (R306, R340). The credits go back when the chunk
leaves the buffer (R262, R310); a refused flit gives none back (R340). -/
def State.takeData1 (s : State) (p : Nat) (payload : List Byte) : State :=
  let v := s.port p
  if v.skip != 0 then s.setPort p { v with skip := v.skip - 1 }
  else
    let all := tget (fun _ => []) v.parts 1 ++ payload
    let g := u8 all 0 % 64
    let total := 20 + u16 all 12
    let (ok, s) := s.transitFor g
    let put (bs : List Byte) (s : State) : State := s.setPort p { s.port p with parts := tset (fun _ => []) (s.port p).parts 1 bs }
    if !ok then
      let s := put [] (s.setPort p { v with skip := flitsFor (total - all.length) })
      (s.raise F.COL_ABORT_EVT.vc_exhausted).refuseChunk g (readChunk all).ordinal p
    else if all.length < total then put all s
    else
      let s := put [] s
      let m : Message := { port := p, tc := 1, bytes := all.take total, owes := true }
      let c := readChunk m.bytes
      if c.dst = s.self then { s with links := { s.links with chunks := s.links.chunks ++ [m] } }
      else
        let path := if p % 2 = 0 then s.ringPath 1 c.src c.dst else s.dataPath g c.src c.dst
        match s.portOn path (some p) with
        | none => s.freeMessage m
        | some q =>
          if s.carries q then s.pushFlits q 1 (cutFlits 1 false (m.bytes.take 16) m.bytes (some (p, m.key))) else s.freeMessage m

/-- A TC1 flit on a miswired port is dropped (R277): its credit goes back to its group, which the first flit of its chunk names. -/
def State.dropData1 (s : State) (p : Nat) (payload : List Byte) : State :=
  let v := s.port p
  let all := tget (fun _ => []) v.parts 1 ++ payload
  (s.setPort p { v with parts := tset (fun _ => []) v.parts 1 (if all.length < 20 + u16 all 12 then all else []) }).oweCredit p (u8 all 0 % 64)

/-- A flit of TC2 or TC3: messages are put together (R265); their credits go back when they leave the buffer (R262). -/
def State.takeData (s : State) (p tc : Nat) (first dl : Bool) (payload : List Byte) : State :=
  let v := s.port p
  let all := (if first then [] else tget (fun _ => []) v.parts tc) ++ payload
  let n := msgBytes all
  let put (bs : List Byte) : State := s.setPort p { v with parts := tset (fun _ => []) v.parts tc bs }
  if all.length < n then put all else (put []).toInbox { port := p, tc := tc, bytes := all.take n, dl := dl, owes := true }

/-- An accepted flit's payload. -/
def State.takePayload (s : State) (p tc kind : Nat) (first dl : Bool) (payload : List Byte) : State :=
  if kind != 2 || tc = 0 then s
  else if s.miswired p then (if tc = 1 then s.dropData1 p payload else s.oweCredit p (if tc = 2 then 64 + b2n dl else 66))
  else if tc = 1 then s.takeData1 p payload
  else s.takeData p tc first dl payload

/-- A sequenced flit (R258-R260). -/
def State.takeSequenced (s : State) (p seq tc kind : Nat) (first dl : Bool) (payload : List Byte) : State :=
  let v := s.port p
  let ahead := (seq + 4096 - v.expect) % 4096
  let behind := (v.expect + 4096 - seq) % 4096
  if ahead = 0 then
    let n := v.accepted + 1
    let s := s.setPort p { v with
      expect := (v.expect + 1) % 4096, gap := false, accepted := n
      ackDue := v.ackDue || max 1 (s.fld (F.TTH_PORT_CFG.ack_flits p)) ≤ n }
    s.takePayload p tc kind first dl payload
  else if behind ≤ 256 then (s.satInc (F.TTH_PORT_ERR0.dup_discard p)).setPort p { v with ackDue := true }
  else if ahead ≤ 255 then s.setPort p { v with nakDue := v.nakDue || !v.gap, gap := true }
  else s.satInc (F.TTH_PORT_ERR2.seq_err p)

/-- A flit of 64 bytes; `credits`: what a LINK flit returns. -/
def State.takeFlit (s : State) (p : Nat) (bs : List Byte) (credits : List (Nat × Nat)) : State :=
  if bs.length != 64 || crc32c (bs.take 60) != BitVec.ofNat 32 (leNat (bs.drop 60)) then s.satInc (F.TTH_PORT_ERR0.crc_fail p)
  else
    let h := u32 bs 0
    let kind := bits h 27 2
    let v := s.port p
    let v := if nbit h 24 then v.takeAck (bits h 12 12) (nbit h 30) else v
    let s := s.setPort p (if kind = 3 then v.takeCredits credits else v)
    let s := s.when (kind == 1 || kind == 2) (fun s => s.takePilot p (u64 bs 4))
    if (kind = 1 || kind = 2) && s.portUp p then
      s.takeSequenced p (bits h 0 12) (bits h 25 2) kind (nbit h 29) (nbit h 31) (sub bs 12 48)
    else s

/-- FLIT_RECEIVED -/
def execFlitReceived (p : Fin 6) (bytes : List Byte) (credits : List (Nat × Nat)) (s : State) : Res := done
  (if s.portUp p then s.takeFlit p bytes credits else s)

end Sys2Proof.Machine
end

