-- ==== Sys2Proof/Machine/Generate.lean ====
section
/-!
DEFINITION. Memory units at work (R141-R146, R165, R179, R180, R312, R313): passes of the address generators.
-/
namespace Sys2Proof.Machine

/-- Do two generators of a slot form an unordered pair, `a` reading and `b` writing (R179)? -/
def unordered (a b : AgCfg) : Bool :=
  a.used && b.used && !a.write && b.write && a.lo ≤ b.hi && b.lo ≤ a.hi && a.trigger != 1 && b.trigger != 1

/-- Rows of a region that have landed, when its pass starts (R312). -/
def State.landedIn (s : State) (u : Nat) (a : AgCfg) : Nat :=
  ((List.range (a.hi + 1 - a.lo)).filter (fun i => (s.zoneAt u (a.lo + i)).isSome && s.rowLanded u (a.lo + i))).length

/-- Does a pass of the unit run, or have wraps to carry out? -/
def TUnit.passing (v : TUnit) : Bool := [0, 1].any (fun g => (v.gen g).active || !(v.gen g).wraps.isEmpty)

/-- A waiting trigger starts a pass of generator `g` (R143), held or faulted by the row interlock (R179). Between passes the unit takes up
the slot of the token at the head of its primary input (R157, R180). -/
def State.triggerTry (s : State) (u g : Nat) : Try :=
  let v := s.unit u
  if !isMu u || !v.inEvent || v.discard || (v.gen g).trig.isEmpty || (v.gen g).active || !(v.gen g).wraps.isEmpty then none
  else
    let s := match (if v.passing then none else s.headOf u Token.operand) with
      | none => s
      | some (_, t) => s.followToken u t 0
    let v := s.unit u
    let x := v.gen g
    match v.slot, x.trig with
    | some i, (tag, ctx) :: rest =>
      let bs := s.slotBytes u i
      let a := readGen bs g
      let engaged := unordered a (readGen bs (1 - g)) && !(v.gen (1 - g)).ended
      let replay := s.replayDie (uDie u)
      let n := if (a.ctrs.getD 0 offCtr).source = 4 then s.landedIn u a else 0
      let s := s.setUnit u (v.setGen g { x with
        trig := rest, active := true, slot := i, cnt := [0, 0, 0, 0], tag := tag, ctx := ctx
        held := engaged && replay, wraps := [], arrivals := n })
      some ([], if !engaged then s
        else if replay then s.satInc (F.TRL_SPILL_STAT.interlock (uDie u))
        else s.faultUnit u 8 0xFFFF g 1)
    | _, _ => some ([], s.dropEvent u)

/-- The row of the next handshake, exact (R143). -/
def AgCfg.row (a : AgCfg) (cnt : List Nat) : Int :=
  (a.active.zipIdx).foldl (fun r e => r + (cnt.getD e.2 0 : Int) * e.1.stride) (a.base : Int)

/-- The detail of FT_ADDR_BOUND (R194). -/
def rowDetail (row : Int) : Nat := unsigned 16 row + (if row < 0 then 65536 else 0)

/-- The lanes of a row. -/
def rowLanes (bs : List Byte) : List Lane16 := (List.range 64).map (fun l => BitVec.ofNat 16 (u16 bs (2 * l)))

/-- The bytes of a token's row. -/
def Token.row (t : Token) : List Byte := (List.range 64).flatMap (fun l => leBytes 2 (t.lane l).toNat)

/-- Count a handshake: counters advance, wraps fall due, an arrival is used up (R143, R312); the wait timer restarts (R175). -/
def State.handshake (s : State) (u g : Nat) (a : AgCfg) : State :=
  let v := s.unit u
  let x := v.gen g
  let src := (a.ctrs.getD 0 offCtr).source
  let r := advance a.ctrs src x.cnt
  s.setUnit u ({ v with since := s.time.spool }.setGen g
    { x with cnt := r.1, wraps := x.wraps ++ r.2, arrivals := x.arrivals - (if src = 4 then 1 else 0) })

/-- A read handshake (R142-R144, R187, R313). `bad`: a double-bit error met; `corrected`: single-bit errors corrected. -/
def State.readRow (s : State) (u g : Nat) (a : AgCfg) (row : Int) (corrected : Nat) (bad : Bool) : State :=
  let x := (s.unit u).gen g
  let rs := readRoutes (s.slotBytes u x.slot)
  let inside := (a.lo : Int) ≤ row && row ≤ (a.hi : Int)
  let n := row.toNat
  let s1 :=
    if !inside then s.faultUnit u 2 (rowDetail row) g 1
    else (s.satAdd (F.TRL_ECC_CORR.count (uDie u)) corrected).when bad (fun s => s.faultUnit u 1 n g 1)
  if (s1.unit u).subst then (s1.sendData u rs (s1.errToken u x.ctx false) (some a.sel)).handshake u g a
  else if a.gated && s.rowErr u n then
    let (c, s1) := s1.takeFree
    let e := ctlToken 3 x.tag x.ctx [bits c.toNat 0 16, bits c.toNat 16 16] (s.unit u).ev
    ((s1.unitFlag u 2).sendData u rs e (some a.sel)).handshake u g a
  else
    let t : Token := ⟨0, x.tag, x.ctx, 0, rowLanes (s.memRead (rowAddr u n) 128), (s.unit u).ev⟩
    (s1.sendData u rs t (some a.sel)).handshake u g a

/-- A write handshake: the token at the head of the input queue goes to the next row (R144). -/
def State.writeRow (s : State) (u g : Nat) (a : AgCfg) (row : Int) (t : Token) : State :=
  let inside := (a.lo : Int) ≤ row && row ≤ (a.hi : Int)
  let s := s.when t.errData (fun s => s.takeError u t)
  let s := s.when (!inside) (fun s => s.faultUnit u 2 (rowDetail row) g 1)
  let s := if (s.unit u).subst then s else s.memWrite (rowAddr u row.toNat) t.row
  (s.consume u a.sel).handshake u g a

/-- Does a running pass wait for landings, which the wait timer leaves out (R175): an arrival-gated one, or one whose counter 0 counts them? -/
def State.landingWait (s : State) (u g : Nat) : Bool :=
  let x := (s.unit u).gen g
  let a := readGen (s.slotBytes u x.slot) g
  x.active && (a.gated || ((a.ctrs.getD 0 offCtr).source == 4 && x.arrivals == 0))

/-- One handshake of a running pass, when nothing blocks it. -/
def State.rowTry (s : State) (u g corrected : Nat) (bad : Bool) : Try :=
  let v := s.unit u
  let x := v.gen g
  let bs := s.slotBytes u x.slot
  let a := readGen bs g
  let row := a.row x.cnt
  if !isMu u || !x.active || x.held || !x.wraps.isEmpty then none
  else if (a.ctrs.getD 0 offCtr).source == 4 && x.arrivals == 0 then none
  else if a.write then
    match (v.tokens a.sel).head? with
    | none => none
    | some t => if t.operand then some ([], s.writeRow u g a row t) else none
  else if a.gated && decide (0 ≤ row) && !s.gateOpen u row.toNat a.lo a.hi then none
  else some (readRoutes bs, s.readRow u g a row corrected bad)

/-- A handshake of generator `g`. -/
def State.generatorRow (s : State) (u g corrected : Nat) (bad : Bool) : State := s.attempt (s.rowTry u g corrected bad)

/-- An ERROR token is consumed where a data operand is due (R188): by a firing of stage 0, or by a write generator. -/
def State.errorToken (s : State) (u : Nat) : State :=
  if isMu u then
    match [0, 1].find? (fun g =>
        let x := (s.unit u).gen g
        let a := readGen (s.slotBytes u x.slot) g
        x.active && a.write && (((s.unit u).tokens a.sel).head?).elim false Token.errData) with
    | none => s
    | some g => s.generatorRow u g 0 false
  else s.fireStage0 u true none

end Sys2Proof.Machine
end

