-- ==== Sys2Proof/Machine/Readout.lean ====
section
/-!
DEFINITION. The commands of the capture: arming, freezing and disarming (R384, R390, R404, R450), and CAPTURE_READ (R389).
-/
namespace Sys2Proof.Machine

/-- Does a CAPTURE_READ run: started and not yet complete (R390, R457, R488)? -/
def State.reading (s : State) : Bool := s.cmds.any (fun c => c.op == 0x29 && c.stage != .fetched)

/-- The states in which a CAPTURE_ARM sub-op may run. -/
def armLives (c : Cmd) : List Nat :=
  if c.sub = 0 then [lifeLoaded, lifeArmed, lifeLive] else [lifeLoaded, lifeArmed, lifeLive, lifeDraining]

/-- Arm (R384): the ring is empty, a full snapshot is due at its first crossing; what this crossing detected counts against it
(R404). -/
def State.armCapture (s : State) (size post trig : Nat) : State :=
  let s := ((s.setFld F.CFM_CAP_CFG.size_k size).setFld F.CFM_CAP_CFG.post_x post).setReg Reg.CFM_CAP_TRIG (BitVec.ofNat 32 trig)
  let s := (s.setReg Reg.CFM_CAP_STAT 0).setFld F.CFM_CAP_STAT.state capRunning
  let s := (s.setWide Reg.CFM_CAP_OLDEST_LO 0).setWide Reg.CFM_CAP_NEWEST_LO 0
  let now := s.capture.causes.filter (fun e => e.1 == s.xindex)
  let s : State := { s with capture := { digPos := s.capture.digPos, snapshotDue := true, causes := now } }
  now.foldl (fun s e => s.when (causeTriggers e.2.2 trig) (fun s => s.capTrigger e.2.1)) s

/-- The result word of CAPTURE_ARM. -/
def State.capWords (s : State) : List Word := [s.reg Reg.CFM_CAP_STAT]

/-- CAPTURE_ARM: sub-op 0; a sub-op above 2 is no other row's. -/
def execCaptureArm (q : Fin 16) (s : State) : Res :=
  done (if s.nextSub q 1 || s.nextSub q 2 then s else s.command 0x28 q armLives (fun c s =>
    let size := bits (c.w 0) 0 9
    if c.sub != 0 || !c.only [0x1FF, 0xFFFFF, 0x303FF] || size < 1 || 336 < size then s.finish c.id stParam s.capWords
    else if s.reading then s.finish c.id stBusy s.capWords
    else
      let s := s.armCapture size (c.w 1) (c.w 2)
      s.finish c.id stOk s.capWords))

/-- A sub-op that needs a RUNNING capture (R450). -/
def State.runningSub (s : State) (q n : Nat) (act : Cmd → State → State) : State :=
  if !s.nextSub q n then s
  else s.command 0x28 q armLives (fun c s =>
    if c.sub != n then s.finish c.id stParam s.capWords
    else if s.reading then s.finish c.id stBusy s.capWords
    else if s.capState != capRunning then s.finish c.id stState s.capWords
    else act c s)

/-- CAPTURE_FREEZE_REQUEST: a trigger at the current crossing (R388, R450). -/
def execCaptureFreezeRequest (q : Fin 16) (s : State) : Res :=
  done (s.runningSub q 1 (fun c s =>
    let s := s.capCause s.xindex causeFreeze
    s.finish c.id stOk s.capWords))

/-- CAPTURE_DISARM: it stops at the next crossing boundary (R450). -/
def execCaptureDisarm (q : Fin 16) (s : State) : Res :=
  done (s.runningSub q 2 (fun c s => s.addEffect ⟨s.xindex + 1, c.id, .disarm⟩))

/-- Join address ranges that follow each other. -/
def joinRanges : List (Nat × Nat) → List (Nat × Nat)
  | [] => []
  | (a, n) :: l => match joinRanges l with
    | (b, m) :: r => if a + n = b then (a, n + m) :: r else (a, n) :: (b, m) :: r
    | [] => [(a, n)]

/-- The cold-frame ranges of `count` records from index `first` on, and of their side groups (R389). -/
def State.captureRanges (s : State) (first count : Nat) : List (Nat × Nat) :=
  let n := max 1 s.capLen
  let start := first % n
  let whole := if start + count ≤ n then [(s.recordAddr first, 9344 * count)]
    else [(s.recordAddr first, 9344 * (n - start)), (s.recordAddr 0, 9344 * (count - (n - start)))]
  let gs := s.capture.groups.filter (fun g => first ≤ g.1 && g.1 < first + count)
  whole ++ joinRanges (gs.map (fun g => (0xE0000000 + g.2.1 % sideSize, 16 + 16 * g.2.2.1)))

/-- The descriptors that copy ranges of the cold frame to host memory from `a` on. -/
def coldDescs : List (Nat × Nat) → Nat → List Desc
  | [], _ => []
  | (o, n) :: l, a => ⟨.atlas, .hostVirtual, 0, cold o, a, n⟩ :: coldDescs l (a + n)

/-- CAPTURE_READ (R389); `bad`: the records in which the reading meets a double-bit error (R383). -/
def execCaptureRead (q : Fin 16) (corrected : Nat) (bad : List Nat) (s : State) : Res :=
  done (s.command 0x29 q (fun _ => notBoot) (fun c s =>
    let first := c.w64 0
    let n := c.w 2
    let rs := s.captureRanges first n
    let total := rs.foldl (fun a r => a + r.2) 0
    if c.sub != 0 || n == 0 || 344064 < n || !hostRange (c.w64 3) total then s.finish c.id stParam [0, 0]
    else if s.capState != capFrozen then s.finish c.id stState [0, 0]
    else if s.cmds.any (fun x => x.op == 0x29 && x.stage != .fetched && x.id != c.id) then s.finish c.id stBusy [0, 0]
    else if !(s.capture.oldest.elim false (fun o => o ≤ first) && s.capture.newest.elim false (fun m => first + n ≤ m + 1)) then
      s.finish c.id stParam [0, 0]
    else
      let t := s.startEngine c (coldDescs rs (c.w64 3))
      if (s.engineIn .idle).isEmpty then t
      else
        let here := bad.filter (fun j => first ≤ j && j < first + n)
        (t.countEcc corrected here.length).markRecords here))

end Sys2Proof.Machine
end

