-- ==== Sys2Proof/Machine/Remote.lean ====
section
/-!
DEFINITION. Messages of TC2 and TC3 at a package: writes and reads that arrive, responses, reports, forwarding and the read
timeout (R264-R268, R484). A row takes the oldest message of its kind that has arrived.
-/
namespace Sys2Proof.Machine

/-- Lies `[a, a + n)` inside one enabled window (R265)? -/
def State.inWindow (s : State) (a n : Nat) : Bool := (List.range 8).any (fun k =>
  let b := 256 * s.fld (F.TTH_WIN_BASE.base k)
  b ≤ a && a + n ≤ b + 256 * s.fld (F.TTH_WIN_SIZE.size k))

/-- The site that an offset in a trellis die names. -/
def siteOf (r : Nat) : Option Nat :=
  let k := if r < 0x3400000 then r / 0x80000
    else if r < 0x34D0000 then (r - 0x3400000) / 0x2000
    else if 0x3600000 ≤ r && r < 0x3C80000 then (r - 0x3600000) / 0x10000
    else if 0x3E00000 ≤ r then (r - 0x3E00000) / 0x4000
    else 104
  if k < 104 then some k else none

/-- Does an atlas address name a fenced die or a pruned unit (R266)? -/
def State.namesFenced (s : State) (a : Nat) : Bool :=
  dieBase 0 ≤ a && a < dieBase 16 &&
    (let d := (a - dieBase 0) / 0x4000000
     s.fenced d || match siteOf ((a - dieBase 0) % 0x4000000) with
      | none => false
      | some k => (cuPos (k % 13)).any (fun p => nbit (s.prunedMask d (k / 13)) p))

/-- Why a remote access of a range fails before it starts: a code of R266, or 0. -/
def State.remoteCode (s : State) (a n : Nat) (ecc : Bool) : Nat :=
  if !s.inWindow a n then 1
  else if (List.range (n / 4)).any (fun i => s.namesFenced (a + 4 * i)) then 2
  else if ecc then 3 else 0

/-- Is an atlas write taken at this address (R426)? -/
def State.takesWrite (s : State) (a : Nat) : Bool := if a < 0x2000000 then (RegMap.find a).isSome else s.memWritable a

/-- Write words in address order; the second part says whether one was dropped (R265, R426). -/
def State.writeWords (s : State) : Nat → List Word → Bool × State
  | _, [] => (false, s)
  | a, w :: ws =>
    let bad := !s.takesWrite a
    let (r, s) := (s.atlasWrite .fw a a w).writeWords (a + 4) ws
    (bad || r, s)

/-- REMOTE_WRITE; `ecc`: a read-modify-write of the range found an uncorrectable error. -/
def execRemoteWrite (ecc : Bool) (s : State) : Res := done (match s.takeMessage (s.isHere 1) with
  | none => s
  | some (m, s) =>
    let a := msgAddr m.bytes
    let n := msgLen m.bytes
    let code := s.remoteCode a n ecc
    if code != 0 then s.failMessage m.bytes code
    else
      let (bad, s) := s.writeWords a (bytesWords (sub m.bytes 16 n))
      if bad then s.failMessage m.bytes 1 else s)

/-- READ_REQ: the range is read and sent back with its status; `ecc`: none, an uncorrectable error was found in it; else the words of the
cold frame among it in which ECC corrects an error (R266, R383). -/
def execReadReq (ecc : Option (Fin 66)) (s : State) : Res := done (match s.takeMessage (s.isHere 2) with
  | none => s
  | some (m, s) =>
    let a := msgAddr m.bytes
    let n := msgLen m.bytes
    let code := s.remoteCode a n ecc.isNone
    if code != 0 then s.failMessage m.bytes code
    else
      let s := s.when (decide (cold 0 ≤ a) && decide (a < cold 0x100000000)) (fun s => s.countEcc (ecc.elim 0 Fin.val) 0)
      s.looked.sendBack (msgHead 3 0 (msgSrc m.bytes) s.self (msgTag m.bytes) a n ++ s.atlasRead a n))

/-- An outstanding read ends: the next that waited is sent (R268). -/
def State.endRead (s : State) (tag : Nat) : State :=
  let s : State := { s with links := { s.links with reads := s.links.reads.filter (fun r => r.tag != tag) } }
  match s.links.readWait with
  | [] => s
  | m :: ms => State.sendRead { s with links := { s.links with readWait := ms } } m.bytes

/-- The engine that waits for a read. -/
def State.reader (s : State) (tag : Nat) : Option Nat := (List.range 8).find? (fun e =>
  (s.engine e).mode == .running && (s.engine e).waitTag == some tag && (s.engine e).desc.any (fun d => d.srcKind == .remote))

/-- A read fails: its engine faults with XF_REMOTE (R484). -/
def State.failRead (s : State) (tag code : Nat) : State := match s.reader tag with
  | none => s
  | some e =>
    let g := s.engine e
    s.engineFault e code ⟨7, 0, (g.desc.elim 0 (fun d => d.src)) + g.done, false⟩

/-- READ_RESP: matched by tag and source, or late (R268, R484). -/
def execReadResp (s : State) : Res := done (match s.takeMessage (s.isHere 3) with
  | none => s
  | some (m, s) =>
    let tag := msgTag m.bytes
    if !s.links.reads.any (fun r => r.tag == tag && r.far == msgSrc m.bytes) then
      if m.port < 6 then s.satInc (F.TTH_PORT_ERR2.late_resp m.port) else s
    else
      let s := s.endRead tag
      if msgStatus m.bytes != 0 then s.failRead tag (msgStatus m.bytes)
      else match s.reader tag with
        | none => s
        | some e => s.setEngine e { s.engine e with waitTag := none, data := sub m.bytes 16 (msgLen m.bytes) })

/-- READ_TIMEOUT: an outstanding read has had no response in time (R268). -/
def execReadTimeout (tag : Fin 4096) (s : State) : Res :=
  done (if !s.links.reads.any (fun r => r.tag == tag.val) then s
  else ((s.endRead tag).raise F.TTH_STATUS.read_timeout).failRead tag 0xF)

/-- ERROR_REPORT: filed in the posted-error ring (R266, R273). -/
def execErrorReport (s : State) : Res := done (match s.takeMessage (s.isHere 4) with
  | none => s
  | some (m, s) => s.filePe (msgStatus m.bytes) (msgTag m.bytes) (msgSrc m.bytes) (msgAddr m.bytes) (msgLen m.bytes))

/-- MESSAGE_FORWARD: on by dimension order (R264), or PE_UNREACHABLE. -/
def execMessageForward (s : State) : Res := done (match s.links.inbox.find? (fun m => msgDst m.bytes != s.self) with
  | none => s
  | some m => State.forwardMessage { s with links := { s.links with inbox := s.links.inbox.erase m } } m (s.laneOn m))

end Sys2Proof.Machine
end

