-- ==== Sys2Proof/Machine/Replay.lean ====
section
/-!
DEFINITION. Replay (R391-R395, R125, R366): START_REPLAY, presenting the records, and the stall warning. The end of a replay stands
with the decisions (R394) and the cancels (R395).
-/
namespace Sys2Proof.Machine

/-! Side entries -/

/-- The side entries in a list of bytes, four words each. -/
def entriesOfBytes : List Word → List (List Word)
  | a :: b :: c :: d :: l => [a, b, c, d] :: entriesOfBytes l
  | _ => []

/-- Restore a channel from its side entry (R392): scales, maximum, clamped and held; not track. -/
def State.applySide (s : State) (e : List Word) : State :=
  let w := (e.getD 0 0).toNat
  let ch := bits w 0 16
  if 6144 ≤ ch then s
  else
    let s := ((s.setScaleWord ch 0 (e.getD 1 0)).setScaleWord ch 1 (e.getD 2 0)).setReg (Reg.RDL_CH_TMAX ch) (e.getD 3 0)
    (s.setFld (F.RDL_CH_TRACK.clamped ch) (bits w 16 1)).setFld (F.RDL_CH_TRACK.held ch) (bits w 17 1)

/-- The entries of a group of the capture's side ring. -/
def State.groupEntries (s : State) (g : Nat × Nat × Nat × Bool) : List (List Word) :=
  entriesOfBytes (bytesWords (s.memRead (cold (0xE0000000 + g.2.1 % sideSize + 16)) (16 * g.2.2.1)))

/-- Do entries give every channel? -/
def fullSnapshot (es : List (List Word)) : Bool :=
  let t : Tbl Bool := es.foldl (fun t e => tset (fun _ => false) t (bits (e.getD 0 0).toNat 0 16) true) []
  (t.filter (fun e => e.1 < 6144)).length == 6144

/-! Where records come from -/

/-- Read bytes of the source: 0 the capture ring and 1 the replay input region, both in the cold frame; 2 host memory. -/
def State.sourceRead (s : State) (src a n : Nat) : List Byte × Option XFault × State :=
  if src = 2 then s.readHost true a n else (s.memRead (cold a) n, none, s)

/-- The side entries behind a record at `a` of source 1 or 2: the bytes that they take and the entries (log 47). -/
def State.sourceSides (s : State) (src a : Nat) (head : List Byte) : (Nat × List (List Word)) × Option XFault × State :=
  if !nbit (u8 head 15) 0 then ((0, []), none, s)
  else
    let (h, f, s) := s.sourceRead src (a + 9344) 16
    match f with
    | some x => ((0, []), some x, s)
    | none =>
      let n := min (u32 h 8) 12288
      let (bs, f, s) := s.sourceRead src (a + 9360) (16 * n)
      ((16 + 16 * n, entriesOfBytes (bytesWords bs)), f, s)

/-- Does the reading stay in the source? -/
def inSource (src a n : Nat) : Bool := if src = 1 then 0xF0000000 ≤ a && a + n ≤ 0xF8000000 else a + n ≤ 2 ^ 48

/-- Check `n` records from `a` on: none carries side overflow, none lies outside the source. -/
def State.recordsOk (s : State) (src : Nat) : Nat → Nat → Bool × Option XFault × State
  | 0, _ => (true, none, s)
  | n + 1, a =>
    if !inSource src a 9344 then (false, none, s)
    else
      let (h, f, s) := s.sourceRead src a 128
      match f with
      | some x => (false, some x, s)
      | none =>
        let (e, f, s) := s.sourceSides src a h
        match f with
        | some x => (false, some x, s)
        | none =>
          if nbit (u8 h 15) 1 || !inSource src a (9344 + e.1) then (false, none, s)
          else s.recordsOk src n (a + 9344 + e.1)

/-- The latest full snapshot at or before crossing `j`. -/
def State.snapshotFor (s : State) (j : Nat) : Option Nat :=
  ((s.capture.groups.filter (fun g => g.2.2.2 && g.1 ≤ j)).getLast?).map (fun g => g.1)

/-- May a replay of `n` crossings from `first` on start from the capture (R387, R392)? -/
def State.captureOk (s : State) (first n : Nat) : Bool :=
  s.capState == capFrozen && s.capture.oldest.elim false (fun o => o ≤ first) &&
    s.capture.newest.elim false (fun m => first + n ≤ m + 1) &&
    (match s.snapshotFor first with
      | none => false
      | some j => !s.capture.overflowed.any (fun x => j ≤ x && x < first + n))

/-- The riddle state at the first event of a replay from the capture (R392). -/
def State.loadSnapshot (s : State) (first : Nat) : State := match s.snapshotFor first with
  | none => s
  | some j => (s.capture.groups.filter (fun g => j ≤ g.1 && g.1 ≤ first)).foldl (fun s g =>
      (s.groupEntries g).foldl State.applySide s) s

/-! START_REPLAY -/

/-- The spills of a trace (R365, R366). -/
def traceSpills : List Word → List TraceSpill
  | a :: b :: c :: _ :: l =>
    let rest := traceSpills l
    if bits a.toNat 0 4 = 2 then ⟨bits a.toNat 4 11, bits a.toNat 15 3, bits a.toNat 18 4, b.toNat, bits c.toNat 0 16⟩ :: rest else rest
  | _ => []

/-- A reading of host memory faulted: the record names no engine, the command fails (R475). -/
def State.hostFault (s : State) (c : Cmd) (x : XFault) (ws : List Word) : State :=
  (s.recordFault (s.faultWords { engine := 0xF, queue := c.queue, op := c.op, seq := c.seq } x)).finish c.id stFaultXlat ws

/-- The replay begins. -/
def State.beginReplay (s : State) (c : Cmd) (tr : List TraceSpill) : State :=
  let s : State := { s with replay := some {
    cmd := c.id, source := c.sub, next := c.w64 0, left := c.w 2, hasTrace := c.w64 3 != 0, trace := tr } }
  (s.enter lifeReplay).wait c.id

/-- Start with the riddle state of the source, once its trace has been read (R391, R392). -/
def State.startSource (s : State) (c : Cmd) (tr : List TraceSpill) : State :=
  let a := c.w64 0
  let no : List Word := [0, 0, 0]
  if c.sub = 0 then
    if s.captureOk a (c.w 2) then (s.loadSnapshot a).beginReplay c tr else s.finish c.id stParam no
  else
    let (ok, f, s) := s.recordsOk c.sub (c.w 2) a
    match f with
    | some x => s.hostFault c x no
    | none =>
      let (h, _, s) := s.sourceRead c.sub a 128
      let (e, _, s) := s.sourceSides c.sub a h
      if ok && fullSnapshot e.2 then (e.2.foldl State.applySide s).beginReplay c tr else s.finish c.id stParam no

/-- START_REPLAY (R225, R391, R392); ECC may correct errors in the cold frame (R383). -/
def execStartReplay (q : Fin 16) (s : State) : Res :=
  done (s.command 0x13 q (fun _ => [lifeLoaded]) (fun c s =>
    let t := c.w64 3
    let no : List Word := [0, 0, 0]
    if 2 < c.sub || c.w 2 == 0 || (c.sub != 0 && !hostRange (c.w64 0) 0) || (t != 0 && !hostRange t (16 * c.w 5)) then
      s.finish c.id stParam no
    else if s.bit F.HUB_IMG_STAT.unfit then s.finish c.id stImageFit no
    else
    let s := s.when (c.sub != 2) (fun s => s.corrected 0x20000000)
    if t = 0 then s.startSource c []
    else
      let (bs, f, s) := s.readHost true t (16 * c.w 5)
      match f with
      | some x => s.hostFault c x no
      | none => s.startSource c (traceSpills (bytesWords bs))))

/-! Presentation -/

/-- The frame in the 96 bytes of a lane (R79, R81, R385). -/
def laneFrame (bs : List Byte) : LaneData :=
  let crc := BitVec.ofNat 32 (u32 bs 92)
  if u8 bs 2 = 0 then
    let h := leNat (sub bs 4 7)
    ⟨bits h 0 12, bits h 12 7, bits h 20 8, bits h 28 16, cutPayload (bits h 12 7) (sub bs 11 80), sub bs 4 87, crc⟩
  else
    let w := u32 bs 4
    ⟨bits w 0 12, bits w 12 7, bits w 19 8, 0, cutPayload (bits w 12 7) (sub bs 8 84), sub bs 4 88, crc⟩

/-- What a record gives lane `n`; `bad`: a double-bit error made every lane of the record bad (R383). -/
def recordInput (r : List Byte) (bad : Bool) (n : Nat) : Input :=
  let st := bits (u8 r (16 + n / 4)) (2 * (n % 4)) 2
  if bad then .bad
  else if st = 0 then .frame (laneFrame (sub r (128 + 96 * n) 96))
  else if st = 1 then .missing else .bad

/-- The lanes expected at the crossing of a record. -/
def recordExpected (r : List Byte) : List Nat := (List.range 96).filter (fun n => nbit (u8 r (40 + n / 8)) (n % 8))

/-- The derivations of `d` orbit boundaries (R125): from the second on every maximum is 0, so tracking channels hold. -/
def State.deriveOrbits (s : State) (d : Nat) : State :=
  let s := Nat.repeat State.deriveScales (min d 2) s
  if d ≤ 2 then s
  else s.satAdd F.RDL_HOLD_COUNT.count ((d - 2) * (allChannels.filter (fun ch => s.tracking ch != 0)).length)

/-- Must a presentation wait (R32, R393): MCLK is lost, an event is not yet emitted, a full entry queue, a full retry store? -/
def State.withheld (s : State) (m : Option Menu) : Bool :=
  s.time.held || s.presented.isSome || m.elim false (fun m => !s.roomAt (.unit m.entry m.queue) 1) ||
    [0, 1].any (fun d => 256 ≤ (s.coll.retry.filter (fun e => e.1 == d)).length)

/-- The bytes of the next record, and where the one after it stands, past the side entries behind it. -/
def State.nextRecord (s : State) (r : Replay) : (List Byte × Nat) × Option XFault × State :=
  if r.source = 0 then ((s.memRead (cold (s.recordAddr r.next)) 9344, r.next + 1), none, s)
  else
    let (bs, f, s) := s.sourceRead r.source r.next 9344
    match f with
    | some x => (([], 0), some x, s)
    | none =>
      let (e, f, s) := s.sourceSides r.source r.next bs
      ((bs, r.next + 9344 + e.1), f, s)

/-- Present a record under its own ID and tag (R392, R393): boundaries between the IDs derive first (R125). Side entries apply up to
the first event only; those that come later are not loaded (log 92). -/
def State.presentRecord (s : State) (r : Replay) (m : Menu) (bs : List Byte) (next : Nat) (bad : Bool) : State :=
  let j := leNat (sub bs 0 8)
  let orbit := u32 bs 8
  let s := match r.orbit with
    | none => s
    | some o => s.deriveOrbits ((orbit + 2 ^ 32 - o) % 2 ^ 32)
  let s := s.setWide Reg.CFM_RPL_CUR_LO j
  let s : State := { s with replay := some { r with next := next, left := r.left - 1, count := r.count + 1, orbit := some orbit, warned := false, shown := some s.xindex } }
  s.presentEvent { index := j, orbit := orbit, crossing := u16 bs 12 } (u8 bs 14) m (recordInput bs bad) (recordExpected bs) true

/-- A fault on the reading of host memory ends the replay. -/
def State.replayFault (s : State) (r : Replay) (x : XFault) : State :=
  match s.cmd r.cmd with
  | none => s.endReplay stFaultXlat []
  | some c =>
    (s.recordFault (s.faultWords { engine := 0xF, queue := c.queue, op := c.op, seq := c.seq } x)).endReplay stFaultXlat []

/-- REPLAY_PRESENT: the next event, unless it must wait or the crossing has shown one (R393); a tag without a resident menu ends the
replay (R395). `corrected` and `bad`: what ECC found in the record (R383). -/
def execReplayPresent (corrected : Fin 1169) (bad : Bool) (s : State) : Res := done (match s.replay with
  | none => s
  | some r =>
    if s.life != lifeReplay || r.left = 0 || r.shown == some s.xindex || s.withheld none then s
    else
      let (x, f, t) := s.nextRecord r
      match f with
      | some f => t.replayFault r f
      | none =>
        let j := leNat (sub x.1 0 8)
        match s.residentAt (u8 x.1 14) with
        | none => t.endReplay stState (loHi j)
        | some m =>
          if s.withheld (some m) then s
          else
            let t := (t.countEcc corrected (b2n bad)).markRecords (if bad && r.source == 0 then [j] else [])
            t.presentRecord r m x.1 x.2 (bad || (r.source == 0 && t.capture.badRecords.contains j)))

/-- REPLAY_STALL_WARN: a presentation has waited too long, once per stall (R395). -/
def execReplayStallWarn (s : State) : Res := done (match s.replay with
  | none => s
  | some r => if s.life != lifeReplay || r.left = 0 || r.warned then s
    else State.raise { s with replay := some { r with warned := true } } F.CFM_EVT.replay_stall)

end Sys2Proof.Machine
end

