-- ==== Sys2Proof/Machine/Spdm.lean ====
section
/-!
DEFINITION. The SPDM 1.2 responder (R564-R567): requests and responses of one connection. The layouts of SPDM messages are those of
SPDM 1.2, which the spec names and does not print (log 51).
-/
namespace Sys2Proof.Machine

/-- The two transports, each with its connection (R564). -/
inductive Transport where
  | doe | mctp
  deriving DecidableEq, Repr

/-- The connection of a transport. -/
def State.spdm (s : State) (t : Transport) : Spdm := match t with
  | .doe => s.mgt.doe
  | .mctp => s.mgt.mctp

/-- Replace the connection of a transport, and show its state in SEC_STAT. -/
def State.setSpdm (s : State) (t : Transport) (c : Spdm) : State := match t with
  | .doe => { s with mgt := { s.mgt with doe := c } }.setFld F.SEC_STAT.doe_state c.state
  | .mctp => { s with mgt := { s.mgt with mctp := c } }.setFld F.SEC_STAT.mctp_state c.state

/-- ERROR codes (R564, R567). -/
def seInvalid : Nat := 0x01
/-- Busy -/
def seBusy : Nat := 0x03
/-- UnexpectedRequest -/
def seUnexpected : Nat := 0x04
/-- UnsupportedRequest -/
def seUnsupported : Nat := 0x07

/-- The opening of a message: version 1.2, code, two parameters. -/
def spdmHead (code p1 p2 : Nat) : List Byte := [0x12, BitVec.ofNat 8 code, BitVec.ofNat 8 p1, BitVec.ofNat 8 p2]

/-- An ERROR response; it is counted. -/
def State.spdmError (s : State) (code : Nat) : List Byte × State := (spdmHead 0x7F code 0, s.satInc F.SEC_COUNT.errors)

/-- Byte `i` of a message. -/
def mbyte (m : List Byte) (i : Nat) : Nat := (m.getD i 0).toNat

/-- Two bytes of a message, low byte first. -/
def mhalf (m : List Byte) (i : Nat) : Nat := mbyte m i + 256 * mbyte m (i + 1)

/-- The signature over a transcript (log 12). -/
def signOver (m : List Byte) : List Byte := (List.range 96).map (Config.signature (sha384 m))

/-- The certificate chain as stored in flash (R565). -/
def State.certChain (s : State) : List Byte := s.flashRead 0x1400000 (s.fld F.SEC_CHAIN_LEN.len)

/-! Measurements (R566) -/

/-- The 64 bytes of measurement block `i`. -/
def State.measBlock (s : State) (i : Nat) : List Byte :=
  (List.range 16).flatMap (fun w => leBytes 4 (s.reg (Reg.HUB_MEAS (i - 1) w)).toNat)

/-- The DMTF value type of a block. -/
def measType (i : Nat) : Nat := if i = 1 then 0x00 else if i = 2 then 0x01 else if i = 5 then 0x83 else 0x02

/-- A block as a DMTF measurement. -/
def State.dmtfBlock (s : State) (i : Nat) : List Byte :=
  let b := s.measBlock i
  let n := mhalf b 2
  leBytes 1 i ++ leBytes 1 1 ++ leBytes 2 (n + 3) ++ leBytes 1 (measType i) ++ leBytes 2 n ++ (b.drop 16).take n

/-- All five. -/
def State.dmtfAll (s : State) : List Byte := [1, 2, 3, 4, 5].flatMap s.dmtfBlock

/-! Requests -/

/-- GET_VERSION: the connection begins anew; 1.2 is the only version. -/
def State.getVersion (s : State) (t : Transport) (m : List Byte) : List Byte × State :=
  let r : List Byte := [0x10, 0x04, 0, 0, 0, 1, 0x00, 0x12]
  (r, s.setSpdm t { s.spdm t with state := 1, setup := m ++ r, certs := [], measured := [] })

/-- GET_CAPABILITIES: CERT_CAP, CHAL_CAP, MEAS_CAP 2, CTExponent 14; messages of up to 4,096 bytes. -/
def State.getCapabilities (s : State) (t : Transport) (m : List Byte) : List Byte × State :=
  let c := s.spdm t
  if c.state != 1 then s.spdmError seUnexpected
  else
    let r := spdmHead 0x61 0 0 ++ [0, 14, 0, 0] ++ leBytes 4 0x16 ++ leBytes 4 4096 ++ leBytes 4 4096
    (r, s.setSpdm t { c with state := 2, setup := c.setup ++ m ++ r })

/-- NEGOTIATE_ALGORITHMS: DMTF, ECDSA P-384, SHA-384; InvalidRequest when a field offers none of them. -/
def State.negotiate (s : State) (t : Transport) (m : List Byte) : List Byte × State :=
  let c := s.spdm t
  if c.state != 2 then s.spdmError seUnexpected
  else if mbyte m 6 % 2 != 1 || mbyte m 8 / 128 % 2 != 1 || mbyte m 12 / 2 % 2 != 1 then s.spdmError seInvalid
  else
    let r := spdmHead 0x63 0 0 ++ leBytes 2 36 ++ [1, 0] ++ leBytes 4 4 ++ leBytes 4 0x80 ++ leBytes 4 2 ++ List.replicate 16 0#8
    (r, s.setSpdm t { c with state := 3, setup := c.setup ++ m ++ r })

/-- Note a request and its response in the transcript of certificates. -/
def State.noteCerts (s : State) (t : Transport) (bs : List Byte) : State :=
  s.setSpdm t { s.spdm t with certs := (s.spdm t).certs ++ bs, measured := [] }

/-- GET_DIGESTS: the digest of slot 0, or an empty mask (R565). -/
def State.getDigests (s : State) (t : Transport) (m : List Byte) : List Byte × State :=
  if (s.spdm t).state != 3 then s.spdmError seUnexpected
  else
    let r := if s.bit F.SEC_STAT.chain_valid then spdmHead 0x01 0 1 ++ sha384 s.certChain else spdmHead 0x01 0 0
    (r, s.noteCerts t (m ++ r))

/-- GET_CERTIFICATE: at most 1,024 bytes of the chain of slot 0. -/
def State.getCertificate (s : State) (t : Transport) (m : List Byte) : List Byte × State :=
  if (s.spdm t).state != 3 then s.spdmError seUnexpected
  else if !s.bit F.SEC_STAT.chain_valid then s.spdmError seUnsupported
  else
    let chain := s.certChain
    let off := mhalf m 4
    if mbyte m 2 % 16 != 0 || m.length < 8 || chain.length ≤ off then s.spdmError seInvalid
    else
      let n := min (mhalf m 6) (min 1024 (chain.length - off))
      let r := spdmHead 0x02 0 0 ++ leBytes 2 n ++ leBytes 2 (chain.length - off - n) ++ sub chain off n
      (r, s.noteCerts t (m ++ r))

/-- The measurement summary hash of a CHALLENGE: none, TCB (the spec does not say which blocks: a free value, log 51) or all. -/
def State.summaryHash (s : State) (kind : Nat) : List Byte × State :=
  if kind = 0 then ([], s) else if kind = 0xFF then (sha384 s.dmtfAll, s) else s.freeBytes 48

/-- CHALLENGE: a signed CHALLENGE_AUTH; the nonce comes from the random generator. -/
def State.challenge (s : State) (t : Transport) (m : List Byte) : List Byte × State :=
  let c := s.spdm t
  let kind := mbyte m 3
  if c.state != 3 then s.spdmError seUnexpected
  else if !s.bit F.SEC_STAT.chain_valid then s.spdmError seUnsupported
  else if mbyte m 2 != 0 || m.length < 36 || !(kind == 0 || kind == 1 || kind == 0xFF) then s.spdmError seInvalid
  else
    let (nonce, s) := s.freeBytes 32
    let (sum, s) := s.summaryHash kind
    let r := spdmHead 0x03 0 1 ++ sha384 s.certChain ++ nonce ++ sum ++ leBytes 2 0
    (r ++ signOver (c.setup ++ c.certs ++ m ++ r), s.setSpdm t { c with certs := [], measured := [] })

/-- GET_MEASUREMENTS (R566). -/
def State.getMeasurements (s : State) (t : Transport) (m : List Byte) : List Byte × State :=
  let c := s.spdm t
  let i := mbyte m 3
  let signed := mbyte m 2 % 2 == 1
  if c.state != 3 then s.spdmError seUnexpected
  else if m.length < (if signed then 37 else 4) || (5 < i && i != 0xFF) then s.spdmError seInvalid
  else
    let blocks := if i = 0 then [] else if i = 0xFF then s.dmtfAll else s.dmtfBlock i
    let (nonce, s) := s.freeBytes 32
    let r := spdmHead 0x60 (if i = 0 then 5 else 0) 0 ++ leBytes 1 (if i = 0 then 0 else if i = 0xFF then 5 else 1) ++
      leBytes 3 blocks.length ++ blocks ++ nonce ++ leBytes 2 0
    let log := c.measured ++ m ++ r
    if signed then (r ++ signOver (c.setup ++ log), s.setSpdm t { c with measured := [] })
    else (r, s.setSpdm t { c with measured := log })

/-- One request (R564): its response, and the state. -/
def State.spdmHandle (s : State) (t : Transport) (m : List Byte) : List Byte × State :=
  let code := mbyte m 1
  if code = 0x84 then s.getVersion t m
  else if mbyte m 0 != 0x12 then s.spdmError seUnsupported
  else match code with
    | 0xE1 => s.getCapabilities t m
    | 0xE3 => s.negotiate t m
    | 0x81 => s.getDigests t m
    | 0x82 => s.getCertificate t m
    | 0x83 => s.challenge t m
    | 0xE0 => s.getMeasurements t m
    | _ => s.spdmError seUnsupported

/-- A request on a transport: counted, and Busy while the response before it has not left (R564, R567). -/
def State.spdmRequest (s : State) (t : Transport) (m : List Byte) : List Byte × State :=
  let s := (s.satInc F.SEC_COUNT.requests).raise F.MGT_EVT.spdm_rx
  if (s.spdm t).busy then s.spdmError seBusy else s.spdmHandle t m

end Sys2Proof.Machine
end

