-- ==== Sys2Proof/Machine/Report.lean ====
section
/-!
DEFINITION. MEASURE_REPORT (R453, R518, R569).
-/
namespace Sys2Proof.Machine

/-- The 336 bytes of the measurement record (R518). -/
def State.measRecord (s : State) : List Byte :=
  let st := s.reg Reg.HUB_BOOT_STAT
  leBytes 2 1 ++ leBytes 2 336 ++ leBytes 1 5 ++ leBytes 1 (s.fld F.HUB_BOOT_STAT.slot) ++
    leBytes 1 (bits st.toNat 1 2 + 4 * s.fld F.HUB_BOOT_STAT.recovery) ++ [0] ++
    leBytes 4 (s.fld F.HUB_BOOT_COUNT.count) ++ leBytes 4 (s.reg Reg.HUB_FW_VER).toNat ++ [1, 2, 3, 4, 5].flatMap s.measBlock

/-- MEASURE_REPORT; r0: the bytes written, or needed. -/
def execMeasureReport (q : Fin 16) (s : State) : Res :=
  done (s.command 0x48 q (fun _ => anyLife) (fun c s =>
    if c.sub != 0 || !hostRange (c.w64 0) 336 then s.finish c.id stParam [0]
    else if c.w 2 < 336 then s.finish c.id stLength [336]
    else
      let (n, f, s) := s.writeHost true (c.w64 0) s.measRecord
      match f with
      | none => s.finish c.id stOk [336]
      | some x => (s.recordFault (s.faultWords { engine := 0xF, queue := c.queue, op := c.op, seq := c.seq } x)).finish c.id
          stFaultXlat [BitVec.ofNat 32 n]))

end Sys2Proof.Machine
end

