-- ==== Sys2Proof/Machine/Shadow.lean ====
section
/-!
DEFINITION. Shadow verification (R376, R396-R400, R403): SHADOW_CONFIG, mirrors, runs and comparisons.
-/
namespace Sys2Proof.Machine

/-- How many bits of a die mask are set. -/
def dieCount (m : Nat) : Nat := ((List.range 16).filter (nbit m)).length

/-- Are the dies and the offset ones that SHADOW_CONFIG takes (R396)? With no die the offset may be 0. -/
def shadowOk (dies delta : Nat) : Bool :=
  if dies = 0 then true
  else (dieCount dies == 2 || dieCount dies == 4) && delta != 0 && (List.range 16).all (fun d => !nbit dies d || 4 * delta ≤ d)

/-- Take up dies and offset: every mirror begins anew (R397). -/
def State.setShadow (s : State) (dies delta : Nat) : State :=
  let s := (s.setFld F.CFM_SHD_CFG.dies dies).setFld F.CFM_SHD_CFG.delta delta
  let s := (s.setFld F.DET_SHADOW_CFG.dies dies).setFld F.CFM_SHD_CFG.ready 0
  let s : State := { s with shadow := { s.shadow with mirrors := [] } }
  (s.image.menus.filter s.isResident).foldl State.remirror s

/-- The result word of SHADOW_CONFIG. -/
def State.shadowWords (s : State) : List Word := [s.reg Reg.CFM_SHD_CFG]

/-- SHADOW_CONFIG (R396): in LIVE only k changes, at the next orbit boundary. -/
def execShadowConfig (q : Fin 16) (s : State) : Res :=
  done (s.command 0x50 q (fun _ => [lifeLoaded, lifeArmed, lifeLive]) (fun c s =>
    let dies := bits (c.w 0) 0 16
    let delta := bits (c.w 0) 16 2
    let k := bits (c.w 0) 24 5
    let same := dies == s.fld F.CFM_SHD_CFG.dies && delta == s.fld F.CFM_SHD_CFG.delta
    if c.sub != 0 || !c.only [0x1F03FFFF] || 20 < k || !shadowOk dies delta then s.finish c.id stParam s.shadowWords
    else if dies &&& s.image.dies != 0 then s.finish c.id stImageFit s.shadowWords
    else if s.life == lifeLive then
      if !same then s.finish c.id stState s.shadowWords
      else State.finish { s with spares := { s.spares with nextK := some k } } c.id stOk s.shadowWords
    else
      let s := (s.setShadow dies delta).setFld F.DET_SHADOW_CFG.k k
      let s : State := { s with spares := { s.spares with nextK := none } }
      s.finish c.id stOk s.shadowWords))

/-! Mirrors (R397) -/

/-- A slot with `step` added to the unit address of every route that it uses: 4Δ in the die field. -/
def shiftSlot (step : Nat) (bs : List Byte) : List Byte :=
  [0, 1, 2, 3].foldl (fun bs i =>
    let o := 0x80 + 16 * i
    let r := readRoute bs o
    if !r.used then bs
    else bs.take o ++ leBytes 2 (u16 bs o - r.dest + (r.dest + step) % 2048) ++ bs.drop (o + 2)) bs

/-- Copy a menu's slots of one unit, with their LUTs, to the mirror unit. -/
def State.mirrorUnit (s : State) (m : Menu) (u : Nat) : State :=
  let t := u + s.mirrorStep
  let d := uDie t
  ((s.validSlots u).filter (fun e => e.2.tag == m.tag)).foldl (fun s e =>
    let s := s.memWrite (slotAddr d (s.site t) e.1) (shiftSlot s.mirrorStep (s.slotBytes u e.1))
    if isMu u then s
    else s.memWrite (lutAddr d (s.site t) (4 * e.1)) (s.memRead (lutAddr (uDie u) (s.site u) (4 * e.1)) 2048)) s

/-- Copy everything of a menu to its mirror units. -/
def State.mirrorMenu (s : State) (m : Menu) : State :=
  let us := ((List.range 16).filter (nbit m.dies)).flatMap (fun d =>
    (List.range 8).flatMap (fun r => (List.range 13).map (fun c => unitAddr d r c)))
  let s := us.foldl (fun s u => s.mirrorUnit m u) s
  (s.stagedBlocks.filter (fun b => b.owner == m.number)).foldl (fun s b =>
    s.memWrite (rowAddr (b.unit + s.mirrorStep) b.row) (s.memRead (rowAddr b.unit b.row) (128 * b.rows))) s

/-- SHADOW_MIRROR_DONE: the mirror of the menu of a tag is whole (R397). -/
def execShadowMirrorDone (tag : Fin 8) (s : State) : Res :=
  done (if !s.shadow.mirrors.contains tag.val then s
  else match s.residentAt tag with
    | none => s
    | some m =>
      let s := (s.mirrorMenu m).setMapBit F.CFM_SHD_CFG.ready tag true
      { s with shadow := { s.shadow with mirrors := s.shadow.mirrors.filter (fun t => t != tag.val) } })

/-! Runs (R399) -/

/-- Does a pause hold shadow work (R376)? -/
def State.shadowPaused (s : State) : Bool :=
  (List.range 16).any (fun d => nbit (s.fld F.CFM_SHD_CFG.dies) d && (s.pauseOf d).isSome)

/-- Write a row that had landed into every buffer of its zone at the mirror unit (log 50). -/
def State.mirrorRow (s : State) (e : Nat × Nat × List Byte × Bool) : State :=
  let c := s.zoneCfg e.1
  (List.range (max 1 c.bufs)).foldl (fun s b =>
    s.memWrite (rowAddr (c.unit + s.mirrorStep) (c.base + b * c.rows + e.2.1)) e.2.2.1) s

/-- Start an entry: its rows stand landed, the riddle converts its lanes again without accounting (R118) and sends the event to
the mirror of its entry unit. -/
def State.startShadow (s : State) (x : ShadowEntry) (m : Menu) : State :=
  let s : State := { s with shadow := { s.shadow with queue := s.shadow.queue.drop 1, run := some x, taps := [], ended := false } }
  let s := s.setFld F.CFM_SHD_QUEUE.entries s.shadow.queue.length
  let s := x.rows.foldl State.mirrorRow s
  let set := s.fld (F.RDL_MENU_SSEL.scale_set x.tag)
  let scale (ch : Nat) : Word := (x.scales.find? (fun e => e.1 == ch)).elim 0 (fun e => if set = 0 then e.2.1 else e.2.2)
  let d := Dest.unit (m.entry + s.mirrorStep) m.queue
  let s := s.fly d (ctlToken 0 x.tag 0 [x.ev.crossing, x.ev.index % 65536] x.ev)
  let s := x.inputs.foldl (fun s l =>
    let (ws, _, s) := s.laneToken l.1 scale l.2 false
    s.fly d { kind := 0, tag := x.tag, ctx := 0, lanes := ws, ev := x.ev }) s
  s.fly d (ctlToken 1 x.tag 0 [0] x.ev)

/-- SHADOW_RUN: the oldest entry runs, in LIVE and DRAINING, once the mirror of its own menu is whole (R399, R403). ECC
may correct errors in the entry (R383). -/
def execShadowRun (s : State) : Res :=
  done (if !s.liveOrDraining || s.shadow.run.isSome || s.shadowPaused then s
  else match s.shadow.queue with
    | [] => s
    | x :: _ => match s.image.menus.find? (fun m => m.number == x.menu) with
      | none => s
      | some m =>
        if nbit (s.fld F.CFM_SHD_CFG.ready) x.tag && (s.residentAt x.tag).any (fun r => r.number == x.menu) then
          (s.corrected 0x800000).startShadow x m
        else s)

/-! Comparisons (R399, R400) -/

/-- The first byte in which two digests differ. -/
def firstByte (a b : Nat) : Nat := ((List.range 8).find? (fun i => bits a (8 * i) 8 != bits b (8 * i) 8)).getD 0

/-- A tap differs: a mismatch record, shadow_mismatch, and a trigger of the capture (R388, R400). -/
def State.mismatch (s : State) (x : ShadowEntry) (tap live shadow : Nat) : State :=
  let ws := [packWord [(x.tag % 8, 0), (tap % 64, 3), (firstByte live shadow, 12)], BitVec.ofNat 32 x.ev.orbit,
    BitVec.ofNat 32 (x.ev.crossing % 65536), BitVec.ofNat 32 (live ^^^ shadow)]
  let s := (s.logWrite F.CFM_MM_HEAD.head F.CFM_MM_TAIL.tail (Reg.CFM_MM_LOG 0 0) 0x10 16 ws).2
  (s.raise F.DET_STATUS.shadow_mismatch).capCause x.ev.index 0x10000

/-- Compare one tap: the state, and whether it agrees or cannot be compared. -/
def State.compareTap (s : State) (x : ShadowEntry) (t : Nat × Nat × Bool) : Bool × State :=
  match (tapOf s.shadow.taps t.1).digest (s.tapSize x.tag t.1), t.2.2 with
  | some d, true => if d.toNat = t.2.1 then (true, s) else (false, s.mismatch x t.1 t.2.1 d.toNat)
  | _, _ => (true, s.satInc F.CFM_SHD_INVALID.taps)

/-- SHADOW_COMPARE: the result of the run has ended and its pieces have come (R399). -/
def execShadowCompare (s : State) : Res := done (match s.shadow.run with
  | none => s
  | some x =>
    if !s.shadow.ended || s.trellis.pieces.any (fun p => p.ev == x.ev) then s
    else
      let r := x.taps.foldl (fun r t =>
        let (ok, s) := State.compareTap r.2 x t
        (r.1 && ok, s)) (true, s)
      let s := r.2.when r.1 (fun s => s.satInc F.CFM_SHD_COUNT.verified)
      { s with shadow := { s.shadow with run := none, taps := [], ended := false } })

end Sys2Proof.Machine
end

