-- ==== Sys2Proof/Machine/Smb.lean ====
section
/-!
DEFINITION. The SMBus target with its register window (R552-R556, R571), the MCTP endpoint (R557, R569), and the DOE mailbox (R564).
The layouts of MCTP control messages and DOE objects are those of the standards that the spec names (log 51).
-/
namespace Sys2Proof.Machine

/-! The register window (R553-R555) -/

/-- The target's address byte: for a write, and for a read. -/
def State.smbAddr (s : State) (read : Bool) : Byte := BitVec.ofNat 8 (2 * s.fld F.MGT_SMB_CFG.addr + b2n read)

/-- The four bytes of a Block Write, with the bytes that PEC covers before them. -/
def State.smbWriteBytes (s : State) (code : Nat) (v : Word) : List Byte :=
  [s.smbAddr false, BitVec.ofNat 8 code, 4] ++ leBytes 4 v.toNat

/-- Is the PEC of a write as it must be (R555)? -/
def State.pecOk (s : State) (code : Nat) (v : Word) (p : Option Byte) : Bool := match p with
  | none => !s.bit F.MGT_SMB_CFG.pec_req
  | some b => b == pec (s.smbWriteBytes code v)

/-- A write transaction is discarded for its PEC. -/
def State.pecError (s : State) : State := (s.satInc F.MGT_SMB_STAT.pec_errs).raise F.MGT_EVT.smb_pec_err

/-- A complete write transaction of the window: its action, or a PEC error. The target answers from step 4 of R509 (R552). -/
def State.smbWrite (s : State) (code : Nat) (v : Word) (p : Option Byte) (act : State → State) : State :=
  if !s.up then s else if s.pecOk code v p then act s else s.pecError

/-- The window address. -/
def State.window (s : State) : Nat := s.fld F.MGT_SMB_WADDR.offset

/-- Does the window reach the offset? -/
def windowOk (o : Nat) : Bool := o < 0x2000000 && o % 4 == 0

/-- Keep the status of a window access. -/
def State.setRejected (s : State) (b : Bool) : State := { s with mgt := { s.mgt with rejected := b } }

/-- Read the register at the window address. -/
def State.windowLook (s : State) : State :=
  if windowOk s.window then (s.readReg .smb s.window).setRejected false
  else State.setRejected { s with rdata := 0 } true

/-- Write the register at the window address. -/
def State.windowPut (s : State) (v : Word) : State :=
  if windowOk s.window then (s.writeReg .smb s.window v).setRejected false else s.setRejected true

/-- Step the window address on (R553). -/
def State.windowStep (s : State) : State := s.setFld F.MGT_SMB_WADDR.offset (s.window + 4)

/-- What the target sends on a read: its bytes, and a PEC byte when the host clocks one more (R555). -/
def State.smbAnswer (s : State) (code : Nat) (bs : List Byte) (pecClocked : Bool) : State :=
  let head : List Byte := [s.smbAddr false, BitVec.ofNat 8 code, s.smbAddr true]
  { s with mgt := { s.mgt with smbOut := bs ++ (if pecClocked then [pec (head ++ bs)] else []) } }

/-- A Block Read of the window. -/
def State.windowAnswer (s : State) (code : Nat) (pecClocked : Bool) : State :=
  s.smbAnswer code (leBytes 1 4 ++ leBytes 4 s.rdata.toNat) pecClocked

/-- SMB_SET_WINDOW (0x10) -/
def execSmbSetWindow (offset : Word) (pecByte : Option Byte) (s : State) : Res :=
  done (s.smbWrite 0x10 offset pecByte (fun s => s.setFld F.MGT_SMB_WADDR.offset offset.toNat))

/-- SMB_WINDOW_READ (0x11) -/
def execSmbWindowRead (pecClocked : Bool) (s : State) : Res :=
  done (if !s.up then s else s.windowLook.windowAnswer 0x11 pecClocked)

/-- SMB_WINDOW_WRITE (0x11) -/
def execSmbWindowWrite (value : Word) (pecByte : Option Byte) (s : State) : Res :=
  done (s.smbWrite 0x11 value pecByte (fun s => s.windowPut value))

/-- SMB_WINDOW_READ_NEXT (0x12) -/
def execSmbWindowReadNext (pecClocked : Bool) (s : State) : Res :=
  done (if !s.up then s else (s.windowLook.windowAnswer 0x12 pecClocked).windowStep)

/-- SMB_WINDOW_WRITE_NEXT (0x12) -/
def execSmbWindowWriteNext (value : Word) (pecByte : Option Byte) (s : State) : Res :=
  done (s.smbWrite 0x12 value pecByte (fun s => (s.windowPut value).windowStep))

/-- SMB_STATUS_READ (0x13) -/
def execSmbStatusRead (pecClocked : Bool) (s : State) : Res :=
  done (if !s.up then s else s.smbAnswer 0x13 (leBytes 1 (b2n s.mgt.rejected)) pecClocked)

/-- SMB_TIMEOUT (R556): the target lets go of the transaction; a response that was being sent is sent anew. -/
def execSmbTimeout (s : State) : Res :=
  done (if !s.up then s
  else
    let s : State := { s with mgt := { s.mgt with smbOut := [], mctpSending := false } }
    (s.satInc F.MGT_SMB_STAT.timeouts).raise F.MGT_EVT.smb_timeout)

/-! MCTP (R557) -/

/-- A message is dropped and counted. -/
def State.dropMctp (s : State) : State := s.satInc F.MGT_MCTP_STAT.dropped

/-- Queue a response for a requester. -/
def State.answerMctp (s : State) (src : Nat) (m : List Byte) : State :=
  { s with mgt := { s.mgt with mctpWait := s.mgt.mctpWait ++ [(src, m)] } }

/-- The body of the response to a control message: completion code and data. The version numbers are a free value (log 51). -/
def State.controlBody (s : State) (m : List Byte) : List Byte × State :=
  let eid := BitVec.ofNat 8 (s.fld F.MGT_MCTP_STAT.eid)
  match mbyte m 2 with
  | 0x01 =>
    let e := mbyte m 4
    if 1 < mbyte m 3 % 4 || e = 0 || e = 0xFF || m.length < 5 then ([0x02], s)
    else ([0, 0, BitVec.ofNat 8 e, 0], s.setFld F.MGT_MCTP_STAT.eid e)
  | 0x02 => ([0, eid, 0, 0], s)
  | 0x04 =>
    if [0xFF, 0x00, 0x05].contains (mbyte m 3) && 4 ≤ m.length then
      let (v, s) := s.freeBytes 4
      ([0, 1] ++ v, s)
    else ([0x80], s)
  | 0x05 => ([0, 2, 0x00, 0x05], s)
  | _ => ([0x05], s)

/-- A control message: a request is answered. -/
def State.mctpControl (s : State) (src : Nat) (m : List Byte) : State :=
  if m.length < 3 || mbyte m 1 < 128 then s
  else
    let (b, s) := s.controlBody m
    s.answerMctp src ([0x00, BitVec.ofNat 8 (mbyte m 1 % 32), BitVec.ofNat 8 (mbyte m 2)] ++ b)

/-- An SPDM message; with endpoint ID 0 only control messages are answered. -/
def State.mctpSpdm (s : State) (src : Nat) (m : List Byte) : State :=
  if s.fld F.MGT_MCTP_STAT.eid = 0 then s
  else
    let (r, s) := s.spdmRequest .mctp (m.drop 1)
    let s := s.setSpdm .mctp { s.spdm .mctp with busy := true }
    s.answerMctp src ([0x05] ++ r)

/-- MCTP_MESSAGE: a message from the controller at address `src`; `whole`: it was reassembled without error. -/
def execMctpMessage (src : Fin 128) (whole : Bool) (bytes : List Byte) (s : State) : Res :=
  done (if !s.up || !s.bit F.MGT_SMB_CFG.mctp_en || s.power.rom then s
  else if !whole || 4096 < bytes.length then s.dropMctp
  else
    let s := (s.satInc F.MGT_MCTP_STAT.received).raise F.MGT_EVT.mctp_rx
    match mbyte bytes 0 % 128 with
    | 0x00 => s.mctpControl src bytes
    | 0x05 => s.mctpSpdm src bytes
    | _ => s.dropMctp)

/-- The response on the bus has been sent. -/
def State.mctpDone (s : State) : State := match s.mgt.mctpWait with
  | [] => s
  | x :: rest =>
    let s : State := { s with mgt := { s.mgt with mctpWait := rest, mctpSent := x :: s.mgt.mctpSent, mctpSending := false } }
    if rest.any (fun y => mbyte y.2 0 == 5) then s else s.setSpdm .mctp { s.spdm .mctp with busy := false }

/-- SMB_BUS_FREE: a response whose write was on the bus is through, and the next one starts. -/
def execSmbBusFree (s : State) : Res :=
  let s := if s.mgt.mctpSending then s.mctpDone else s
  done { s with mgt := { s.mgt with mctpSending := !s.mgt.mctpWait.isEmpty } }

/-- SMB_ARB_LOST: the whole write is repeated when the bus is free. -/
def execSmbArbLost (s : State) : Res := done { s with mgt := { s.mgt with mctpSending := false } }

/-! DOE (R564) -/

/-- A data object: PCI-SIG's vendor ID, type, length in words, payload. -/
def doeObject (kind : Nat) (body : List Byte) : List Byte :=
  let n := (body.length + 3) / 4
  leBytes 2 1 ++ leBytes 1 kind ++ [0] ++ leBytes 4 (2 + n) ++ padTo (4 * n) body

/-- Keep a response for the mailbox. -/
def State.answerDoe (s : State) (m : List Byte) : State := { s with mgt := { s.mgt with doeSent := m :: s.mgt.doeSent } }

/-- DOE Discovery: entry 0 is discovery itself, entry 1 CMA/SPDM. -/
def discovery (i : Nat) : List Byte :=
  if i = 0 then [1, 0, 0, 1] else if i = 1 then [1, 0, 1, 0] else [0xFF, 0xFF, 0, 0]

/-- DOE_OBJECT: nothing answers while the ROM serves recovery (R569), and an object of another kind has no answer. -/
def execDoeObject (bytes : List Byte) (s : State) : Res :=
  done (if !s.up || s.power.rom || !s.power.firmware || bytes.length < 8 || 4096 < bytes.length || mhalf bytes 0 != 1 then s
  else match mbyte bytes 2 with
    | 0 => s.answerDoe (doeObject 0 (discovery (mbyte bytes 8)))
    | 1 =>
      let (r, s) := s.spdmRequest .doe (bytes.drop 8)
      s.answerDoe (doeObject 1 r)
    | _ => s)

end Sys2Proof.Machine
end

