-- ==== Sys2Proof/Machine/Watch.lean ====
section
/-!
DEFINITION. The rows of the trellis, with what watches it: the stall watch with its spills (R181-R186), the spills that a replay repeats
(R366), and the wait timer (R175-R178).
-/
namespace Sys2Proof.Machine

/-- The sideband of a token (R147). -/
def Token.sideband (t : Token) : Nat := t.kind % 4 + 4 * (t.tag % 8) + 32 * (t.ctx % 16) + 512 * (t.code % 8)

/-- Everything that a unit could do next: take a control token, fire, carry out a wrap, start or go on with a pass. -/
def State.tries (s : State) (u : Nat) : List Try :=
  [s.startTry u, s.endTry u, s.nextTry u, s.fireTry u false none, s.fireTry u true none, s.wrapTry u none,
    s.triggerTry u 0, s.triggerTry u 1, s.rowTry u 0 0 false, s.rowTry u 1 0 false]

/-- Is the unit blocked on a full destination: it has something to do whose tokens do not fit (R181)? -/
def State.blocked (s : State) (u : Nat) : Bool := (s.tries u).any (fun x => x.isSome && !x.goes)

/-- Does the unit wait inside an event, for an operand or for room (R175)? -/
def State.waits (s : State) (u : Nat) : Bool := (s.unit u).inEvent && !(s.tries u).any Try.goes

/-- The units of a die, in ascending address. -/
def dieUnits (d : Nat) : List Nat := (List.range 8).flatMap (fun r => (List.range 13).map (fun c => unitAddr d r c))

/-- The victim of a stall on die `d` (R182): the lowest unit with a full queue that is blocked on a full destination, and its lowest full
queue. -/
def State.victim (s : State) (d : Nat) : Option (Nat × Nat) :=
  (dieUnits d).findSome? (fun u =>
    match [0, 1, 2, 3, 4, 5].find? (fun q => 8 ≤ ((s.unit u).queue q).length) with
    | none => none
    | some q => if s.blocked u then some (u, q) else none)

/-- Has no token entered or left a queue of the die for `n` ticks (R181)? -/
def State.stillFor (s : State) (d n : Nat) : Bool := match tget (fun _ => none) s.trellis.moved d with
  | none => false
  | some t => decide (n ≤ ticksFrom t s.time.spool)

/-- The stall condition of a die (R181): a victim, and no token that entered or left a queue in this tick. -/
def State.stallHolds (s : State) (d : Nat) : Bool := (s.victim d).isSome && s.stillFor d 1

/-- The entries of the spill area that unit `u` uses which hold a token. -/
def State.spillUsed (s : State) (u : Nat) : List Nat :=
  ((dieUnits (uDie u)).filter (fun x => uRow x == uRow u && s.spillSite x == s.spillSite u)).flatMap (fun x =>
    (s.unit x).spilled.flatMap (fun e => e.2.map (fun t => t.1)))

/-- The free entries, lowest first. -/
def State.spillFree (s : State) (u : Nat) : List Nat :=
  let used := s.spillUsed u
  (List.range 120).filter (fun j => !used.contains j)

/-- Write a token into entry `j` of the spill area of unit `u` (R183). -/
def State.writeSpill (s : State) (u j : Nat) (t : Token) : State :=
  let base := dieBase (uDie u) + 0x80000 * s.spillSite u
  (s.memWrite (base + 128 * (0xF80 + j)) t.row).memWrite (base + 128 * 0xFF8 + 2 * j) (leBytes 2 t.sideband)

/-- The spill finds too few free entries: FT_SPILL_FULL, which is recorded where it is the unit's first fault of the event
and never substituted (R186, R189, R191), and FAULT. A quarantined unit writes no record (R205). -/
def State.spillFull (s : State) (u : Nat) : State :=
  if (s.unit u).faulted || s.quarantined u then (s.satInc (F.TRL_FAULT_STAT.suppressed (uDie u))).enterFault 2
  else
    let s := (s.faultRecord u 6 (spillCol (s.physCol u)) 0 (!(s.atLimit u 0 1).isEmpty)).countFault u 6
    (s.setUnit u { s.unit u with faulted := true }).enterFault 2

/-- Has the spill area a free entry for every token of the queue (R186)? -/
def State.spillFits (s : State) (u q : Nat) : Bool := ((s.unit u).queue q).length ≤ (s.spillFree u).length

/-- Move every token of queue `q` of unit `u` to the spill area (R182, R183, R185); the trace names the event of the queue's
head token (R365). -/
def State.spillQueue (s : State) (u q : Nat) : State :=
  let v := s.unit u
  let ts := v.queue q
  if !s.spillFits u q then s.spillFull u
  else
    let d := uDie u
    let es := (s.spillFree u).zip ts
    let head := ts.head?
    let s := es.foldl (fun s e => s.writeSpill u e.1 e.2) s
    let s := s.setUnit u { v with
      queues := tset (fun _ => []) v.queues q []
      spilled := tset (fun _ => []) v.spilled q (v.spill q ++ es) }
    let f := F.TRL_SITE_SPILL.used d (s.spillSite u)
    let s := (s.setFld f (s.fld f + ts.length)).satInc (F.TRL_SPILL_STAT.spills d)
    let hw := F.TRL_SITE_SPILL.high_water d (s.spillSite u)
    let s := s.setFld hw (max (s.fld hw) (s.fld f))
    let s := (s.setFld (F.TRL_SPILL_LAST.unit d) u).setFld (F.TRL_SPILL_LAST.queue d) q
    let s := (s.setFld (F.TRL_SPILL_LAST.tokens d) ts.length).setFld (F.TRL_SPILL_LAST.mu_col d) (spillCol (s.physCol u))
    let s := (s.raise (F.TRL_FAULT_EVT.spill d)).noteMove d
    match head with
    | some t => s.trace 2 u q ts.length t.tag t.ev
    | none => s

/-- Is a logged spill due: its queue holds the logged number of tokens, the head one of the logged event (R366)? -/
def State.logDue (s : State) (x : TraceSpill) : Bool :=
  let v := s.unit x.unit
  (v.queue x.queue).length == x.tokens &&
    ((v.queue x.queue).head?).any (fun t => t.ev.orbit == x.orbit && t.ev.crossing == x.crossing)

/-- Does the replay follow a trace (R366)? -/
def State.traced (s : State) : Bool := s.bit F.DET_CTRL.spill_replay && s.replay.elim false (fun r => r.hasTrace)

/-- In a replay with a trace the stall watch makes every logged spill that is due (R366). -/
def State.logSpills (s : State) : State := match s.replay with
  | none => s
  | some r =>
    if !s.traced then s
    else r.trace.foldl (fun s x =>
      if s.logDue x then
        State.spillQueue { s with replay := s.replay.map (fun r => { r with trace := r.trace.erase x }) } x.unit x.queue
      else s) s

/-- What a row of the trellis leaves: a spill that the trace logs for it is made at once (R366). -/
def tokenRow (s t : State) : Res := unstalled s t.logSpills

/-! The rows -/

/-- DATA_TOKEN -/
def execDataToken (u : Fin 2048) (q : Fin 6) (s : State) : Res := tokenRow s (s.dataToken u q)

/-- EVENT_START -/
def execEventStart (x : UnitStep) (s : State) : Res := tokenRow s ((s.refill x.unit x.back).eventStart x.unit)

/-- EVENT_END -/
def execEventEnd (x : UnitStep) (s : State) : Res := tokenRow s ((s.refill x.unit x.back).eventEnd x.unit)

/-- CONTEXT_NEXT -/
def execContextNext (x : UnitStep) (s : State) : Res := tokenRow s ((s.refill x.unit x.back).contextNext x.unit)

/-- FLUSH -/
def execFlush (u : Fin 2048) (q : Fin 6) (s : State) : Res := tokenRow s (s.flushToken u q)

/-- BRIDGE_TRANSFER -/
def execBridgeTransfer (die : Fin 16) (u : Fin 2048) (q : Fin 6) (ok : Bool) (s : State) : Res :=
  tokenRow s (s.bridgeTransfer die u q ok)

/-- STAGE_FIRE: stage 0 of a compute unit fires on data. -/
def execStageFire (x : UnitStep) (parity : Option (Fin 1024)) (s : State) : Res :=
  tokenRow s ((s.refill x.unit x.back).fireStage0 x.unit false parity)

/-- COUNTER_WRAP -/
def execCounterWrap (x : UnitStep) (parity : Option (Fin 1024)) (s : State) : Res :=
  tokenRow s ((s.refill x.unit x.back).counterWrap x.unit parity)

/-- GENERATOR_TRIGGER -/
def execGeneratorTrigger (u : Fin 2048) (g : Fin 2) (s : State) : Res := tokenRow s (s.attempt (s.triggerTry u g))

/-- GENERATOR_ROW -/
def execGeneratorRow (x : UnitStep) (g : Fin 2) (corrected : Fin 17) (bad : Bool) (s : State) : Res :=
  tokenRow s ((s.refill x.unit x.back).generatorRow x.unit g corrected bad)

/-- ERROR_TOKEN -/
def execErrorToken (x : UnitStep) (s : State) : Res := tokenRow s ((s.refill x.unit x.back).errorToken x.unit)

/-- The stall watch of a die spills the victim once the stall condition has lasted stall_ticks, at least 32 (R181). In a replay with a trace
such a spill is beyond the log and counted (R366). -/
def State.stallSpill (s : State) (d : Nat) : State := match s.victim d with
  | none => s
  | some (u, q) =>
    if !s.stillFor d (max 32 (s.fld (F.TRL_STALL_CFG.stall_ticks d))) then s
    else (s.when (s.traced && s.spillFits u q) (fun s => s.satInc F.DET_TRACE_STAT.extra)).spillQueue u q

/-- STALL_SPILL -/
def execStallSpill (die : Fin 16) (s : State) : Res := tokenRow s (s.stallSpill die)

/-! The wait timer (R175-R178) -/

/-- Can the unit's timer stand at this value: has the time since it last restarted been long enough (R175, R176)? With no MCLK measured
nothing bounds it. -/
def State.timerCan (s : State) (u value : Nat) : Bool :=
  let khz := s.fld F.TIM_MCLK_FREQ.khz
  khz == 0 || value * (32 * khz) ≤ ticksFrom (s.unit u).since s.time.spool * 1000000

/-- Does the timer of the unit run (R175, R206)? Not for landings, not in the stall condition, and not in a sidestep pause (R371). -/
def State.timerRuns (s : State) (u : Nat) : Bool :=
  s.waits u && !(s.unit u).discard && !(isMu u && [0, 1].any (s.landingWait u)) && !s.stallHolds (uDie u) && s.spares.pauses.isEmpty

/-- A unit's timer stands at `value` corner ns. It keeps the largest value; past the bound with its
margin it faults in LIVE and counts in REPLAY. No bound, or sched_en 0: nothing to exceed. DRAINING, in which the events
of LIVE still complete, counts as LIVE (log 146). -/
def State.waitExpiry (s : State) (u value : Nat) : State :=
  let d := uDie u
  match (s.unit u).slot with
  | none => s
  | some i =>
    if !s.timerRuns u || !s.timerCan u value then s
    else
      let f := F.TRL_SITE_WAITMAX.max d (s.site u)
      let s := s.setFld f (max (s.fld f) (min value 0xFFFF))
      let b := (s.slotHeader u i).bound
      let past := b != 0 && b * (100 + s.fld (F.TRL_SCHED_CFG.margin_pct d)) < value * 100
      if !past then s
      else if s.replayDie d then s.satInc (F.TRL_SCHED_LOG.over_bound d)
      else if s.liveOrDraining && s.bit (F.TRL_SCHED_CFG.sched_en d) then
        s.faultUnit u 8 (min value 0xFFFE) (if isMu u && !((s.unit u).gen 0).active then 1 else 0) 1
      else s

/-- WAIT_TIMER_EXPIRY -/
def execWaitTimerExpiry (u : Fin 2048) (value : Nat) (s : State) : Res := unstalled s (s.waitExpiry u value)

end Sys2Proof.Machine
end

