-- ==== Sys2Proof/Machine/Dispatch.lean ====
section
/-!
DEFINITION. The meaning of every command: one arm per constructor.
-/
namespace Sys2Proof.Machine

/-- What command `i` does to everything but the queue. -/
def exec (i : Instr) (s : State) : Host.Outcome State Fault Refusal :=
  match i with
  | .registerWrite path off value => Sys2Proof.Machine.execRegisterWrite path off value s
  | .wideLowWordRead path off => Sys2Proof.Machine.execWideLowWordRead path off s
  | .badAccess bar off bytes write => Sys2Proof.Machine.execBadAccess bar off bytes write s
  | .atlasAccess off op => Sys2Proof.Machine.execAtlasAccess off op s
  | .bar4Write off data => Sys2Proof.Machine.execBar4Write off data s
  | .pllLock => Sys2Proof.Machine.execPllLock s
  | .mclkLoss => Sys2Proof.Machine.execMclkLoss s
  | .mclkFreqMeasure khz => Sys2Proof.Machine.execMclkFreqMeasure khz s
  | .crossingStart => Sys2Proof.Machine.execCrossingStart s
  | .orbitBoundary => Sys2Proof.Machine.execOrbitBoundary s
  | .orbitMarkerSeen => Sys2Proof.Machine.execOrbitMarkerSeen s
  | .orbitMarkerMissing => Sys2Proof.Machine.execOrbitMarkerMissing s
  | .timOrbitLenWrite value => Sys2Proof.Machine.execTimOrbitLenWrite value s
  | .ppsPulse refclk width => Sys2Proof.Machine.execPpsPulse refclk width s
  | .ppsMissing => Sys2Proof.Machine.execPpsMissing s
  | .wallSecondCarry => Sys2Proof.Machine.execWallSecondCarry s
  | .timWallSetWrite path hi => Sys2Proof.Machine.execTimWallSetWrite path hi s
  | .histClearTags tags => Sys2Proof.Machine.execHistClearTags tags s
  | .govMinslackReset => Sys2Proof.Machine.execGovMinslackReset s
  | .timeCountersClear => Sys2Proof.Machine.execTimeCountersClear s
  | .timeAlign q => Sys2Proof.Machine.execTimeAlign q s
  | .timeAlignMark => Sys2Proof.Machine.execTimeAlignMark s
  | .timeAlignTimeout => Sys2Proof.Machine.execTimeAlignTimeout s
  | .scheduleLaunch q => Sys2Proof.Machine.execScheduleLaunch q s
  | .launch => Sys2Proof.Machine.execLaunch s
  | .windsockRefresh die k delay valid => Sys2Proof.Machine.execWindsockRefresh die k delay valid s
  | .governorPeriod p => Sys2Proof.Machine.execGovernorPeriod p s
  | .avsWriteDone p good => Sys2Proof.Machine.execAvsWriteDone p good s
  | .avsReadDue p => Sys2Proof.Machine.execAvsReadDue p s
  | .avsReadDone p good mv current => Sys2Proof.Machine.execAvsReadDone p good mv current s
  | .resultArrival die => Sys2Proof.Machine.execResultArrival die s
  | .deadlineRelease => Sys2Proof.Machine.execDeadlineRelease s
  | .laneBitLock lane => Sys2Proof.Machine.execLaneBitLock lane s
  | .laneSignalLoss lane => Sys2Proof.Machine.execLaneSignalLoss lane s
  | .lane66bBlock lane header payload => Sys2Proof.Machine.execLane66bBlock lane header payload s
  | .lane66bFrameHunt lane => Sys2Proof.Machine.execLane66bFrameHunt lane s
  | .rawMarkerMatch lane phase => Sys2Proof.Machine.execRawMarkerMatch lane phase s
  | .rawTrialFrame lane phase words => Sys2Proof.Machine.execRawTrialFrame lane phase words s
  | .laneFrame lane words => Sys2Proof.Machine.execLaneFrame lane words s
  | .inlCntClear die value => Sys2Proof.Machine.execInlCntClear die value s
  | .inlLaneCfgWrite lane value => Sys2Proof.Machine.execInlLaneCfgWrite lane value s
  | .inlLaneAlignWrite lane value => Sys2Proof.Machine.execInlLaneAlignWrite lane value s
  | .inlXoffsetWrite die value => Sys2Proof.Machine.execInlXoffsetWrite die value s
  | .inlLaneMarkerWrite lane value => Sys2Proof.Machine.execInlLaneMarkerWrite lane value s
  | .rdlChFieldWrite ch value => Sys2Proof.Machine.execRdlChFieldWrite ch value s
  | .rdlChScaleWrite ch set value => Sys2Proof.Machine.execRdlChScaleWrite ch set value s
  | .rdlChLimitWrite ch value => Sys2Proof.Machine.execRdlChLimitWrite ch value s
  | .riddleEmit => Sys2Proof.Machine.execRiddleEmit s
  | .setScales q => Sys2Proof.Machine.execSetScales q s
  | .setScalesApply => Sys2Proof.Machine.execSetScalesApply s
  | .readQstats q => Sys2Proof.Machine.execReadQstats q s
  | .readQstatsSnapshot => Sys2Proof.Machine.execReadQstatsSnapshot s
  | .dataToken u q => Sys2Proof.Machine.execDataToken u q s
  | .eventStart x => Sys2Proof.Machine.execEventStart x s
  | .eventEnd x => Sys2Proof.Machine.execEventEnd x s
  | .contextNext x => Sys2Proof.Machine.execContextNext x s
  | .flush u q => Sys2Proof.Machine.execFlush u q s
  | .errorToken x => Sys2Proof.Machine.execErrorToken x s
  | .stageFire x parity => Sys2Proof.Machine.execStageFire x parity s
  | .counterWrap x parity => Sys2Proof.Machine.execCounterWrap x parity s
  | .bridgeTransfer die u q ok => Sys2Proof.Machine.execBridgeTransfer die u q ok s
  | .generatorTrigger u g => Sys2Proof.Machine.execGeneratorTrigger u g s
  | .generatorRow x g corrected bad => Sys2Proof.Machine.execGeneratorRow x g corrected bad s
  | .trlCntClear die value => Sys2Proof.Machine.execTrlCntClear die value s
  | .waitTimerExpiry u value => Sys2Proof.Machine.execWaitTimerExpiry u value s
  | .stallSpill die => Sys2Proof.Machine.execStallSpill die s
  | .trlFstatClear die value => Sys2Proof.Machine.execTrlFstatClear die value s
  | .loadImage q => Sys2Proof.Machine.execLoadImage q s
  | .loadImageCommit => Sys2Proof.Machine.execLoadImageCommit s
  | .fillTray q => Sys2Proof.Machine.execFillTray q s
  | .fillTrayDone => Sys2Proof.Machine.execFillTrayDone s
  | .loadFallow q => Sys2Proof.Machine.execLoadFallow q s
  | .loadFallowDone => Sys2Proof.Machine.execLoadFallowDone s
  | .selectMenu q => Sys2Proof.Machine.execSelectMenu q s
  | .menuSwitch => Sys2Proof.Machine.execMenuSwitch s
  | .vetoLevelChange low samples => Sys2Proof.Machine.execVetoLevelChange low samples s
  | .vetoWarn => Sys2Proof.Machine.execVetoWarn s
  | .decSyncCfgWrite value => Sys2Proof.Machine.execDecSyncCfgWrite value s
  | .syncRelease => Sys2Proof.Machine.execSyncRelease s
  | .syncRise => Sys2Proof.Machine.execSyncRise s
  | .syncConfirm => Sys2Proof.Machine.execSyncConfirm s
  | .syncCancel => Sys2Proof.Machine.execSyncCancel s
  | .syncLaunch => Sys2Proof.Machine.execSyncLaunch s
  | .syncStuck => Sys2Proof.Machine.execSyncStuck s
  | .flitSend p => Sys2Proof.Machine.execFlitSend p s
  | .flitReceived p bytes credits => Sys2Proof.Machine.execFlitReceived p bytes credits s
  | .ackDue p => Sys2Proof.Machine.execAckDue p s
  | .replayTimeout p => Sys2Proof.Machine.execReplayTimeout p s
  | .tthPortCfgWrite p value => Sys2Proof.Machine.execTthPortCfgWrite p value s
  | .portRetrain p => Sys2Proof.Machine.execPortRetrain p s
  | .portLanesLocked p => Sys2Proof.Machine.execPortLanesLocked p s
  | .portTrainTimeout p => Sys2Proof.Machine.execPortTrainTimeout p s
  | .portAligned p => Sys2Proof.Machine.execPortAligned p s
  | .portParam p sent => Sys2Proof.Machine.execPortParam p sent s
  | .portMeasureDone p trip far => Sys2Proof.Machine.execPortMeasureDone p trip far s
  | .portLaneLoss p lane => Sys2Proof.Machine.execPortLaneLoss p lane s
  | .remoteWrite ecc => Sys2Proof.Machine.execRemoteWrite ecc s
  | .readReq ecc => Sys2Proof.Machine.execReadReq ecc s
  | .readResp => Sys2Proof.Machine.execReadResp s
  | .errorReport => Sys2Proof.Machine.execErrorReport s
  | .messageForward => Sys2Proof.Machine.execMessageForward s
  | .readTimeout tag => Sys2Proof.Machine.execReadTimeout tag s
  | .colSelfWrite value => Sys2Proof.Machine.execColSelfWrite value s
  | .colTorusWrite value => Sys2Proof.Machine.execColTorusWrite value s
  | .survey q => Sys2Proof.Machine.execSurvey q s
  | .surveyHoldoffEnd => Sys2Proof.Machine.execSurveyHoldoffEnd s
  | .surveySettleEnd => Sys2Proof.Machine.execSurveySettleEnd s
  | .identityRequest source change => Sys2Proof.Machine.execIdentityRequest source change s
  | .identityReply source confirm words => Sys2Proof.Machine.execIdentityReply source confirm words s
  | .surveyWalkEnd => Sys2Proof.Machine.execSurveyWalkEnd s
  | .surveyConfirmEnd => Sys2Proof.Machine.execSurveyConfirmEnd s
  | .formGroup q => Sys2Proof.Machine.execFormGroup q s
  | .rollCallRecord source g image fw stamp entry dmap epoch path => Sys2Proof.Machine.execRollCallRecord source g image fw stamp entry dmap epoch path s
  | .rollCallTimeout g => Sys2Proof.Machine.execRollCallTimeout g s
  | .rollCallOutcome g kind field member epoch => Sys2Proof.Machine.execRollCallOutcome g kind field member epoch s
  | .formGroupTimeout g => Sys2Proof.Machine.execFormGroupTimeout g s
  | .retireGroup q => Sys2Proof.Machine.execRetireGroup q s
  | .feedToken die n => Sys2Proof.Machine.execFeedToken die n s
  | .chunkSend => Sys2Proof.Machine.execChunkSend s
  | .chunkReceived => Sys2Proof.Machine.execChunkReceived s
  | .rowLanding z => Sys2Proof.Machine.execRowLanding z s
  | .chunkRetry source group ordinal row => Sys2Proof.Machine.execChunkRetry source group ordinal row s
  | .collectiveDeadline => Sys2Proof.Machine.execCollectiveDeadline s
  | .collectiveCommit => Sys2Proof.Machine.execCollectiveCommit s
  | .transitIdle v => Sys2Proof.Machine.execTransitIdle v s
  | .graftGroup q => Sys2Proof.Machine.execGraftGroup q s
  | .graftApply => Sys2Proof.Machine.execGraftApply s
  | .tapDigestPiece => Sys2Proof.Machine.execTapDigestPiece s
  | .pruneUnit q => Sys2Proof.Machine.execPruneUnit q s
  | .prunePrepared => Sys2Proof.Machine.execPrunePrepared s
  | .pruneApply => Sys2Proof.Machine.execPruneApply s
  | .sidestepSwitch die => Sys2Proof.Machine.execSidestepSwitch die s
  | .restoreUnit q => Sys2Proof.Machine.execRestoreUnit q s
  | .restoreApply => Sys2Proof.Machine.execRestoreApply s
  | .captureArm q => Sys2Proof.Machine.execCaptureArm q s
  | .captureFreezeRequest q => Sys2Proof.Machine.execCaptureFreezeRequest q s
  | .captureDisarm q => Sys2Proof.Machine.execCaptureDisarm q s
  | .captureFreeze => Sys2Proof.Machine.execCaptureFreeze s
  | .captureRead q corrected bad => Sys2Proof.Machine.execCaptureRead q corrected bad s
  | .startReplay q => Sys2Proof.Machine.execStartReplay q s
  | .replayPresent corrected bad => Sys2Proof.Machine.execReplayPresent corrected bad s
  | .replayStallWarn => Sys2Proof.Machine.execReplayStallWarn s
  | .shadowConfig q => Sys2Proof.Machine.execShadowConfig q s
  | .shadowMirrorDone tag => Sys2Proof.Machine.execShadowMirrorDone tag s
  | .shadowRun => Sys2Proof.Machine.execShadowRun s
  | .shadowCompare => Sys2Proof.Machine.execShadowCompare s
  | .sqDoorbell q value => Sys2Proof.Machine.execSqDoorbell q value s
  | .cqDoorbell q value => Sys2Proof.Machine.execCqDoorbell q value s
  | .commandFetch x => Sys2Proof.Machine.execCommandFetch x s
  | .qpEnable q value => Sys2Proof.Machine.execQpEnable q value s
  | .qpDisable q value => Sys2Proof.Machine.execQpDisable q value s
  | .qpCancel q value => Sys2Proof.Machine.execQpCancel q value s
  | .identify q => Sys2Proof.Machine.execIdentify q s
  | .readState q => Sys2Proof.Machine.execReadState q s
  | .writeControl q => Sys2Proof.Machine.execWriteControl q s
  | .writeControlApply => Sys2Proof.Machine.execWriteControlApply s
  | .arm q => Sys2Proof.Machine.execArm q s
  | .startLive q => Sys2Proof.Machine.execStartLive q s
  | .liveStart => Sys2Proof.Machine.execLiveStart s
  | .drain q => Sys2Proof.Machine.execDrain q s
  | .drainApply => Sys2Proof.Machine.execDrainApply s
  | .store q => Sys2Proof.Machine.execStore q s
  | .erase q => Sys2Proof.Machine.execErase q s
  | .flashOpDone faults => Sys2Proof.Machine.execFlashOpDone faults s
  | .measureReport q => Sys2Proof.Machine.execMeasureReport q s
  | .xlatInvalidate q => Sys2Proof.Machine.execXlatInvalidate q s
  | .xlatInvalidateDone q => Sys2Proof.Machine.execXlatInvalidateDone q s
  | .moduleXfer q => Sys2Proof.Machine.execModuleXfer q s
  | .dmaResume q => Sys2Proof.Machine.execDmaResume q s
  | .dmaCancel q => Sys2Proof.Machine.execDmaCancel q s
  | .dmaChunk e => Sys2Proof.Machine.execDmaChunk e s
  | .intPendSet word value => Sys2Proof.Machine.execIntPendSet word value s
  | .intPendClear word value => Sys2Proof.Machine.execIntPendClear word value s
  | .intSrcCfgWrite source value => Sys2Proof.Machine.execIntSrcCfgWrite source value s
  | .intTgtVecWrite target value => Sys2Proof.Machine.execIntTgtVecWrite target value s
  | .intTgtThreshWrite target value => Sys2Proof.Machine.execIntTgtThreshWrite target value s
  | .intClaim path target => Sys2Proof.Machine.execIntClaim path target s
  | .intEoi target value => Sys2Proof.Machine.execIntEoi target value s
  | .intRateExpiry source => Sys2Proof.Machine.execIntRateExpiry source s
  | .powerOn => Sys2Proof.Machine.execPowerOn s
  | .coldReset => Sys2Proof.Machine.execColdReset s
  | .warmReset cause value => Sys2Proof.Machine.execWarmReset cause value s
  | .pcieReset => Sys2Proof.Machine.execPcieReset s
  | .dieReset value => Sys2Proof.Machine.execDieReset value s
  | .dieResetDone die => Sys2Proof.Machine.execDieResetDone die s
  | .firmwareStart => Sys2Proof.Machine.execFirmwareStart s
  | .safeEntry => Sys2Proof.Machine.execSafeEntry s
  | .watchdogExpiry => Sys2Proof.Machine.execWatchdogExpiry s
  | .pwrDomCtrlWrite value => Sys2Proof.Machine.execPwrDomCtrlWrite value s
  | .domainSwitchDone dom => Sys2Proof.Machine.execDomainSwitchDone dom s
  | .supplyOutOfWindow check => Sys2Proof.Machine.execSupplyOutOfWindow check s
  | .pwrFail => Sys2Proof.Machine.execPwrFail s
  | .pwrFailClear => Sys2Proof.Machine.execPwrFailClear s
  | .thermalRefresh readings => Sys2Proof.Machine.execThermalRefresh readings s
  | .smbSetWindow offset pecByte => Sys2Proof.Machine.execSmbSetWindow offset pecByte s
  | .smbWindowRead pecClocked => Sys2Proof.Machine.execSmbWindowRead pecClocked s
  | .smbWindowWrite value pecByte => Sys2Proof.Machine.execSmbWindowWrite value pecByte s
  | .smbWindowReadNext pecClocked => Sys2Proof.Machine.execSmbWindowReadNext pecClocked s
  | .smbWindowWriteNext value pecByte => Sys2Proof.Machine.execSmbWindowWriteNext value pecByte s
  | .smbStatusRead pecClocked => Sys2Proof.Machine.execSmbStatusRead pecClocked s
  | .smbTimeout => Sys2Proof.Machine.execSmbTimeout s
  | .mctpMessage src whole bytes => Sys2Proof.Machine.execMctpMessage src whole bytes s
  | .doeObject bytes => Sys2Proof.Machine.execDoeObject bytes s
  | .mgtModCfgWrite value => Sys2Proof.Machine.execMgtModCfgWrite value s
  | .modClearRequest => Sys2Proof.Machine.execModClearRequest s
  | .modControllerReset => Sys2Proof.Machine.execModControllerReset s
  | .modResetAssert assert => Sys2Proof.Machine.execModResetAssert assert s
  | .modBusFree => Sys2Proof.Machine.execModBusFree s
  | .modArbLost => Sys2Proof.Machine.execModArbLost s
  | .modBusClear high fails => Sys2Proof.Machine.execModBusClear high fails s
  | .modResetPulseEnd => Sys2Proof.Machine.execModResetPulseEnd s
  | .modSclTimeout written data => Sys2Proof.Machine.execModSclTimeout written data s
  | .modTransactionDone written data nak => Sys2Proof.Machine.execModTransactionDone written data nak s
  | .pwrFailGlitch => Sys2Proof.Machine.execPwrFailGlitch s
  | .supplyInWindow check => Sys2Proof.Machine.execSupplyInWindow check s
  | .msixUnmask vector => Sys2Proof.Machine.execMsixUnmask vector s
  | .smbBusFree => Sys2Proof.Machine.execSmbBusFree s
  | .smbArbLost => Sys2Proof.Machine.execSmbArbLost s
  | .tagHoldExpiry tag => Sys2Proof.Machine.execTagHoldExpiry tag s

end Sys2Proof.Machine
end

