-- ==== Sys2Proof/Safety.lean ====
section
/-!
DEFINITION. What the statements are made of: when the interrupt controller stands settled, when every memory stands in its
one canonical form, when a queue command starts, and what an update of the state may touch.
-/
namespace Sys2Proof.Machine

/-! The interrupt controller (R494, R497, R498) -/

/-- Source `x` acts as a level source: its origin is no pulse, and its mode is level (R494). -/
def State.levelSource (s : State) (x : Nat) : Bool :=
  decide (1 ≤ x) && decide (x < 256) && !pulseSource x && !s.bit (F.INT_SRC_CFG.edge x)

/-- The interrupt controller has followed the state: a level source that is not in service is pending exactly when its
origin is asserted or software has set it (R494, R496), and each target remembers the best claimable priority that it has
signalled (R498). -/
structure State.IntSettled (s : State) : Prop where
  level : ∀ x, s.levelSource x = true → inMap s.intc.active x = false →
    inMap s.intc.pend x = (s.origin x || inMap s.intc.soft x)
  best : ∀ k, k < 4 → tget (fun _ => 0) s.intc.best k = (s.bestOf s.intc k).2

/-! Memory -/

/-- Host memory, the memories of the atlas, the flash and the registers stand in their canonical form: equal contents are
equal data. -/
def State.memoryWf (s : State) : Bool :=
  twf hostDflt s.host.mem && twf memDflt s.mem && twf flashDflt s.flash && twf RegMap.resetVal s.regs

/-! Queue commands (R417, R421, R441) -/

/-- The row of opcode `op` starts command `c` of queue `q`: `c` is the queue's next command, nothing of its priority or
above runs, the lifecycle state is one of `lives`, the ROM does not serve the rings, no reserved bit of the entry is set (R438), and the
firmware met no inconsistency of its own as it started the command (R442). -/
structure State.Starts (s : State) (op q : Nat) (lives : List Nat) (c : Cmd) : Prop where
  next : s.startable op q = some c
  life : s.lifeIn lives = true
  rom : s.power.rom = false
  sound : c.internal = none
  plain : c.reserved = false

end Sys2Proof.Machine
end

