-- ==== Sys2Proof/Certificates/Slice0/Obligations.lean ====
section
/-!
DEFINITION. The statements for the provers. A statement whose conclusion is `exec c s = .next (State.settle t)` gives the
whole next state: `t` says what the command changes, everything else stands as before, and `settle` brings the interrupt
controller up to date (`Obligations.SettleTouchesInterruptsOnly`).
-/

open Sys2Proof Sys2Proof.Machine

/-- A step runs the front command. With command c at the front of the queue, a step is the effect of c on the state
with the queue's rest; no command is spelled by a word, so placing one changes nothing. -/
def Obligations.StepRunsTheFrontCommand : Prop :=
  (∀ (c : Instr) (rest : List Instr) (s : State),
    step { s with pending := c :: rest } = exec c { s with pending := rest }) ∧
  ∀ (s : State) (nbits w : Nat), decodeTableWord nbits w = none ∧ s.withFetchWord nbits w = s

/-- With no command waiting one spool tick passes. The model's choice (log 5): on an empty queue, while the counters
run and the crossing is not at its last tick, a step is one tick, else time stands; the ring port sends the MSI-X
messages that wait. A tick once the frames of its crossing have left adds 1 to the spool count and TIM_WALL_RATE to the
wall clock, whose carries are seconds, and touches no memory, lane, command, event or trellis state. -/
def Obligations.IdleStepIsOneTick : Prop :=
  ∀ s : State,
    (s.pending = [] → s.time.started = true → s.time.held = false → s.time.relock = false → s.time.spool % 32 < 31 →
      step s = .next s.tick.postAllMsix.settle) ∧
    (s.pending = [] → s.time.started = false ∨ s.time.held = true ∨ s.time.relock = true ∨ s.time.spool % 32 = 31 →
      step s = .next s.postAllMsix.settle) ∧
    (s.msix.due = [] → s.postAllMsix = s) ∧
    (s.time.spool % 32 ≠ 0 ∨ s.decision.lastRelease = some s.xindex → s.time.spool + 1 < 2 ^ 64 →
      s.tick.time = { s.time with
        spool := s.time.spool + 1
        wallAcc := (s.time.wallAcc + s.wide Reg.TIM_WALL_RATE_LO) % 2 ^ 64
        wallSec := (s.time.wallSec + (s.time.wallAcc + s.wide Reg.TIM_WALL_RATE_LO) / 2 ^ 64) % 2 ^ 48 } ∧
      s.tick.mem = s.mem ∧ s.tick.host = s.host ∧ s.tick.flash = s.flash ∧ s.tick.lanes = s.lanes ∧ s.tick.hub = s.hub ∧
      s.tick.trellis = s.trellis ∧ s.tick.events = s.events)

/-- Settling touches the interrupt controller alone. Bringing the interrupt controller up to date changes the
controller and what MSI-X holds and sends; every other piece of state stands, every register reads as before. -/
def Obligations.SettleTouchesInterruptsOnly : Prop :=
  ∀ (s : State) (e : Option Nat),
    s.settleWith e = { s with intc := (s.settledInts e).1, msix := (s.settledInts e).2 } ∧
    ∀ o, (s.settleWith e).reg o = s.reg o

/-- After every step the interrupt controller follows the state. Whatever command runs in whatever state, in the state
it leaves a level source that is not in service is pending exactly when its origin is asserted or software has set it,
and each target remembers the best claimable priority signalled last. -/
def Obligations.EveryStepLeavesInterruptsSettled : Prop :=
  (∀ s t : State, step s = .next t → t.IntSettled) ∧
  ∀ (c : Instr) (s : State), ∃ t, exec c s = .next t ∧ t.IntSettled

/-- The state after reset is settled, canonical and in BOOT. Right after power the interrupt controller is settled,
every memory stands in its canonical form, no command waits, the lifecycle state is BOOT, the counters hold, and every
register reads the reset value of its table. -/
def Obligations.ResetIsSettled : Prop :=
  State.reset.IntSettled ∧ State.reset.memoryWf = true ∧ State.reset.pending = [] ∧ State.reset.life = lifeBoot ∧
  State.reset.time.held = true ∧ ∀ o, State.reset.reg o = RegMap.resetVal o

/-- Each bit of a register written acts by its access type. In the word after a write, an RW or WL bit holds the bit
written, a W1C bit is cleared by a 1, a W1S bit is set by a 1, and every other bit stands, in a row whose access types
do not overlap. -/
def Obligations.AccessTypesAct : Prop :=
  ∀ (d : RegDesc) (old v : Word) (i : Nat), i < 32 →
    (d.rw.testBit i = true ∨ d.wl.testBit i = true → d.w1c.testBit i = false → d.w1s.testBit i = false →
      (rowWrite d old v).getLsbD i = v.getLsbD i) ∧
    (d.w1c.testBit i = true → d.rw.testBit i = false → d.wl.testBit i = false → d.w1s.testBit i = false →
      (rowWrite d old v).getLsbD i = (old.getLsbD i && !v.getLsbD i)) ∧
    (d.w1s.testBit i = true → d.rw.testBit i = false → d.wl.testBit i = false → d.w1c.testBit i = false →
      (rowWrite d old v).getLsbD i = (old.getLsbD i || v.getLsbD i)) ∧
    (d.rw.testBit i = false → d.wl.testBit i = false → d.w1c.testBit i = false → d.w1s.testBit i = false →
      (rowWrite d old v).getLsbD i = old.getLsbD i)

/-- A register write, and the read that follows it. On any path, a write of a one-word register of the SEC, CFM or DET
block sets it by its access types and no other register, and leaves set each W1C bit that hardware sets at the tick 0
at hand; a lower word of a wide value waits in the path's pending copy and changes no register; a read of a one-word
register answers its value; an access to an offset that no register has counts and reads 0. It says where
REGISTER_WRITE and WIDE_LOW_WORD_READ complete. -/
def Obligations.RegisterAccesses : Prop :=
  ∀ (p : Path) (o : Nat) (v : Word) (s : State), s.up = true → o % 4 = 0 →
    (∀ d, RegMap.find o = some d → d.words < 2 → o / 0x100000 = 6 ∨ o / 0x100000 = 14 ∨ o / 0x100000 = 15 →
      ∃ t, exec (.registerWrite p o v) s = .next (State.settle t) ∧
        t.reg o = (if rowWritable d then rowWrite d (s.reg o) v ||| s.freshBits o else s.reg o) ∧
        (∀ o', o' ≠ o → t.reg o' = s.reg o') ∧ { t with regs := s.regs } = s) ∧
    (∀ d, RegMap.find o = some d → 2 ≤ d.words → rowWritable d = true → d.back = 0 →
      ∃ t, exec (.registerWrite p o v) s = .next (State.settle t) ∧ t.regs = s.regs ∧
        tget noWord (t.path p).low o = some v ∧ ∀ p', p' ≠ p → t.path p' = s.path p') ∧
    (∀ d, RegMap.find o = some d → d.words < 2 → d.back = 0 → claimTarget o = none →
      exec (.wideLowWordRead p o) s = .next (State.settle { s with rdata := s.view o })) ∧
    (RegMap.find o = none →
      exec (.registerWrite p o v) s = .next (State.settle (s.accessError o)) ∧
      exec (.wideLowWordRead p o) s = .next (State.settle { s.accessError o with rdata := 0 }))

/-- Reading the lowest word of a wide value latches the higher words. A read of the lowest word of a wide value answers
that word and latches each higher word, so a later read of a higher word on that path answers what stood then, whatever
the registers hold by then; the other paths' copies stand. It says where WIDE_LOW_WORD_READ completes. -/
def Obligations.WideReadLatches : Prop :=
  ∀ (p : Path) (o k : Nat) (s : State) (d : RegDesc), s.up = true → o % 4 = 0 → RegMap.find o = some d → d.back = 0 →
    1 ≤ k → k < d.words → claimTarget o = none →
    ∃ t, exec (.wideLowWordRead p o) s = .next (State.settle t) ∧ t.rdata = s.view o ∧ t.regs = s.regs ∧
      tget noWord (t.path p).hold (o + 4 * k) = some (s.view (o + 4 * k)) ∧
      (∀ p', p' ≠ p → t.path p' = s.path p') ∧
      ∀ (d' : RegDesc) (r : State), r.path p = t.path p → d'.back ≠ 0 →
        (r.readWord p (o + 4 * k) d').rdata = s.view (o + 4 * k)

/-- An access that BAR0 and BAR2 do not perform is counted. Once firmware serves the registers, an access of a size
other than 4 or 8 bytes, or a misaligned one, counts in HUB_ACC_ERR with its offset, and so does an aligned 32-bit one
to an unassigned BAR0 offset and each half of a 64-bit one that is; a read answers 0; before, nothing is counted. It
says where BAD_ACCESS completes. -/
def Obligations.BadAccessesCount : Prop :=
  ∀ (b : Bar) (off bytes : Nat) (w : Bool) (s : State),
    let r : State := if w then s else { s with rdata := 0 }
    (s.up = true → accessFits off bytes = false → exec (.badAccess b off bytes w) s = .next (State.settle (r.accessError off))) ∧
    (s.up = true → b = .bar0 → off < 0x2000000 → RegMap.find off = none →
      (off % 4 = 0 → exec (.badAccess b off 4 w) s = .next (State.settle (r.accessError off))) ∧
      (off % 8 = 0 → RegMap.find (off + 4) = none →
        exec (.badAccess b off 8 w) s = .next (State.settle ((r.accessError off).accessError (off + 4)))) ∧
      (off % 8 = 0 → (RegMap.find (off + 4)).isSome = true →
        exec (.badAccess b off 8 w) s = .next (State.settle (r.accessError off)))) ∧
    (s.up = false → exec (.badAccess b off bytes w) s = .next (State.settle r)) ∧
    ∀ o, (s.accessError o).fld F.HUB_ACC_ERR.seen = 1 ∧
      (s.accessError o).fld F.HUB_ACC_ERR.count = min (s.fld F.HUB_ACC_ERR.count + 1) 65535

/-- PLL lock starts or resumes the count, loss of MCLK holds it. The first lock starts the spool count, the crossing
counter and the orbit counter at 0; a later one keeps them and resumes at the next crossing; a loss outside LIVE and
DRAINING, with no launch and no alignment waiting, holds the counters, sets mclk_loss and clears pll_lock; a measured
frequency is shown, and outside 19 to 51 MHz it is a loss. It says where PLL_LOCK, MCLK_LOSS and MCLK_FREQ_MEASURE
complete. -/
def Obligations.LockStartsOrResumesTheCount : Prop :=
  ∀ s : State,
    (s.power.boot ≠ 0 → s.time.held = true → s.time.started = false →
      exec .pllLock s = .next (State.settle ({ s with time := { s.time with
        held := false, started := true, spool := 0, crossing := 0, orbit := 0 } }.raise F.TIM_STATUS.pll_lock))) ∧
    (s.power.boot ≠ 0 → s.time.held = true → s.time.started = true →
      exec .pllLock s = .next (State.settle ({ s with time := { s.time with held := false, relock := true } }.raise
        F.TIM_STATUS.pll_lock))) ∧
    (s.liveOrDraining = false → s.time.launch = none → s.time.align = none →
      exec .mclkLoss s = .next (State.settle { (s.raise F.TIM_STATUS.mclk_loss).lower F.TIM_STATUS.pll_lock with
        time := { s.time with held := true, relock := false } })) ∧
    ∀ khz : BitVec 16,
      let t := ((List.range 8).foldl State.checkOutRate ((List.range 96).foldl State.checkRate
        (s.setFld F.TIM_MCLK_FREQ.khz khz.toNat))).refreshWindows
      (19000 ≤ khz.toNat → khz.toNat ≤ 51000 → exec (.mclkFreqMeasure khz) s = .next t.settle) ∧
      (khz.toNat < 19000 ∨ 51000 < khz.toNat → exec (.mclkFreqMeasure khz) s = .next t.mclkLoss.settle)

/-- The crossing counter steps, and reloads at the orbit boundary. Below the end of the orbit the crossing counter
steps by 1 and nothing else of it changes; from its last crossing it reloads, with the pending length in force: 0, or
the old length less the slip crossing, modulo the new length, when a resync waits; so k crossings after crossing 0 of
an orbit of length L it stands at k, for k below L. -/
def Obligations.CounterRunsThroughTheOrbit : Prop :=
  (∀ c : Counter, c.crossing + 1 < c.len → c.next = { c with crossing := c.crossing + 1 }) ∧
  (∀ c : Counter, c.len ≤ c.crossing + 1 → c.next.len = c.pending.getD c.len ∧ c.next.pending = none ∧ c.next.resync = none ∧
    (c.resync = none → c.next.crossing = 0) ∧
    ∀ m, c.resync = some m → c.next.crossing = (c.len - m) % c.pending.getD c.len) ∧
  ∀ (c : Counter) (k : Nat), c.crossing = 0 → k < c.len → Nat.repeat Counter.next k c = { c with crossing := k }

/-- CROSSING_START, ORBIT_BOUNDARY and a new orbit length. While the counters run, CROSSING_START closes the crossing
and steps to tick 0 of the next; ORBIT_BOUNDARY, in the last crossing of an orbit whose boundary has not come, takes
it: the crossing counter reloads and the orbit counter counts; a nonzero length written waits for the next boundary,
and 0 is ignored; with the counters held nothing happens. What hardware does at tick 0 is noted for R11 in one field
alone. It says where CROSSING_START, ORBIT_BOUNDARY and TIM_ORBIT_LEN_WRITE complete. -/
def Obligations.CrossingsStartAndOrbitsEnd : Prop :=
  ∀ s : State,
    (s.time.started = true → s.time.held = false → exec .crossingStart s = .next s.closeCrossing.stepCrossing.settle) ∧
    (s.time.held = true → exec .crossingStart s = .next s.settle ∧ exec .orbitBoundary s = .next s.settle) ∧
    (s.time.started = true → s.time.held = false → s.time.boundaryDone = false →
      s.fld F.TIM_ORBIT_LEN.len ≤ s.time.crossing + 1 →
      ∃ m, exec .orbitBoundary s = .next (State.settle
        { s.orbitBoundary with time := { s.orbitBoundary.time with fresh := m } })) ∧
    (s.stepOrbit.time.orbit = (s.time.orbit + 1) % 2 ^ 32 ∧ s.stepOrbit.time.crossing = s.counter.next.crossing ∧
      s.stepOrbit.time.lenPending = none ∧ s.stepOrbit.time.resync = none) ∧
    ∀ v : Word, s.up = true →
      (v.toNat % 65536 ≠ 0 → exec (.timOrbitLenWrite v) s =
        .next (State.settle { s with time := { s.time with lenPending := some (v.toNat % 65536) } })) ∧
      (v.toNat % 65536 = 0 → exec (.timOrbitLenWrite v) s = .next s.settle)

/-- An off-period ORBIT marker is a slip, an absent one is a miss. With orbit_en set and the orbit length not 1, and no
TIME_ALIGN waiting, a marker in crossing 0 is on period; in another crossing c it sets orbit_slip, records c, counts,
and asks for a resync; a crossing whose sample follows a high one sees none; crossing 0 that ends without a marker
counts one miss, unless an off-period marker came since the last crossing 0; no other crossing does. It says where
ORBIT_MARKER_SEEN and ORBIT_MARKER_MISSING complete. -/
def Obligations.MarkersSlipOrMiss : Prop :=
  ∀ s : State, s.time.started = true → s.time.held = false → s.orbitOn = true →
    (s.time.align = none → s.markerHigh = false → s.time.crossing = 0 → exec .orbitMarkerSeen s =
      .next (State.settle { s with time := { s.time with lastMarker := some s.xindex } })) ∧
    (s.time.align = none → s.markerHigh = false → s.time.crossing ≠ 0 → exec .orbitMarkerSeen s = .next (State.settle
      { ((s.raise F.TIM_STATUS.orbit_slip).setFld F.TIM_ORBIT_SLIP.slip_crossing s.time.crossing).satInc
          F.TIM_ORBIT_SLIP.slip_count with
        time := { s.time with lastMarker := some s.xindex, offSeen := true, resync := some s.time.crossing } })) ∧
    (s.time.lastMarker = some s.xindex ∨ (∃ k, s.time.lastMarker = some k ∧ (k + 1) % 2 ^ 59 = s.xindex) →
      exec .orbitMarkerSeen s = .next s.settle) ∧
    (s.time.crossing = 0 → s.time.offSeen = false → s.time.lastMarker ≠ some s.xindex → s.time.missed ≠ some s.xindex →
      exec .orbitMarkerMissing s = .next (State.settle
        { (s.satInc F.TIM_ORBIT_MISS.count).raise F.TIM_STATUS.orbit_missing with
          time := { s.time with missed := some s.xindex } })) ∧
    (s.time.crossing ≠ 0 ∨ s.time.offSeen = true ∨ s.time.lastMarker = some s.xindex ∨ s.time.missed = some s.xindex →
      exec .orbitMarkerMissing s = .next s.settle)

/-- PPS edges, and the wall clock that they set. A pulse under 10 samples wide counts as narrow, an edge under
90,000,000 samples after the last accepted one counts as early, and neither captures; an accepted edge captures the
spool count and the wall fraction, clears pps_missing, and puts a pending wall time in force with fraction 0, or else,
with align_on_pps set, rounds the wall clock to the nearest second; a missing pulse sets both flags; the carry out of
the fraction is one second; a write of the highest word of TIM_WALL_SET makes the time pending on any path. It says
where PPS_PULSE, PPS_MISSING, WALL_SECOND_CARRY and TIM_WALL_SET_WRITE complete, on every operand. -/
def Obligations.PpsEdgesSetTheWallClock : Prop :=
  ∀ (n w : Nat) (s : State),
    (w = 0 → exec (.ppsPulse n w) s = .next s.settle) ∧
    (w ≠ 0 → w < 10 → exec (.ppsPulse n w) s = .next (State.settle (s.satInc F.TIM_PPS_STAT.narrow_count))) ∧
    (10 ≤ w → (∃ p, s.time.lastPps = some p ∧ n < p + 90000000) →
      exec (.ppsPulse n w) s = .next (State.settle (s.satInc F.TIM_PPS_STAT.early_count))) ∧
    (10 ≤ w → (∀ p, s.time.lastPps = some p → p + 90000000 ≤ n) →
      ∃ t, exec (.ppsPulse n w) s = .next (State.settle t) ∧ t.time.lastPps = some n ∧
        t.reg Reg.TIM_PPS_CAPTURE_LO = BitVec.ofNat 32 s.time.spool ∧
        t.reg Reg.TIM_PPS_CAPTURE_HI = BitVec.ofNat 32 (s.time.spool >>> 32) ∧
        t.reg Reg.TIM_PPS_WALL_FRAC = BitVec.ofNat 32 (s.time.wallAcc / 2 ^ 32) ∧
        t.fld F.TIM_STATUS.pps_missing = 0 ∧ t.time.wallSet = none ∧ t.time.spool = s.time.spool ∧
        (∀ sec, s.time.wallSet = some sec → t.time.wallSec = sec % 2 ^ 48 ∧ t.time.wallAcc = 0 ∧
          t.fld F.TIM_STATUS.wall_set_pending = 0) ∧
        (s.time.wallSet = none → s.bit F.TIM_CTRL.align_on_pps = true → t.time.wallAcc = 0 ∧
          t.time.wallSec = (s.time.wallSec + if 2 ^ 31 ≤ s.time.wallAcc / 2 ^ 32 then 1 else 0) % 2 ^ 48) ∧
        (s.time.wallSet = none → s.bit F.TIM_CTRL.align_on_pps = false →
          t.time.wallAcc = s.time.wallAcc ∧ t.time.wallSec = s.time.wallSec) ∧
        t.mem = s.mem ∧ t.hub = s.hub) ∧
    exec .ppsMissing s =
      .next (State.settle ((s.raise F.TIM_STATUS.pps_missing).raise F.TIM_STATUS.pps_missing_seen)) ∧
    (s.time.started = true → s.time.held = false → s.time.relock = false → s.time.spool % 32 < 31 →
      2 ^ 64 ≤ s.time.wallAcc + s.wide Reg.TIM_WALL_RATE_LO → exec .wallSecondCarry s = .next s.tick.settle ∧
      (s.time.spool % 32 ≠ 0 ∨ s.decision.lastRelease = some s.xindex → s.time.wallAcc < 2 ^ 64 →
        s.tick.time.wallSec = (s.time.wallSec + 1) % 2 ^ 48 ∧
        s.tick.time.wallAcc = s.time.wallAcc + s.wide Reg.TIM_WALL_RATE_LO - 2 ^ 64)) ∧
    (s.time.wallAcc + s.wide Reg.TIM_WALL_RATE_LO < 2 ^ 64 → exec .wallSecondCarry s = .next s.settle) ∧
    ∀ (p : Path) (hi : Word),
      (s.up = true → ∃ t, exec (.timWallSetWrite p hi) s = .next (State.settle t) ∧
        t.time.wallSet = some (((tget noWord (s.path p).low Reg.TIM_WALL_SET_LO).getD
          (s.reg Reg.TIM_WALL_SET_LO)).toNat + 2 ^ 32 * (hi.toNat % 65536)) ∧
        t.fld F.TIM_STATUS.wall_set_pending = 1 ∧ t.mem = s.mem ∧ t.hub = s.hub) ∧
      (s.up = false → exec (.timWallSetWrite p hi) s = .next s.settle)

/-- The clears of TIM_HIST_CLEAR clear what they name. HIST_CLEAR_TAGS clears the histogram and the late count of each
tag it names and of no other tag; GOV_MINSLACK_RESET sets every least slack to 0x7FFF; TIME_COUNTERS_CLEAR clears the
slip, miss and discard counts; each leaves the histograms that it does not name. It says where HIST_CLEAR_TAGS,
GOV_MINSLACK_RESET and TIME_COUNTERS_CLEAR complete. -/
def Obligations.ClearsClearWhatTheyName : Prop :=
  ∀ s : State, s.up = true →
    (∀ tags : BitVec 8, ∃ t, exec (.histClearTags tags) s = .next (State.settle t) ∧
      (∀ k, k < 8 → tags.getLsbD k = true → t.fld (F.TIM_MENU_LATE_COUNT.count k) = 0 ∧
        ∀ j, j < 16 → t.fld (F.TIM_DSLACK_HIST.count k j) = 0) ∧
      (∀ k, k < 8 → tags.getLsbD k = false → t.fld (F.TIM_MENU_LATE_COUNT.count k) = s.fld (F.TIM_MENU_LATE_COUNT.count k) ∧
        ∀ j, j < 16 → t.fld (F.TIM_DSLACK_HIST.count k j) = s.fld (F.TIM_DSLACK_HIST.count k j)) ∧
      t.time = s.time ∧ t.mem = s.mem) ∧
    (∃ t, exec .govMinslackReset s = .next (State.settle t) ∧ (∀ p, p < 8 → t.fld (F.TIM_GOV_MINSLACK.minslack p) = 0x7FFF) ∧
      (∀ k j, k < 8 → j < 16 → t.fld (F.TIM_DSLACK_HIST.count k j) = s.fld (F.TIM_DSLACK_HIST.count k j)) ∧ t.time = s.time) ∧
    ∃ t, exec .timeCountersClear s = .next (State.settle t) ∧ t.fld F.TIM_ORBIT_SLIP.slip_count = 0 ∧
      t.fld F.TIM_ORBIT_MISS.count = 0 ∧ t.fld F.TIM_LATE_STAT.discarded = 0 ∧
      (∀ k j, k < 8 → j < 16 → t.fld (F.TIM_DSLACK_HIST.count k j) = s.fld (F.TIM_DSLACK_HIST.count k j)) ∧ t.time = s.time

/-- TIME_ALIGN and SCHEDULE_LAUNCH, and what ends them. A valid TIME_ALIGN waits for a marker with align_pending set;
the mark of one of the 2L + 2 crossings that follow loads spool count S and orbit O at crossing 0, whichever row brings
it; without one the last sample ends it as aborted, and not before. A valid SCHEDULE_LAUNCH is accepted with
launch_pending set; the launch, once due in ARMED, enters LIVE and posts the final completion. It says where
TIME_ALIGN, TIME_ALIGN_MARK, ORBIT_MARKER_SEEN, TIME_ALIGN_TIMEOUT, SCHEDULE_LAUNCH and LAUNCH complete. -/
def Obligations.AlignAndLaunchCommands : Prop :=
  ∀ (q : Fin 16) (c : Cmd) (s : State),
    (s.Starts 0x38 q [lifeSafe, lifeLoaded, lifeArmed] c → c.sub = 0 → c.w64 0 % 32 = 0 → (s.begun q c).orbitOn = true →
      (s.begun q c).bit F.TIM_STATUS.launch_pending = false → (s.begun q c).time.align = none →
      exec (.timeAlign q) s = .next (State.settle (State.wait { (s.begun q c).raise F.TIM_STATUS.align_pending with
        time := { (s.begun q c).time with align := some ⟨c.w64 0, c.w 2, (s.begun q c).xindex, c.id, 2 * (s.begun q c).fld F.TIM_ORBIT_LEN.len + 2⟩ } } c.id))) ∧
    (s.Starts 0x39 q [lifeArmed] c → c.sub = 0 → c.w64 0 % 32 = 0 → (s.begun q c).time.spool + 64 ≤ c.w64 0 →
      (s.begun q c).bit F.TIM_STATUS.launch_pending = false →
      exec (.scheduleLaunch q) s = .next (State.settle (State.accept
        { ((s.begun q c).raise F.TIM_STATUS.launch_pending).setWide Reg.TIM_LAUNCH_COUNT_LO (c.w64 0) with
          time := { (s.begun q c).time with launch := some (c.w64 0, c.id) } } c.id (loHi (c.w64 0))))) ∧
    (∀ l, s.launchDue = some l →
      ∃ t m, t = (s.enterLive l.2).finish l.2 stOk (loHi (l.1 / 32)) ∧
        exec .launch s = .next (State.settle { t with time := { t.time with fresh := m } })) ∧
    (s.launchDue = none → exec .launch s = .next s.settle) ∧
    (∀ w, ((s.alignTo w).time.spool = (w.spool + s.time.spool % 32) % 2 ^ 64 ∧ (s.alignTo w).time.crossing = 0 ∧
      (s.alignTo w).time.orbit = w.orbit ∧ (s.alignTo w).time.resync = none ∧ (s.alignTo w).time.lenPending = none)) ∧
    ∀ w, s.time.align = some w →
      (w.limit < s.sinceAlign w ∨ (w.limit = s.sinceAlign w ∧ 16 ≤ s.time.spool % 32) →
        exec .timeAlignTimeout s = .next (s.endAlign stAborted []).settle) ∧
      (s.sinceAlign w < w.limit ∨ (s.sinceAlign w = w.limit ∧ s.time.spool % 32 < 16) →
        exec .timeAlignTimeout s = .next s.settle) ∧
      (s.alignOpen w = false → exec .timeAlignMark s = .next s.settle) ∧
      (s.counts = true → s.orbitOn = true → s.markerHigh = false → s.sinceAlign w ≠ 0 → s.sinceAlign w ≤ w.limit →
        s.life ≠ lifeLive →
        ∃ t, t = ((((s.setFld F.TIM_ORBIT_LEN.len s.counter.nextLen).alignTo w).boundaryWork (w.spool / 32)
            (fun u => u.pruneBoundary w.orbit 0 (w.spool / 32))).followCount (w.spool / 32 + 1)).loadCount (w.spool / 32) ∧
          exec .timeAlignMark s = .next (t.endAlign stOk (loHi (32 * s.xindex))).settle ∧
          exec .orbitMarkerSeen s = .next (t.endAlign stOk (loHi (32 * s.xindex))).settle)

/-- The governor's set voltage stays inside its clamp. A period of a running governor with no AVSBus error leaves its
set voltage between min(vmin, vtop) and vtop, where vtop is vmax, or the thermal limit if it limits and is lower, and a
voltage that changes is written, or due while another write is on the bus; with no valid windsock it is vtop, and slack
is asserted; with an AVSBus error the voltage stands and slack is asserted; with gov_en clear nothing happens. It says
where GOVERNOR_PERIOD completes. -/
def Obligations.GovernorKeepsItsClamp : Prop :=
  ∀ (p : Fin 8) (s : State),
    (nbit (s.fld F.TIM_CTRL.gov_en) p = false → exec (.governorPeriod p) s = .next s.settle) ∧
    (nbit (s.fld F.TIM_CTRL.gov_en) p = true → s.bit (F.TIM_GOV_STAT.avs_err p) = true →
      ∃ t, exec (.governorPeriod p) s = .next (State.settle t) ∧ t.gov p = s.gov p ∧ t.fld (F.TIM_GOV_STAT.slack p) = 1) ∧
    (nbit (s.fld F.TIM_CTRL.gov_en) p = true → s.bit (F.TIM_GOV_STAT.avs_err p) = false →
      ∃ t, exec (.governorPeriod p) s = .next (State.settle t) ∧
        (t.gov p).volt ≤ s.vtop p ∧ min (s.fld (F.TIM_GOV_LIMIT.vmin p)) (s.vtop p) ≤ (t.gov p).volt ∧
        ((t.gov p).volt ≠ (s.gov p).volt →
          ((s.gov p).writing = none → (t.gov p).writing = some (t.gov p).volt ∧ (t.gov p).due = none) ∧
          ((s.gov p).writing ≠ none → (t.gov p).writing = (s.gov p).writing ∧ (t.gov p).due = some (t.gov p).volt)) ∧
        (s.slacks p = [] → (t.gov p).volt = s.vtop p ∧ (t.gov p).quiet = 0 ∧ t.fld (F.TIM_GOV_STAT.slack p) = 1) ∧
        (∀ k, k ≠ p.val → t.gov k = s.gov k) ∧ t.time = s.time ∧ t.mem = s.mem ∧ t.hub = s.hub)

/-- Windsock readings and AVSBus transactions. A refresh sets a windsock's delay and valid bit, and a failed one sets
sensor_fail of its governor; a good AVSBus write commits its voltage and clears the failure count, a failed one counts,
and the third in a row sets avs_err and drops what was due; a write that was due is sent when the bus is free; a
readback that is under way shows the rail's reading if it is good and counts an error if not. It says where
WINDSOCK_REFRESH, AVS_WRITE_DONE, AVS_READ_DUE and AVS_READ_DONE complete. -/
def Obligations.WindsocksAndRails : Prop :=
  ∀ (s : State) (p : Fin 8),
    (∀ (d : Fin 16) (k : Fin 8) (x : BitVec 12) (v : Bool), exec (.windsockRefresh d k x v) s = .next (State.settle
      (((s.setFld (F.TIM_WINDSOCK.delay d k) x.toNat).setFld (F.TIM_WINDSOCK.valid d k) (b2n v)).when (!v)
        (fun s => s.raise (F.TIM_GOV_STAT.sensor_fail (d / 2)))))) ∧
    ((s.gov p).writing = none → ∀ g, exec (.avsWriteDone p g) s = .next s.settle) ∧
    (∀ v, (s.gov p).writing = some v →
      ((s.gov p).due = none → exec (.avsWriteDone p true) s =
        .next (State.settle (s.setGov p { s.gov p with writing := none, committed := some v, fails := 0 }))) ∧
      (∀ x, (s.gov p).due = some x → s.bit (F.TIM_GOV_STAT.avs_err p) = false → exec (.avsWriteDone p true) s = .next
        (State.settle ((s.setGov p { s.gov p with writing := none, committed := some v, fails := 0 }).avsWrite p x))) ∧
      ((s.gov p).due = none → (s.gov p).fails + 1 < 3 → exec (.avsWriteDone p false) s = .next (State.settle
        ((s.setGov p { s.gov p with writing := none, fails := (s.gov p).fails + 1 }).satInc F.PWR_AVS_STAT.errors))) ∧
      (2 ≤ (s.gov p).fails → ∃ t, exec (.avsWriteDone p false) s = .next (State.settle t) ∧
        t.fld (F.TIM_GOV_STAT.avs_err p) = 1 ∧ (t.gov p).writing = none ∧ (t.gov p).due = none)) ∧
    (∀ x, (s.gov p).writing = none → s.avsWrite p x =
      (s.setGov p { s.gov p with volt := x, writing := some x, due := none }).setFld (F.TIM_GOV_STAT.vset p) x) ∧
    ((s.gov p).committed.isSome = true → (s.gov p).writing = none →
      exec (.avsReadDue p) s = .next (State.settle (s.setGov p { s.gov p with reading := true }))) ∧
    ∀ mv i : BitVec 16, (s.gov p).reading = true →
      exec (.avsReadDone p true mv i) s = .next (State.settle (((s.setGov p { s.gov p with reading := false }).setFld
        (F.PWR_AVS_READ.mv p) mv.toNat).setFld (F.PWR_AVS_READ.current p) i.toNat)) ∧
      exec (.avsReadDone p false mv i) s = .next (State.settle ((s.setGov p { s.gov p with reading := false }).satInc
        F.PWR_AVS_STAT.errors))

/-- A lane climbs from CDR to LOCKED and falls back on signal loss. Bit lock at a permitted rate takes a lane from CDR
to CAND in Raw-W and to BLOCK_HUNT in 66B; loss of signal takes it from any state but DOWN to CDR; the 64th valid
header in a row in BLOCK_HUNT gives FRAME_HUNT, one before it counts and an invalid one starts the count again; the
eighth header hit in FRAME_HUNT, twelve blocks after the one before, gives LOCKED; no other lane changes its state. It
says where LANE_BIT_LOCK, LANE_SIGNAL_LOSS, LANE_66B_BLOCK and LANE_66B_FRAME_HUNT complete. -/
def Obligations.LanesClimbToLock : Prop :=
  ∀ (n : Fin 96) (s : State),
    let lockedTo := fun (o : Host.Outcome State Fault Refusal) (st : Nat) =>
      ∃ t, o = .next t ∧ t.laneState n = st ∧ t.time = s.time ∧ t.mem = s.mem ∧ t.hub = s.hub ∧
        ∀ k, k < 96 → k ≠ n.val → t.laneState k = s.laneState k ∧ t.lane k = s.lane k
    (s.laneState n = lsCdr → s.laneRateOk n = true →
      lockedTo (exec (.laneBitLock n) s) (if s.rawMode n then lsCand else lsBlockHunt)) ∧
    (s.laneState n = lsCdr → s.laneRateOk n = false →
      exec (.laneBitLock n) s = .next (State.settle (s.raise (F.INL_LANE_EVT.rate_err (n / 48) (n % 48))))) ∧
    (s.laneState n ≠ lsDown → lockedTo (exec (.laneSignalLoss n) s) lsCdr) ∧
    (∀ (h : BitVec 2) (p : BitVec 64), s.laneState n = lsBlockHunt → s.rawMode n = false →
      s.bit (F.INL_LANE_CFG.rx_invert (n / 48) (n % 48)) = false →
      ((h = 1 ∨ h = 2) → (s.lane n).hdrCount = 63 → lockedTo (exec (.lane66bBlock n h p) s) lsFrameHunt) ∧
      ((h = 1 ∨ h = 2) → (s.lane n).hdrCount < 63 → ∃ t, exec (.lane66bBlock n h p) s = .next t ∧
        (t.lane n).hdrCount = (s.lane n).hdrCount + 1 ∧ t.laneState n = lsBlockHunt) ∧
      ((h = 0 ∨ h = 3) → ∃ t, exec (.lane66bBlock n h p) s = .next t ∧ (t.lane n).hdrCount = 0 ∧
        t.laneState n = lsBlockHunt)) ∧
    (∀ b k, s.laneState n = lsFrameHunt → (s.lane n).newest = some b → isHeaderBlock b = true →
      (s.lane n).cand = some (k, 7) → k = 12 → lockedTo (exec (.lane66bFrameHunt n) s) lsLocked)

/-- Raw-W markers make candidates, and frames confirm or drop them. In CAND a marker at a new phase makes a candidate
while fewer than four exist, and counts an overflow when four do; at the phase of a candidate it changes nothing. A
frame that begins with the marker brings its candidate one frame further, the eighth of them locks the lane at that
phase, a frame without the marker drops it, and a third CRC failure drops and counts it. It says where RAW_MARKER_MATCH
and RAW_TRIAL_FRAME complete. -/
def Obligations.RawCandidates : Prop :=
  ∀ (n : Fin 96) (ph : Fin 768) (s : State), s.laneState n = lsCand →
    ((∀ c ∈ (s.lane n).cands, c.phase ≠ ph.val) →
      ((s.lane n).cands.length < 4 → exec (.rawMarkerMatch n ph) s =
        .next (State.settle (s.setCands n ((s.lane n).cands ++ [{ phase := ph }])))) ∧
      (4 ≤ (s.lane n).cands.length → exec (.rawMarkerMatch n ph) s =
        .next (State.settle (s.satInc (F.INL_LANE_CAND.cand_overflow (n / 48) (n % 48)))))) ∧
    ((∃ c ∈ (s.lane n).cands, c.phase = ph.val) → exec (.rawMarkerMatch n ph) s = .next s.settle) ∧
    ∀ (c : Cand) (ws : List Word), (s.lane n).cands.find? (fun c => c.phase == ph.val) = some c →
      let others := (s.lane n).cands.filter (fun c => c.phase != ph.val)
      let w := s.rawWords n ws
      let fails := if rawCrcOk w then c.fails else c.fails + 1
      (s.rawMarker n w = false → exec (.rawTrialFrame n ph ws) s = .next (State.settle (s.setCands n others))) ∧
      (s.rawMarker n w = true → fails < 3 → c.frames + 1 < 8 →
        exec (.rawTrialFrame n ph ws) s = .next (State.settle (s.setCands n ((s.lane n).cands.map (fun x =>
          if x.phase = ph.val then { x with frames := c.frames + 1, fails := fails } else x))))) ∧
      (s.rawMarker n w = true → fails < 3 → 7 ≤ c.frames →
        exec (.rawTrialFrame n ph ws) s = .next (State.settle (s.gainLock n 0 (some ph.val)))) ∧
      (s.rawMarker n w = true → 3 ≤ fails →
        exec (.rawTrialFrame n ph ws) s = .next (State.settle ((s.setCands n others).satInc
          (F.INL_LANE_CAND.cand_drop_crc (n / 48) (n % 48)))))

/-- A frame is filed when it passes every check, and counted for the first it fails. A completed frame of a LOCKED lane
is checked and enters the lock statistics; a malformed one counts form_err, one with a bad CRC crc_err, one longer than
its capacity len_err, one outside the alignment window win_err, and each leaves every good frame filed; a frame that
passes stands in the slot of the smallest crossing of the window whose expected header value it carries, a second one
there counts as a duplicate. It says where LANE_FRAME completes, in every state. -/
def Obligations.FramesAreCheckedInOrder : Prop :=
  (∀ (n : Fin 96) (ws : List Word) (s : State), s.laneState n = lsLocked →
    (s.rawMode n = true → exec (.laneFrame n ws) s = .next (State.settle
      ((s.checkFrame n (s.seeRaw n (s.rawWords n ws))).frameStats n (s.seeRaw n (s.rawWords n ws))))) ∧
    (s.rawMode n = false → 12 ≤ (s.lane n).blocks.length → exec (.laneFrame n ws) s = .next (State.settle
      (((s.setLane n { s.lane n with blocks := (s.lane n).blocks.drop 12 }).checkFrame n
        (see66 ((s.lane n).blocks.take 12))).frameStats n (see66 ((s.lane n).blocks.take 12))))) ∧
    (s.rawMode n = false → (s.lane n).blocks.length < 12 → exec (.laneFrame n ws) s = .next s.settle)) ∧
  (∀ (n : Fin 96) (ws : List Word) (s : State), s.laneState n ≠ lsLocked → exec (.laneFrame n ws) s = .next s.settle) ∧
  ∀ (n : Nat) (f : Seen) (s : State),
    let d := n / 48
    let i := n % 48
    (f.formOk = false → s.checkFrame n f = (s.satInc (F.INL_LANE_ERR1.form_err d i)).markBad n) ∧
    (f.formOk = true → f.crcOk = false → s.checkFrame n f = (s.satInc (F.INL_LANE_ERR0.crc_err d i)).markBad n) ∧
    (f.formOk = true → f.crcOk = true → f.capacity < f.data.plen →
      s.checkFrame n f = (s.satInc (F.INL_LANE_ERR1.len_err d i)).markBad n) ∧
    (f.formOk = true → f.crcOk = true → f.data.plen ≤ f.capacity →
      (s.fileAt n f.data.xingLo = none → s.checkFrame n f = (s.satInc (F.INL_LANE_ERR2.win_err d i)).markBad n) ∧
      (∀ a g, s.fileAt n f.data.xingLo = some a → s.slot n a = .good g →
        s.checkFrame n f = (s.satInc (F.INL_LANE_ERR2.dup d i)).markBad n) ∧
      ∀ a, s.fileAt n f.data.xingLo = some a → (∀ g, s.slot n a ≠ .good g) → s.joined n (s.nominal n) = true →
        (s.checkFrame n f).slot n a = .good f.data ∧
        (∃ j, a = s.xindex + 1 + s.fld (F.INL_LANE_ALIGN.depth d i) + j ∧ j ≤ s.fld (F.INL_LANE_ALIGN.win d i) ∧
          s.expected (1 + s.fld (F.INL_LANE_ALIGN.depth d i) + j) = f.data.xingLo ∧
          ∀ j', j' < j → s.expected (1 + s.fld (F.INL_LANE_ALIGN.depth d i) + j') ≠ f.data.xingLo) ∧
        ∀ k, k % 64 ≠ a % 64 → (s.checkFrame n f).slot n k = s.slot n k) ∧
    ∀ k g, s.slot n k = .good g → (s.markBad n).slot n k = .good g

/-- The lane registers that refuse some writes. A marker of all zeros or all ones, a depth and window past 63, and in
LIVE or DRAINING an alignment, an offset or a change of mode are ignored with cfg_err; a permitted write takes effect:
both copies of the offset are set together, clearing en takes the lane DOWN, setting it takes a DOWN lane whose die is
on to CDR, and so does a change of mode; INL_CNT_CLEAR with bit 0 set clears the counters of its die and of no other,
and else clears none. It says where INL_LANE_MARKER_WRITE, INL_LANE_ALIGN_WRITE, INL_XOFFSET_WRITE, INL_CNT_CLEAR and
INL_LANE_CFG_WRITE complete. -/
def Obligations.LaneRegisterRules : Prop :=
  ∀ (n : Fin 96) (v : Word) (s : State), s.up = true →
    let d := n.val / 48
    let i := n.val % 48
    ((v = 0 ∨ v = 0xFFFFFFFF) → exec (.inlLaneMarkerWrite n v) s = .next (State.settle (s.raise (F.INL_LANE_EVT.cfg_err d i)))) ∧
    (v ≠ 0 → v ≠ 0xFFFFFFFF → exec (.inlLaneMarkerWrite n v) s = .next (State.settle (s.setReg (Reg.INL_LANE_MARKER d i) v))) ∧
    ((s.liveOrDraining = true ∨ 63 < v.toNat % 64 + v.toNat / 256 % 4) →
      exec (.inlLaneAlignWrite n v) s = .next (State.settle (s.raise (F.INL_LANE_EVT.cfg_err d i)))) ∧
    (s.liveOrDraining = false → v.toNat % 64 + v.toNat / 256 % 4 ≤ 63 →
      exec (.inlLaneAlignWrite n v) s = .next (State.settle (s.setReg (Reg.INL_LANE_ALIGN d i) (v &&& 0x33F)))) ∧
    (∀ die : Fin 2,
      (s.liveOrDraining = false → exec (.inlXoffsetWrite die v) s = .next (State.settle
        ((s.setReg (Reg.INL_XOFFSET 0) (v &&& 0xFFF)).setReg (Reg.INL_XOFFSET 1) (v &&& 0xFFF)))) ∧
      (s.liveOrDraining = true → ∃ t, exec (.inlXoffsetWrite die v) s = .next (State.settle t) ∧
        t.reg (Reg.INL_XOFFSET 0) = s.reg (Reg.INL_XOFFSET 0) ∧ t.reg (Reg.INL_XOFFSET 1) = s.reg (Reg.INL_XOFFSET 1)) ∧
      (v.toNat % 2 = 1 → ∃ t, exec (.inlCntClear die v) s = .next (State.settle t) ∧
        (∀ k j, k < 48 → j < 6 → t.reg (Reg.INL_LANE_ERR0 die k + 4 * j) = 0 ∧
          ∀ d', d' < 2 → d' ≠ die.val → t.reg (Reg.INL_LANE_ERR0 d' k + 4 * j) = s.reg (Reg.INL_LANE_ERR0 d' k + 4 * j)) ∧
        t.lanes = s.lanes ∧ t.mem = s.mem) ∧
      (v.toNat % 2 = 0 → exec (.inlCntClear die v) s = .next (State.settle (s.setReg (Reg.INL_CNT_CLEAR die) 0)))) ∧
    (s.liveOrDraining = true → nbit (s.reg (Reg.INL_LANE_CFG d i) ^^^ (v &&& 0x1FF)).toNat 1 = true →
      exec (.inlLaneCfgWrite n v) s = .next (State.settle (s.raise (F.INL_LANE_EVT.cfg_err d i)))) ∧
    (nbit (s.reg (Reg.INL_LANE_CFG d i) ^^^ (v &&& 0x1FF)).toNat 1 = false → v.toNat % 2 = 0 →
      ∃ t, exec (.inlLaneCfgWrite n v) s = .next (State.settle t) ∧ t.laneState n = lsDown) ∧
    ((s.liveOrDraining = false ∨ nbit (s.reg (Reg.INL_LANE_CFG d i) ^^^ (v &&& 0x1FF)).toNat 1 = false) → v.toNat % 2 = 1 →
      s.laneState n = lsDown → ∃ t, exec (.inlLaneCfgWrite n v) s = .next (State.settle t) ∧
        t.laneState n = (if s.lanePowered n then lsCdr else lsDown) ∧ t.reg (Reg.INL_LANE_CFG d i) = v &&& 0x1FF) ∧
    (s.liveOrDraining = false → nbit (s.reg (Reg.INL_LANE_CFG d i) ^^^ (v &&& 0x1FF)).toNat 1 = true → v.toNat % 2 = 1 →
      s.laneState n ≠ lsDown → ∃ t, exec (.inlLaneCfgWrite n v) s = .next (State.settle t) ∧ t.laneState n = lsCdr ∧
        t.reg (Reg.INL_LANE_CFG d i) = v &&& 0x1FF) ∧
    (nbit (s.reg (Reg.INL_LANE_CFG d i) ^^^ (v &&& 0x1FF)).toNat 1 = false → v.toNat % 2 = 1 → s.laneState n ≠ lsDown →
      exec (.inlLaneCfgWrite n v) s = .next (State.settle (s.setReg (Reg.INL_LANE_CFG d i) (v &&& 0x1FF))))

/-- Conversion rounds half to even and saturates to the format. The quotient of a conversion lies within half a divisor
of the exact one, and on a tie it is even; a saturating channel limits a value to the ends of its format, marks it
exactly when it lies outside, and passes a value inside unchanged; a wrapping channel keeps the low bits. -/
def Obligations.ConversionRoundsAndSaturates : Prop :=
  (∀ (n : Int) (d : Nat), 0 < d →
    2 * (roundHalfEven n d * d - n) ≤ d ∧ -(d : Int) ≤ 2 * (roundHalfEven n d * d - n) ∧
    (2 * (roundHalfEven n d * d - n) = d ∨ 2 * (roundHalfEven n d * d - n) = -(d : Int) → roundHalfEven n d % 2 = 0)) ∧
  ∀ (fmt : Nat) (v : Int),
    -(2 ^ (fmtWidth fmt - 1)) ≤ (limitTo fmt true v).1 ∧ (limitTo fmt true v).1 ≤ 2 ^ (fmtWidth fmt - 1) - 1 ∧
    (-(2 ^ (fmtWidth fmt - 1)) ≤ v → v ≤ 2 ^ (fmtWidth fmt - 1) - 1 → limitTo fmt true v = (v, false)) ∧
    (v < -(2 ^ (fmtWidth fmt - 1)) → limitTo fmt true v = (-(2 ^ (fmtWidth fmt - 1)), true)) ∧
    (2 ^ (fmtWidth fmt - 1) - 1 < v → limitTo fmt true v = (2 ^ (fmtWidth fmt - 1) - 1, true)) ∧
    (limitTo fmt false v).2 = false ∧ ((limitTo fmt false v).1 - v) % 2 ^ fmtWidth fmt = 0

/-- The channel registers, and the emission of an event. In LIVE or DRAINING, or with a zero multiplier, a channel's
field, scale or limit write is ignored with cfg_err; a permitted one sets the register. Emission of the presented event
sends EVENT_START first and EVENT_END last to the entry queue of its menu and ends the presentation; with nothing
presented, or in a REPLAY that MCLK loss stalls, it changes nothing. It says where RDL_CH_FIELD_WRITE,
RDL_CH_SCALE_WRITE, RDL_CH_LIMIT_WRITE and RIDDLE_EMIT complete. -/
def Obligations.RiddleRegistersAndEmission : Prop :=
  ∀ (ch : Fin 6144) (set : Fin 2) (v : Word) (s : State), s.up = true →
    (s.liveOrDraining = true →
      exec (.rdlChFieldWrite ch v) s = .next (State.settle (s.raise F.RDL_STATUS.cfg_err)) ∧
      exec (.rdlChScaleWrite ch set v) s = .next (State.settle (s.raise F.RDL_STATUS.cfg_err)) ∧
      exec (.rdlChLimitWrite ch v) s = .next (State.settle (s.raise F.RDL_STATUS.cfg_err))) ∧
    (v.toNat % 1024 = 0 → exec (.rdlChScaleWrite ch set v) s = .next (State.settle (s.raise F.RDL_STATUS.cfg_err))) ∧
    (s.liveOrDraining = false →
      (v.toNat % 1024 ≠ 0 → exec (.rdlChScaleWrite ch set v) s = .next (State.settle (s.setScaleWord ch set v))) ∧
      (v.toNat % 1024 ≠ 0 → v.toNat / 65536 % 1024 ≠ 0 →
        exec (.rdlChLimitWrite ch v) s = .next (State.settle (s.setReg (Reg.RDL_CH_LIMIT ch) v))) ∧
      (v.toNat / 2 ^ 31 = 0 → v.toNat / 2 ^ 17 % 4 ≠ 3 → v.toNat / 2 ^ 20 % 4 ≠ 3 →
        exec (.rdlChFieldWrite ch v) s = .next (State.settle (s.setReg (Reg.RDL_CH_FIELD ch) (v &&& 0x803FFFFF))))) ∧
    (s.presented = none ∨ s.stalled = true → exec .riddleEmit s = .next s.settle) ∧
    ∀ p e m, s.stalled = false → s.presented = some p → s.events.find? (fun e => e.index == p.index) = some e →
      s.image.menus.find? (fun m => some m.number == some e.menu) = some m →
      ∃ t body, exec .riddleEmit s = .next (State.settle t) ∧ t.presented = none ∧
        t.trellis.flight.map (fun f => f.tok) = s.trellis.flight.map (fun f => f.tok) ++
          [ctlToken 0 p.tag 0 [p.ev.crossing, p.ev.index % 65536] p.ev] ++ body ++ [ctlToken 1 p.tag 0 [0] p.ev] ∧
        body.length = p.lanes.length ∧ t.time = s.time ∧ t.hub = s.hub ∧ t.mem = s.mem

/-- SET_SCALES and READ_QSTATS, and their crossing boundary. A valid SET_SCALES waits, and at its crossing its first
due instance writes its entries and completes with their number, after a boundary that is still to come; a valid
READ_QSTATS takes an engine and its snapshot is taken at the next crossing boundary. It says where SET_SCALES,
SET_SCALES_APPLY, READ_QSTATS_SNAPSHOT and READ_QSTATS complete. -/
def Obligations.ScaleAndStatisticsCommands : Prop :=
  ∀ (q : Fin 16) (c : Cmd) (s : State),
    (s.Starts 0x30 q [lifeLoaded, lifeArmed, lifeLive, lifeDraining] c → c.sub = 0 → scalePairsOk (c.words.drop 2) = true →
      s.farEnough (c.w64 0) = true →
      (∀ e ∈ scaleEntries (c.words.drop 2), e.1 < 6144 ∧ e.2.2.toNat % 1024 ≠ 0) →
      exec (.setScales q) s = .next (State.settle (((s.begun q c).addEffect
        ⟨c.w64 0, c.id, .setScales (scaleEntries (c.words.drop 2))⟩).wait c.id))) ∧
    (∀ e es t, s.boundaryWaits = false → s.takeDue isSetScales = some (e, t) → e.kind = .setScales es →
      exec .setScalesApply s = .next (State.settle (t.runScales e es))) ∧
    (∀ e t first n clear a, s.presented = none → s.takeDue isQstats = some (e, t) → e.kind = .qstats first n clear a →
      exec .readQstatsSnapshot s = .next (State.settle (t.runQstats e first n clear))) ∧
    let first := c.w 0
    let n := min (c.w 1 % 8192) (6144 - first)
    let u := (s.begun q c).startEngine c [⟨.buffer, .hostVirtual, 0, 0, c.w64 2, 16 * n⟩]
    ∀ e, s.Starts 0x31 q [lifeLoaded, lifeArmed, lifeLive, lifeDraining, lifeReplay] c → c.sub = 0 →
      c.only [0x1FFF, 0x11FFF] = true → c.w 1 % 8192 ≠ 0 → c.w 1 % 8192 ≤ 6144 → first < 6144 →
      hostRange (c.w64 2) (16 * n) = true → (u.engineIn .running).find? (fun e => (u.engine e).cmd == c.id) = some e →
      exec (.readQstats q) s = .next (State.settle ((u.setEngine e { u.engine e with dataWait := true }).addEffect
        ⟨u.xindex + 1, c.id, .qstats first n (nbit (c.w 1) 16) (c.w64 2)⟩))

/-- Tokens enter their input queue in order while it has room. The oldest token on its way to an input enters it while
the queue holds fewer than 8 and no sidestep pause holds it; a full queue keeps it on its way. A data operand on a
non-primary input joins the end of its queue and touches no other unit; before EVENT_START of its input it is a
protocol fault. FLUSH empties a unit. A transfer across a bridge on the token's way that passes clears the failure
count; one that fails is counted, and the third in a row faults the unit that receives it in the event. Where a
replay's trace logs a spill that is then due, the row makes it; without a trace to follow there is none. It says where
DATA_TOKEN, FLUSH and BRIDGE_TRANSFER complete. -/
def Obligations.TokensQueueInOrder : Prop :=
  ∀ (u : Fin 2048) (q : Fin 6) (s : State), s.stalled = false →
    (∀ f s', s.takeFlight (.unit u q) = some (f, s') →
      (s.waitsAt (uDie u) f = false → ((s.unit u).queue q).length < 8 →
        exec (.dataToken u q) s = .next (s'.arrive u q f.tok f.ctl).logSpills.settle) ∧
      (8 ≤ ((s.unit u).queue q).length ∨ s.waitsAt (uDie u) f = true →
        exec (.dataToken u q) s = .next s.logSpills.settle) ∧
      (f.tok.isCtl 4 = true → exec (.flush u q) s = .next (s'.flushUnit u f.tok.ev).logSpills.settle)) ∧
    (s.takeFlight (.unit u q) = none →
      exec (.dataToken u q) s = .next s.logSpills.settle ∧ exec (.flush u q) s = .next s.logSpills.settle) ∧
    (s.traced = false → s.logSpills = s) ∧
    (∀ (t : Token) (ctl : Bool), t.operand = true → t.defined = true → (s.unit u).discard = false →
      (s.primaryFor u t.tag t.ctx q ≠ q.val → (ctl = false ∨ (s.unit u).opened.contains (q.val, t.ev) = true) →
        ((s.arrive u q t ctl).unit u).queue q = (s.unit u).queue q ++ [t] ∧
        (∀ k, k ≠ q.val → ((s.arrive u q t ctl).unit u).queue k = (s.unit u).queue k) ∧
        (∀ x, x ≠ u.val → (s.arrive u q t ctl).unit x = s.unit x) ∧ (s.arrive u q t ctl).mem = s.mem) ∧
      (s.primaryFor u t.tag t.ctx q ≠ q.val → ctl = true → (s.unit u).opened.contains (q.val, t.ev) = false →
        s.arrive u q t ctl = s.faultUnit u 3 1 0 0) ∧
      (s.primaryFor u t.tag t.ctx q = q.val → s.startedOn u q = false → s.arrive u q t ctl = s.faultUnit u 3 1 0 0)) ∧
    (∀ ev, ((s.flushUnit u ev).unit u).queues = [] ∧ ((s.flushUnit u ev).unit u).inEvent = false ∧
      (∀ x, x ≠ u.val → (s.flushUnit u ev).unit x = s.unit x) ∧ (s.flushUnit u ev).mem = s.mem) ∧
    ∀ (d : Fin 16) (i : Nat) (f : Flight), s.trellis.flight.findIdx? (fun f => f.dest == .unit u q) = some i →
      s.trellis.flight.getD i { dest := .unit u q, tok := ⟨0, 0, 0, 0, [], {}⟩ } = f → f.crosses d = true →
      let put := fun g => { s with trellis := { s.trellis with flight := s.trellis.flight.set i g } }
      exec (.bridgeTransfer d u q true) s = .next (put (f.across d)).logSpills.settle ∧
      (f.fails < 2 → exec (.bridgeTransfer d u q false) s = .next (State.settle (State.logSpills
        ((put { f with fails := f.fails + 1 }).satInc (F.TRL_BRIDGE_RETRY.count d))))) ∧
      (f.fails = 2 → (s.unit u).inEvent = true → (s.unit u).ev = f.tok.ev → exec (.bridgeTransfer d u q false) s = .next
        (State.settle (State.logSpills (((put (f.across d)).satInc (F.TRL_BRIDGE_RETRY.count d)).faultUnit u 3 5 0 0))))

/-- EVENT_START, EVENT_END and CONTEXT_NEXT at the head of the primary input, once what the row reads back from the
spill area is there. A START at the head of an idle unit's primary input is consumed, clears the counters and
accumulators, takes up the slot of its tag, is forwarded and triggers the generators, once it fits; one inside an event
is a protocol fault. An END waits until the unit is quiet and its other inputs are done, takes up its slot, then leaves
with the OR of the flags and ends the event; outside an event it is consumed. A CONTEXT_NEXT is consumed by a fold
leader, and forwarded with its new fold index by any other unit. It says where EVENT_START, EVENT_END and CONTEXT_NEXT
complete. -/
def Obligations.EventsBracketTheWork : Prop :=
  ∀ (u : Fin 2048) (back : Refill) (s : State) (q : Nat) (t : Token), s.stalled = false →
    let x : UnitStep := ⟨u, back⟩
    let r := s.refill u back
    let v := r.unit u
    s.refill u none = s ∧
    (r.headOf u (fun t => t.isCtl 0) = some (q, t) →
      (v.inEvent = true → r.primaryNow u = some q →
        exec (.eventStart x) s = .next (State.settle (State.logSpills ((r.consume u q).faultUnit u 3 2 0 0)))) ∧
      (v.inEvent = false → v.side = [] →
        let s1 := State.quarantineEvent (State.select ((r.setUnit u { v with
          inEvent := true, prim := q, ev := t.ev, tag := t.tag, fold := 0, cnt := [0, 0, 0, 0], acc := [], wraps := [], emits := []
          flags := 0, side := [], faulted := false, subst := false, origin := none, withhold := [], holding := false
          discard := false, gens := [], steps := 0, since := r.time.spool }).consume u q) u t.tag t.ctx 5) u
        let s2 := (s1.sendCtl u (s1.routesOf u) { t with ctx := 0 }).triggerGens u 0 t.tag 0
        ((s1.unit u).discard = false → exec (.eventStart x) s = .next (State.settle (State.logSpills
          (r.attempt (some (s1.routesOf u, if isMu u then s2 else (s2.advanceUnit u 5).1)))))) ∧
        ((s1.unit u).discard = true → exec (.eventStart x) s = .next (s1.dropEvent u).logSpills.settle))) ∧
    (r.headOf u (fun t => t.isCtl 1) = some (q, t) →
      (v.inEvent = false → exec (.eventEnd x) s = .next (r.consume u q).logSpills.settle) ∧
      (v.inEvent = true → r.unitQuiet u = false ∨ r.sidesDone u = false → exec (.eventEnd x) s = .next r.logSpills.settle) ∧
      (v.inEvent = true → r.primaryNow u = some q → r.unitQuiet u = true → r.sidesDone u = true →
        let s0 := r.followToken u t 0
        let s1 := s0.consume u q
        let leave := fun (s1 : State) => r.attempt (some (s0.routesOf u, (s1.sendCtl u (s0.routesOf u) (ctlToken 1 (s1.unit u).tag
          (s1.unit u).fold [(s1.unit u).flags ||| (t.lane 0).toNat % 8] (s1.unit u).ev)).setUnit u
            { s1.unit u with inEvent := false, flags := (s1.unit u).flags ||| (t.lane 0).toNat % 8 }))
        (s0.unit u).discard = false →
        ((s1.unit u).subst = true ∨ s1.nonZero u = none → exec (.eventEnd x) s = .next (leave s1).logSpills.settle) ∧
        ∀ g k, (s1.unit u).subst = false → s1.nonZero u = some (g, k) →
          exec (.eventEnd x) s = .next (leave (s1.faultUnit u 4 k g 0)).logSpills.settle)) ∧
    ∀ i, r.headOf u (fun t => t.isCtl 2 || t.standIn) = some (q, t) → v.inEvent = true → r.primaryNow u = some q →
      r.unitQuiet u = true → ((r.followToken u t 0).unit u).slot = some i →
      let s1 := ((r.followToken u t 0).consume u q).when t.standIn (fun s => s.noteError u t)
      let s2 := s1.foldStep u
      (isLeader (s1.slotBytes u i) = true → exec (.contextNext x) s = .next s1.logSpills.settle) ∧
      (isLeader (s1.slotBytes u i) = false → exec (.contextNext x) s = .next (State.settle (State.logSpills
        (r.attempt (some (s1.routesOf u, s2.sendCtl u (s1.routesOf u) { t with ctx := (s2.unit u).fold }))))))

/-- Counters count to their limit, wrap, and carry up their chain. One advance leaves as many values as there are
counters; a lowest counter that the source advances steps by 1 below its limit and goes to 0 at it, and wraps exactly
then; one that another source advances stands; a counter chained to the one below steps exactly when that one wraps; so
no value passes its limit. -/
def Obligations.CountersAdvanceInChains : Prop :=
  (∀ (cs : List Ctr) (src : Nat) (vals : List Nat), (advance cs src vals).1.length = cs.length) ∧
  (∀ (c : Ctr) (cs : List Ctr) (src x : Nat) (vals : List Nat),
    (c.source = src → x < c.limit → (advance (c :: cs) src (x :: vals)).1.getD 0 0 = x + 1 ∧
      0 ∉ (advance (c :: cs) src (x :: vals)).2) ∧
    (c.source = src → c.limit ≤ x → (advance (c :: cs) src (x :: vals)).1.getD 0 0 = 0 ∧
      0 ∈ (advance (c :: cs) src (x :: vals)).2) ∧
    (c.source ≠ src → (advance (c :: cs) src (x :: vals)).1.getD 0 0 = x ∧
      0 ∉ (advance (c :: cs) src (x :: vals)).2)) ∧
  (∀ (cs : List Ctr) (src k : Nat) (vals : List Nat), k + 1 < cs.length → 2 ≠ src →
    (∀ c, cs[k + 1]? = some c → c.source = 2) →
    (k + 1 ∈ (advance cs src vals).2 → k ∈ (advance cs src vals).2) ∧
    (k ∉ (advance cs src vals).2 → (advance cs src vals).1.getD (k + 1) 0 = vals.getD (k + 1) 0)) ∧
  ∀ (cs : List Ctr) (src : Nat) (vals : List Nat), (∀ k c, cs[k]? = some c → vals.getD k 0 ≤ c.limit) →
    ∀ k c, cs[k]? = some c → (advance cs src vals).1.getD k 0 ≤ c.limit

/-- A compute unit fires on its operands, and its wraps act. Stage 0 of a compute unit in an event takes up the slot of
its head token, fires on the data operands at its heads, advances the counters of data firings, and consumes the
operands unless hold keeps them until its counter wraps; with no operands it waits; an ERROR operand is taken by
ERROR_TOKEN and puts the unit under substitution; a due wrap carries out its actions once its tokens fit; a memory unit
has no stage to fire. It says where STAGE_FIRE, ERROR_TOKEN and COUNTER_WRAP complete. -/
def Obligations.ComputeUnitsFireAndWrap : Prop :=
  ∀ (u : Fin 2048) (back : Refill) (s : State), s.stalled = false →
    let y : UnitStep := ⟨u, back⟩
    let r := s.refill u back
    (isMu u = true → exec (.stageFire y none) s = .next r.logSpills.settle) ∧
    (isMu u = false → (r.unit u).inEvent = true → (r.unit u).wraps = [] → r.headOf u Token.operand = none →
      exec (.stageFire y none) s = .next r.logSpills.settle ∧ exec (.errorToken y) s = .next r.logSpills.settle) ∧
    (∀ q t i o, isMu u = false → (r.unit u).inEvent = true → (r.unit u).wraps = [] →
      r.headOf u Token.operand = some (q, t) →
      let s0 := r.followToken u t 1
      (s0.unit u).slot = some i → s0.operands u i q = some o → o.b = none → (∀ x ∈ o.a, x.tag = t.tag ∧ x.ctx = t.ctx) →
      let st := readStage (s0.slotBytes u i) 0x40
      let a := match o.a with
        | [lo, hi] => wideVals lo hi
        | x :: _ => x.vals
        | [] => []
      let after := fun (p : State × List Nat) => p.1.holdOr u q i (st.hold && !p.2.contains st.holdCtr)
      (o.error = none → (s0.unit u).subst = false → exec (.stageFire y none) s = .next (State.settle (State.logSpills
        (after ((s0.fire u i 0 a (s0.bVals u (s0.slotBytes u i) st none)).advanceUnit u 1))))) ∧
      (o.error = none → (s0.unit u).subst = true → exec (.stageFire y none) s = .next (State.settle (State.logSpills
        (after (s0.advanceUnit u 1))))) ∧
      ∀ e, o.error = some e → exec (.errorToken y) s = .next (State.settle (State.logSpills
        (after ((s0.takeError u e).advanceUnit u 1))))) ∧
    (∀ i k rest t parity, isMu u = false → (r.unit u).slot = some i → (r.unit u).wraps = k :: rest →
      r.wrapCu u i k parity = some t → t.fits (readRoutes (r.slotBytes u i)) = true →
      exec (.counterWrap y parity) s = .next t.logSpills.settle) ∧
    ∀ g, isMu u = true → [0, 1].find? (fun g => !((r.unit u).gen g).wraps.isEmpty) = some g →
      (r.wrapMu u g).fits (readRoutes (r.slotBytes u ((r.unit u).gen g).slot)) = true →
      exec (.counterWrap y none) s = .next (r.wrapMu u g).logSpills.settle

/-- A pass starts on its trigger, and its handshakes walk its rows. A waiting trigger of an idle generator, whose
partner is not engaged with it, starts a pass with its counters at 0. A write handshake of a running pass, with a data
operand at its input and its row inside the region, stores the operand's 128 bytes at that row and no other byte of
memory, consumes it and advances the pass; a row outside the region faults and stores nothing. An ungated read
handshake with its row inside the region sends the row's 128 bytes as one data token, counts what ECC corrected, and
advances the pass, once the token fits. It says where GENERATOR_TRIGGER and GENERATOR_ROW complete. -/
def Obligations.GeneratorsWalkTheirRegion : Prop :=
  ∀ (u : Fin 2048) (g : Fin 2) (back : Refill) (s : State), isMu u = true → s.stalled = false →
    (∀ i tag ctx rest, (s.unit u).slot = some i → ((s.unit u).gen g).trig = (tag, ctx) :: rest →
      ((s.unit u).gen g).active = false → ((s.unit u).gen g).wraps = [] → (s.unit u).inEvent = true → (s.unit u).discard = false →
      ((s.unit u).passing = true ∨ s.headOf u Token.operand = none ∨
        ∃ q t, s.headOf u Token.operand = some (q, t) ∧ s.slotMatches u t.tag t.ctx = true) →
      (unordered (readGen (s.slotBytes u i) g) (readGen (s.slotBytes u i) (1 - g)) = false ∨ ((s.unit u).gen (1 - g)).ended = true) →
      ∃ t : State, exec (.generatorTrigger u g) s = .next (State.settle t.logSpills) ∧ ((t.unit u).gen g).active = true ∧
        ((t.unit u).gen g).cnt = [0, 0, 0, 0] ∧ ((t.unit u).gen g).trig = rest ∧ ((t.unit u).gen g).slot = i ∧ t.mem = s.mem ∧
        ∀ x, x ≠ u.val → t.unit x = s.unit x) ∧
    let y : UnitStep := ⟨u, back⟩
    let r := s.refill u back
    let x := (r.unit u).gen g
    let a := readGen (r.slotBytes u x.slot) g
    let n := (a.row x.cnt).toNat
    x.active = true → x.held = false → x.wraps = [] → (r.unit u).subst = false →
    (a.ctrs.getD 0 ⟨0, 0, false, 0, 0, 0⟩).source ≠ 4 →
      (∀ t, a.write = true → ((r.unit u).tokens a.sel).head? = some t → t.isData = true →
        ((a.lo : Int) ≤ a.row x.cnt → a.row x.cnt ≤ (a.hi : Int) →
          ∃ w : State, exec (.generatorRow y g 0 false) s = .next (State.settle w.logSpills) ∧
            w.memRead (rowAddr u n) 128 = t.row ∧
            (∀ k, (k < rowAddr u n ∨ rowAddr u n + 128 ≤ k) → tget memDflt w.mem k = tget memDflt r.mem k) ∧
            ((w.unit u).gen g).cnt = (advance a.ctrs (a.ctrs.getD 0 ⟨0, 0, false, 0, 0, 0⟩).source x.cnt).1) ∧
        ((a.row x.cnt < (a.lo : Int) ∨ (a.hi : Int) < a.row x.cnt) → (r.unit u).faulted = false →
          exec (.generatorRow y g 0 false) s = .next (State.settle (State.logSpills
            (((r.faultUnit u 2 (rowDetail (a.row x.cnt)) g 1).consume u a.sel).handshake u g a))))) ∧
      ∀ c : Fin 17, a.write = false → a.gated = false → (a.lo : Int) ≤ a.row x.cnt → a.row x.cnt ≤ (a.hi : Int) →
        let rs := readRoutes (r.slotBytes u x.slot)
        let t : Token := ⟨0, x.tag, x.ctx, 0, rowLanes (r.memRead (rowAddr u n) 128), (r.unit u).ev⟩
        let w := ((r.satAdd (F.TRL_ECC_CORR.count (uDie u)) c).sendData u rs t (some a.sel)).handshake u g a
        (w.fits rs = true → exec (.generatorRow y g c false) s = .next w.logSpills.settle) ∧
        (w.fits rs = false → exec (.generatorRow y g c false) s = .next r.logSpills.settle)

/-- A stall spills its victim's queue and loses no token. A stall that has lasted stall_ticks, at least 32, spills the
victim's queue, and a shorter one nothing: when the spill area has room the queue's tokens stay in their order, the
queue is empty, and memory outside the spill area of that memory unit is unchanged; with too few free entries the
device enters FAULT. The clears of a die's counts clear them when bit 0 is written 1, and nothing otherwise. It says
where STALL_SPILL, TRL_CNT_CLEAR and TRL_FSTAT_CLEAR complete. -/
def Obligations.SpillsLoseNoToken : Prop :=
  (∀ (d : Fin 16) (s : State) (u q : Nat), s.stalled = false → s.victim d = some (u, q) →
    (s.stillFor d (max 32 (s.fld (F.TRL_STALL_CFG.stall_ticks d))) = true → s.traced = false →
      exec (.stallSpill d) s = .next (s.spillQueue u q).logSpills.settle) ∧
    (s.stillFor d (max 32 (s.fld (F.TRL_STALL_CFG.stall_ticks d))) = false →
      exec (.stallSpill d) s = .next s.logSpills.settle)) ∧
  (∀ (s : State) (u q : Nat), ((s.unit u).queue q).length ≤ (s.spillFree u).length →
    (((s.spillQueue u q).unit u).tokens q) = (s.unit u).tokens q ∧ ((s.spillQueue u q).unit u).queue q = [] ∧
    (∀ x, x ≠ u → (s.spillQueue u q).unit x = s.unit x) ∧
    ∀ k, (k < dieBase (uDie u) + 0x80000 * s.spillSite u + 128 * 0xF80 ∨
        dieBase (uDie u) + 0x80000 * s.spillSite u + 0x80000 ≤ k) →
      tget memDflt (s.spillQueue u q).mem k = tget memDflt s.mem k) ∧
  (∀ (s : State) (u q : Nat), (s.spillFree u).length < ((s.unit u).queue q).length → s.spillQueue u q = s.spillFull u) ∧
  ∀ (d : Fin 16) (v : Word) (s : State), s.up = true →
    (v.toNat % 2 = 1 →
      (∃ t, exec (.trlCntClear d v) s = .next (State.settle t) ∧ t.fld (F.TRL_OVF_COUNT.count d) = 0 ∧
        t.fld (F.TRL_ECC_CORR.count d) = 0 ∧ t.fld (F.TRL_BRIDGE_RETRY.count d) = 0 ∧ t.trellis = s.trellis ∧ t.mem = s.mem) ∧
      ∃ t, exec (.trlFstatClear d v) s = .next (State.settle t) ∧ t.reg (Reg.TRL_FAULT_STAT d) = 0 ∧
        t.reg (Reg.TRL_SPILL_STAT d) = 0 ∧ t.reg (Reg.TRL_SCHED_LOG d) = 0 ∧
        (∀ k, k < 104 → t.reg (Reg.TRL_SITE_WAITMAX d k) = 0) ∧ t.trellis = s.trellis ∧ t.mem = s.mem) ∧
    (v.toNat % 2 = 0 → exec (.trlCntClear d v) s = .next (State.settle (s.setReg (Reg.TRL_CNT_CLEAR d) 0)) ∧
      exec (.trlFstatClear d v) s = .next (State.settle (s.setReg (Reg.TRL_FSTAT_CLEAR d) 0)))

/-- A wait timer keeps its largest value and faults past its bound. The timer of a unit that waits in an event, with no
landing awaited, no stall of its die and no sidestep pause, at a value that it can have reached, keeps its largest
value; past its bound with the margin it faults the unit in LIVE operation with sched_en set, and is counted in a
replay; where the timer does not run nothing changes. It says where WAIT_TIMER_EXPIRY completes. -/
def Obligations.WaitTimersKeepTheirMaximum : Prop :=
  ∀ (u : Fin 2048) (x i : Nat) (s : State), s.stalled = false → (s.unit u).slot = some i →
    let k := s.site u
    let s1 := s.setFld (F.TRL_SITE_WAITMAX.max (uDie u) k) (max (s.fld (F.TRL_SITE_WAITMAX.max (uDie u) k)) (min x 0xFFFF))
    let b := (s1.slotHeader u i).bound
    let past := b ≠ 0 ∧ b * (100 + s1.fld (F.TRL_SCHED_CFG.margin_pct (uDie u))) < x * 100
    (s.timerRuns u = false ∨ s.timerCan u x = false → exec (.waitTimerExpiry u x) s = .next s.settle) ∧
    (s.timerRuns u = true → s.timerCan u x = true →
      (¬past → exec (.waitTimerExpiry u x) s = .next s1.settle) ∧
      (past → s1.replayDie (uDie u) = true →
        exec (.waitTimerExpiry u x) s = .next (State.settle (s1.satInc (F.TRL_SCHED_LOG.over_bound (uDie u))))) ∧
      (past → s1.replayDie (uDie u) = false →
        (s1.liveOrDraining = true → s1.bit (F.TRL_SCHED_CFG.sched_en (uDie u)) = true →
          exec (.waitTimerExpiry u x) s = .next (State.settle
            (s1.faultUnit u 8 (min x 0xFFFE) (if isMu u && !((s1.unit u).gen 0).active then 1 else 0) 1))) ∧
        (s1.liveOrDraining = false ∨ s1.bit (F.TRL_SCHED_CFG.sched_en (uDie u)) = false →
          exec (.waitTimerExpiry u x) s = .next s1.settle)))

/-- LOAD_IMAGE, FILL_TRAY and LOAD_FALLOW. A valid LOAD_IMAGE in SAFE, LOADED, or FAULT with its cause gone, with an
idle engine, cancels the fills, in FAULT restores the domains and flushes the trellis, keeps the load and starts moving
its bytes, and its commit runs once they have moved; a valid FILL_TRAY of a free bank waits for its fill, and the fill
completes; a valid LOAD_FALLOW that moves rows runs with fallow_busy set, takes weights_ready from the menus whose rows
it overwrites, and completes with ST_OK once they have moved, one without rows at once. ECC may correct errors in what
the commit and the fill read, as many as a free value says (log 158). It says where LOAD_IMAGE, LOAD_IMAGE_COMMIT,
FILL_TRAY, FILL_TRAY_DONE, LOAD_FALLOW and LOAD_FALLOW_DONE complete. -/
def Obligations.ImageCommands : Prop :=
  ∀ (q : Fin 16) (c : Cmd) (s : State),
    let b := s.begun q c
    (s.Starts 0x08 q [lifeSafe, lifeLoaded, lifeFault] c → c.sub ≤ 1 → (c.sub = 0 → hostRange (c.w64 0) (c.w 2) = true) →
      c.w 2 ≠ 0 → c.w 2 ≤ stagingSize → b.image.load = none → (b.life = lifeFault → b.causeActive = false) → b.engineIn .idle ≠ [] →
      let s1 := b.cancelFill.cancelFallow.when (b.cancelFill.cancelFallow.life == lifeFault) (fun s => s.restoreDomains.sendFlush)
      exec (.loadImage q) s = .next (State.settle (State.startEngine { s1 with image := { s1.image with
        load := some (State.newLoad s1 c.id (c.sub == 0) (c.w64 0) (c.w 2))
        staged := s1.image.staged && !(c.sub == 0) } } c
        [if c.sub = 0 then ⟨.hostVirtual, .atlas, 0, c.w64 0, cold 0, c.w 2⟩ else ⟨.atlas, .buffer, 0, cold 0, 0, c.w 2⟩]))) ∧
    (∀ l, s.image.load = some l → s.moved l.cmd = true → exec .loadImageCommit s = .next ((s.corrected 0x4000000).commitLoad l).settle) ∧
    (s.Starts 0x09 q [lifeLoaded, lifeArmed, lifeLive, lifeDraining] c → c.sub = 0 → c.only [0x701] = true →
      b.image.sets.contains (bits (c.w 0) 8 3) = true → b.tagClash (bits (c.w 0) 0 1) (bits (c.w 0) 8 3) = false → b.image.fill = none →
      b.bankInUse (bits (c.w 0) 0 1) = false → b.stagingClosed = false →
      exec (.fillTray q) s = .next (State.settle ((b.startFill c.id (bits (c.w 0) 0 1) (bits (c.w 0) 8 3)).wait c.id))) ∧
    (∀ f, s.image.fill = some f → exec .fillTrayDone s = .next ((s.corrected 0x4000000).fillDone f).settle) ∧
    (s.Starts 0x0B q [lifeLoaded, lifeArmed, lifeLive, lifeDraining] c → c.sub = 0 → c.only [0xF] = true →
      b.image.menus.any (fun m => m.number == bits (c.w 0) 0 4) = true → b.image.fallow = none → b.stagingClosed = false →
      (b.stagedBlocks.filter (fun x => x.owner == bits (c.w 0) 0 4)).all (b.blockFallow b.stagedBlocks) = true →
      let n := bits (c.w 0) 0 4
      let s1 := b.startEngine c (b.fallowDescs n)
      let s2 := s1.raise F.HUB_IMG_STAT.fallow_busy
      (b.fallowDescs n ≠ [] → (s1.engineIn .running).any (fun e => (s1.engine e).cmd == c.id) = true →
        exec (.loadFallow q) s =
          .next (State.settle (State.loseWeights { s2 with image := { s2.image with fallow := some ⟨c.id, n⟩ } } n))) ∧
      (b.fallowDescs n = [] → exec (.loadFallow q) s = .next (State.settle
        ((b.endFallow ⟨c.id, n⟩ true).finish c.id stOk (b.endFallow ⟨c.id, n⟩ true).imgStat)))) ∧
    ∀ f, s.image.fallow = some f → s.moved f.cmd = true →
      exec .loadFallowDone s = .next (State.settle ((s.endFallow f true).finish f.cmd stOk (s.endFallow f true).imgStat))

/-- SELECT_MENU and the switch it schedules. In LIVE a valid SELECT_MENU of another resident tag waits with its tag and
crossing pending, and the switch runs when its crossing comes, unless a DRAIN takes effect there or before; outside
LIVE it switches and completes at once; selecting the current tag with no switch pending completes at once (the model's
choice, log 105). It says where SELECT_MENU and MENU_SWITCH complete. -/
def Obligations.MenusSwitchAtTheirCrossing : Prop :=
  ∀ (q : Fin 16) (c : Cmd) (m : Menu) (s : State),
    let b := s.begun q c
    let t := bits (c.w 0) 0 3
    (s.Starts 0x0A q [lifeLoaded, lifeArmed, lifeLive] c → c.sub = 0 → c.only [7] = true → b.residentAt t = some m →
      b.menuUnfit m = false →
      (b.fld F.HUB_MENU_CUR.cur_tag = t → b.switchPending = false →
        (b.life = lifeLive → b.farEnough (c.w64 1) = true) → exec (.selectMenu q) s =
        .next (State.settle (b.finish c.id stOk (loHi (if b.life == lifeLive then c.w64 1 else b.xindex))))) ∧
      (b.fld F.HUB_MENU_CUR.cur_tag ≠ t → b.switchPending = false →
        (b.life ≠ lifeLive → exec (.selectMenu q) s = .next (State.settle
          (((b.switchTo t).setWide Reg.HUB_MENU_SWITCH_LO b.xindex).finish c.id stOk (loHi b.xindex)))) ∧
        (b.life = lifeLive → b.farEnough (c.w64 1) = true → exec (.selectMenu q) s = .next (State.settle
          (((((b.setFld F.HUB_MENU_CUR.pend_tag t).raise F.HUB_MENU_CUR.pend_valid).setWide Reg.HUB_MENU_SWITCH_LO
            (c.w64 1)).addEffect ⟨c.w64 1, c.id, .selectMenu t⟩).wait c.id))))) ∧
    (s.takeDue isSelectMenu = none → exec .menuSwitch s = .next s.settle) ∧
    ∀ e r k, s.takeDue isSelectMenu = some (e, r) → e.kind = .selectMenu k →
      ∃ t v, exec .menuSwitch s = .next (State.settle { t with time := { t.time with fresh := v } }) ∧
        (r.effects.any (fun d => isDrain d.kind && r.due d) = true → t = r.dropSwitch.finish e.cmd stAborted []) ∧
        (r.effects.any (fun d => isDrain d.kind && r.due d) = false →
          t = ((r.switchTo k).trace 6 0 0 0 k { index := e.crossing, orbit := r.nextId.1, crossing := r.nextId.2 }).finish e.cmd stOk
            (loHi e.crossing))

/-- Descrambling a scrambled block gives it back. A descrambler whose register holds what the scrambler's held gives
back the payload, and both registers then hold the same; so 66B blocks sent by the decision lanes read as they were,
and a frame always has 12 blocks, of which the first and the last are control blocks. -/
def Obligations.ScramblersAgree : Prop :=
  (∀ (st : Nat) (p : BitVec 64), st < 2 ^ 58 → descramble st (scramble st p).2 = ((scramble st p).1, p)) ∧
  (∀ (st : Nat) (p : BitVec 64), (scramble st p).1 < 2 ^ 58) ∧
  ∀ f : FrameData, f.blocks.length = 12 ∧ (f.blocks.getD 0 (0, 0)).1 = 2 ∧ (f.blocks.getD 11 (0, 0)).1 = 2 ∧
    ∀ k, 1 ≤ k → k ≤ 10 → (f.blocks.getD k (0, 0)).1 = 1

/-- Where the late policy applies the frame carries its bits alone. An event that is LATE, or whose result carries an
error or an abort, sends the policy's accept bits, feature words of 0 and a decision digest of 0; any other event sends
its result's accept bits, and the digest is 0 as soon as one tap has none. -/
def Obligations.LatePolicyReplacesTheResult : Prop :=
  ∀ (e : EventEntry) (fl : Nat) (ds : List (Nat × Option (BitVec 64))) (s : State) (n k : Nat),
    (policyApplies fl = true → policyBits e fl = (if e.maskPolicy then e.mask.toNat else 0) ∧
      (s.featureBytes e fl n k = List.replicate (2 * k) 0#8) ∧ decisionDigest fl ds = 0) ∧
    (policyApplies fl = false → policyBits e fl = acceptBits e) ∧
    ((∃ d ∈ ds, d.2 = none) → decisionDigest fl ds = 0) ∧ decisionDigest fl ds < 65536

/-- Result tokens, digest pieces, and the release of what is due. A result that has come as far as EVENT_END is taken
token by token, oldest first; a digest piece joins the tap of the event that it belongs to; either may complete a
replayed event; at tick 0 of a crossing, once, an idle lane stays idle, a lane with nothing due sends the empty frame,
and every event whose cut is this crossing is released. It says where RESULT_ARRIVAL, TAP_DIGEST_PIECE and
DEADLINE_RELEASE complete. -/
def Obligations.ResultsAndReleases : Prop :=
  ∀ (die : Fin 2) (s : State),
    (∀ ts n, s.stalled = false → (s.trellis.flight.filter (fun f => f.dest == .decision die)).map (fun f => f.tok) = ts →
      ts.findIdx? (fun t => t.isCtl 1) = some n →
      exec (.resultArrival die) s = .next (State.settle (State.completeReplay ((ts.take (n + 1)).foldl
        (fun s t => s.takeResultToken die t)
        (Nat.repeat (fun s => (s.takeFlight (.decision die)).elim s (fun r => r.2)) (n + 1) s))))) ∧
    (∀ ts, s.stalled = false → (s.trellis.flight.filter (fun f => f.dest == .decision die)).map (fun f => f.tok) = ts →
      ts.findIdx? (fun t => t.isCtl 1) = none → exec (.resultArrival die) s = .next s.completeReplay.settle) ∧
    (s.stalled = true → exec (.resultArrival die) s = .next s.settle ∧ exec .tapDigestPiece s = .next s.settle) ∧
    (∀ p rest e, s.stalled = false → s.trellis.pieces = p :: rest → p.ev.shadow = false →
      s.events.find? (fun e => e.index == p.ev.index) = some e →
      exec .tapDigestPiece s = .next (State.settle (State.completeReplay (State.setEvent
        { s with trellis := { s.trellis with pieces := rest } } { e with taps := joinPiece e.taps p })))) ∧
    (s.time.held = true ∨ s.time.started = false → exec .deadlineRelease s = .next s.settle) ∧
    (s.decision.lastRelease = some s.xindex → exec .deadlineRelease s = .next s.settle) ∧
    (s.time.held = false → s.time.started = true → s.decision.lastRelease ≠ some s.xindex →
      let r := { s.decideDue with decision := { s.decideDue.decision with lastRelease := some s.xindex } }
      let due := if r.liveOrDraining then r.events.filter (fun e => e.cut == r.xindex) else []
      exec .deadlineRelease s = .next (State.settle (State.drainDone (due.foldl State.releaseEvent
        ((List.range 8).foldl (fun s n => if !s.laneSends n then s.idleLane n
          else if due.any (fun e => nbit (s.fld (F.DEC_LANE_CFG.tags n)) e.tag) then s
          else s.sendFrame n (s.emptyFrame n)) r)))))

/-- The filtered VETO_N level. A level held for 4 samples becomes the filtered level, shown in DEC_VETO_STAT.level, and
ends the warning period; a low of 1 to 3 samples counts as a glitch and leaves the filtered level; one that no sample
sees is not counted; a level that is already the filtered one changes it no more; the pin shows the level itself; the
warning comes once per low period. It says where VETO_LEVEL_CHANGE and VETO_WARN complete. -/
def Obligations.VetoFilterAndWarning : Prop :=
  ∀ (low : Bool) (n : Nat) (s : State),
    let pin := fun (b : Bool) => { s with decision := { s.decision with vetoPin := b } }
    (4 ≤ n → low ≠ s.decision.vetoLow → ∃ t, exec (.vetoLevelChange low n) s = .next (State.settle t) ∧
      t.decision.vetoLow = low ∧ t.decision.vetoPin = low ∧ t.decision.warned = false ∧ t.fld F.DEC_VETO_STAT.level = b2n !low ∧
      t.time = s.time ∧ t.mem = s.mem ∧ t.events = s.events ∧ t.trellis = s.trellis) ∧
    (4 ≤ n → low = s.decision.vetoLow → exec (.vetoLevelChange low n) s = .next (pin low).settle) ∧
    (1 ≤ n → n < 4 → exec (.vetoLevelChange true n) s = .next (State.settle ((pin false).satInc F.DEC_VETO_STAT.glitch))) ∧
    (n < 4 → exec (.vetoLevelChange false n) s = .next (pin true).settle) ∧
    exec (.vetoLevelChange true 0) s = .next (pin false).settle ∧
    (s.decision.vetoLow = true → s.decision.warned = false → exec .vetoWarn s =
      .next (State.settle { s.raise F.DEC_VETO_STAT.warn with decision := { s.decision with warned := true } })) ∧
    (s.decision.warned = true ∨ s.decision.vetoLow = false → exec .vetoWarn s = .next s.settle)

/-- The SYNC_N barrier from HOLDING to launch, and back. At a tick 0 a ready package in HOLDING releases the line and
waits; a high sample in WAITING gives RISEN with its crossing kept; a high sample one crossing later gives CONFIRMED; a
low sample in one of the two crossings after the rise returns to WAITING and counts; a line stuck low in WAITING closes
the barrier at the next tick 0: it sets stuck, turns the mode to 1, drives the line again and holds; a launch that is
due launches; a write of DEC_SYNC_CFG returns to HOLDING. It says where SYNC_RELEASE, SYNC_RISE, SYNC_CONFIRM,
SYNC_CANCEL, SYNC_STUCK, SYNC_LAUNCH and DEC_SYNC_CFG_WRITE complete. -/
def Obligations.BarrierWalksToItsLaunch : Prop :=
  ∀ s : State,
    (s.atTick0 = false → exec .syncRelease s = .next s.settle) ∧
    (s.atTick0 = true → s.syncReady = true → s.sync = syHolding → ∃ t, exec .syncRelease s = .next t ∧ t.sync = syWaiting ∧
      t.decision.syncDriven = false ∧ t.time = s.time ∧ t.events = s.events) ∧
    (s.syncMode = 2 → s.sync = syWaiting → s.decision.syncDriven = false → ∃ t, exec .syncRise s = .next t ∧ t.sync = syRisen ∧
      t.decision.riseXing = s.xindex ∧ t.time = s.time ∧ t.events = s.events) ∧
    (s.sync = syRisen → s.xindex = s.decision.riseXing + 1 → ∃ t, exec .syncConfirm s = .next t ∧ t.sync = syConfirmed ∧
      t.time = s.time ∧ t.events = s.events) ∧
    ((s.sync = syRisen ∨ s.sync = syConfirmed) → (s.xindex = s.decision.riseXing + 1 ∨ s.xindex = s.decision.riseXing + 2) →
      ∃ t, exec .syncCancel s = .next t ∧ t.sync = syWaiting ∧ t.time = s.time ∧ t.events = s.events ∧
        t.fld F.DEC_SYNC_STAT.cancel_count = min (s.fld F.DEC_SYNC_STAT.cancel_count + 1) (2 ^ F.DEC_SYNC_STAT.cancel_count.width - 1)) ∧
    (s.syncMode = 2 → s.sync = syWaiting → s.syncN = false →
      (s.atTick0 = true → ∃ t, exec .syncStuck s = .next t ∧ t.sync = syHolding ∧
        t.fld F.DEC_SYNC_STAT.stuck = 1 ∧ t.fld F.DEC_SYNC_CFG.mode = 1 ∧ t.decision.syncDriven = true) ∧
      (s.atTick0 = false → exec .syncStuck s = .next (State.settle { s with decision := { s.decision with stuckDue := true } }))) ∧
    (s.decision.stuckDue = true → s.sync = syWaiting → s.syncTick0.sync = syHolding ∧
      s.syncTick0.fld F.DEC_SYNC_STAT.stuck = 1 ∧ s.syncTick0.fld F.DEC_SYNC_CFG.mode = 1 ∧ s.syncTick0.decision.syncDriven = true) ∧
    (s.syncDue = true → ∃ m, exec .syncLaunch s =
      .next (State.settle { s.launchSync with time := { s.launchSync.time with fresh := m } })) ∧
    (s.syncDue = false → exec .syncLaunch s = .next s.settle) ∧
    ∀ v : Word, s.up = true → exec (.decSyncCfgWrite v) s = .next (s.writeSyncCfg v).settle ∧ (s.writeSyncCfg v).sync = syHolding

/-- A port climbs from TRAIN to UP and falls back. Locked lanes take a port from TRAIN to ALIGN with every lane shown
locked, alignment takes it to PARAM, where it sends its mode and lane map, the far lane map is kept, an equal mode
takes it to MEASURE and an unequal one sets mode_mismatch and never leaves it UP, a measurement takes it UP with half
the round trip shown and up set; a train timeout is counted and the port stays in TRAIN; no other port changes its
state. It says where PORT_LANES_LOCKED, PORT_TRAIN_TIMEOUT, PORT_ALIGNED, PORT_PARAM and PORT_MEASURE_DONE complete. -/
def Obligations.PortsTrainStepByStep : Prop :=
  ∀ (p : Fin 6) (s : State),
    let goesTo := fun (o : Host.Outcome State Fault Refusal) (st : Nat) =>
      ∃ t, o = .next t ∧ t.portState p = st ∧ (∀ k, k < 6 → k ≠ p.val → t.portState k = s.portState k) ∧
        t.time = s.time ∧ t.mem = s.mem ∧ t.hub = s.hub
    (s.portState p = psTrain → goesTo (exec (.portLanesLocked p) s) psAlign ∧ goesTo (exec (.portTrainTimeout p) s) psTrain) ∧
    (s.portState p = psAlign → goesTo (exec (.portAligned p) s) psParam ∧ ∃ t, exec (.portAligned p) s = .next t ∧
      t.links.training = (p.val, (s.port p).mode, ownMap) :: s.links.training) ∧
    (s.portState p = psParam → ∀ (m : Fin 2) (map : Fin 256),
      (m.val = (s.port p).mode → goesTo (exec (.portParam p ⟨m, map⟩) s) psMeasure ∧
        ∃ t, exec (.portParam p ⟨m, map⟩) s = .next t ∧ (t.port p).farMap = map.val) ∧
      (m.val ≠ (s.port p).mode → ∃ t, exec (.portParam p ⟨m, map⟩) s = .next t ∧ t.portUp p = false ∧
        t.fld (F.TTH_PORT_EVT.mode_mismatch p) = 1)) ∧
    (s.portState p = psMeasure → ∀ (trip : Fin 8192) (far : Fin 512), goesTo (exec (.portMeasureDone p trip far) s) psUp ∧
      ∃ t, exec (.portMeasureDone p trip far) s = .next t ∧ t.fld (F.TTH_PORT_HOP.hop p) = trip / 2 ∧
        t.fld (F.TTH_PORT_EVT.up p) = 1 ∧ (t.port p).unacked = [] ∧ (t.port p).txSeq = 0)

/-- Flits leave and arrive on an UP port, and what takes it down. An UP port sends one flit a period, with the
acknowledgement of what it has accepted, and takes each flit that arrives; an acknowledgement falls due with accepted
flits; a replay timeout sends the unacknowledged flits again, and the one after eight such replays takes the port down;
a retrain and a lane loss take it down, and a lane loss in training starts it anew; a configuration write sets the
register, clearing en takes the port down. A port that is not UP sends and takes nothing. It says where FLIT_SEND,
FLIT_RECEIVED, ACK_DUE, REPLAY_TIMEOUT, PORT_LANE_LOSS, PORT_RETRAIN and TTH_PORT_CFG_WRITE complete. -/
def Obligations.PortsGoDownAndFlitsLeave : Prop :=
  ∀ (p : Fin 6) (s : State),
    (s.portUp p = true →
      (let v := s.port p
       let bs := flitBytes v.next.1 ((v.expect + 4095) % 4096) v.nakDue v.next.2.1
       let t := ((s.setPort p { v.next.2.2 with nakDue := false, accepted := 0, ackDue := false }).freeBuffer v.next.2.1).lineFlit p bs
       exec (.flitSend p) s = .next (State.settle { t with links := { t.links with
        sent := (p.val, bs, v.next.2.1.credits) :: t.links.sent } })) ∧
      (∀ bs cr, exec (.flitReceived p bs cr) s = .next (s.takeFlit p bs cr).settle) ∧
      ((s.port p).accepted ≠ 0 → exec (.ackDue p) s = .next (State.settle (s.setPort p { s.port p with ackDue := true }))) ∧
      ((s.port p).unacked ≠ [] →
        ((s.port p).timerReplays < 8 → exec (.replayTimeout p) s = .next (State.settle (s.setPort p { s.port p with
          resend := (s.port p).unacked.map (fun e => e.1), timerReplays := (s.port p).timerReplays + 1 }))) ∧
        (8 ≤ (s.port p).timerReplays → exec (.replayTimeout p) s = .next (s.takeDown p true).settle)) ∧
      (∀ l, exec (.portLaneLoss p l) s = .next (s.takeDown p true).settle)) ∧
    ((s.portState p = psAlign ∨ s.portState p = psParam ∨ s.portState p = psMeasure) →
      ∀ l, exec (.portLaneLoss p l) s = .next (s.downOrTrain p).settle) ∧
    ((s.portState p = psDown ∨ s.portState p = psTrain) → ∀ l : Fin 4,
      exec (.portLaneLoss p l) s = .next (State.settle (s.setMapBit (F.TTH_PORT_STATE.lane_lock p) l false))) ∧
    ((s.port p).unacked = [] → exec (.replayTimeout p) s = .next s.settle) ∧
    (s.portUp p = false → exec (.flitSend p) s = .next s.settle ∧ ∀ bs cr, exec (.flitReceived p bs cr) s = .next s.settle) ∧
    (s.up = true → exec (.portRetrain p) s = .next (s.takeDown p false).settle ∧
      ∀ v : Word,
        let t := s.setReg (Reg.TTH_PORT_CFG p) (v &&& 0x0FFFF1F3)
        (t.bit (F.TTH_PORT_CFG.en p) = false → t.portState p ≠ psDown →
          exec (.tthPortCfgWrite p v) s = .next (t.takeDown p false).settle) ∧
        (t.bit (F.TTH_PORT_CFG.en p) = false → t.portState p = psDown → exec (.tthPortCfgWrite p v) s = .next t.settle) ∧
        (t.bit (F.TTH_PORT_CFG.en p) = true → t.portState p = psDown →
          exec (.tthPortCfgWrite p v) s = .next (t.downOrTrain p).settle) ∧
        (t.bit (F.TTH_PORT_CFG.en p) = true → t.portState p ≠ psDown → exec (.tthPortCfgWrite p v) s = .next t.settle))

/-- A flit that is sent is one that the far end accepts, and sequence numbers decide the rest. Every flit built for
sending has 64 bytes of which the last 4 are the CRC-32C of the first 60; a flit with another CRC is counted and
changes nothing else of the port; of the sequenced ones the expected one is accepted and moves the expectation on, one
up to 256 behind is discarded and acknowledged, one from 1 to 255 ahead asks once for a replay, and any other is
counted. -/
def Obligations.FlitsCarryTheirCrc : Prop :=
  (∀ (q a : Nat) (n : Bool) (c : Cargo), (flitBytes q a n c).length = 64 ∧
    BitVec.ofNat 32 (leNat ((flitBytes q a n c).drop 60)) = crc32c ((flitBytes q a n c).take 60)) ∧
  (∀ (s : State) (p : Nat) (bs : List Byte) (cr : List (Nat × Nat)),
    crc32c (bs.take 60) ≠ BitVec.ofNat 32 (leNat (bs.drop 60)) → s.takeFlit p bs cr = s.satInc (F.TTH_PORT_ERR0.crc_fail p)) ∧
  ∀ (s : State) (p seq tc kind : Nat) (first dl : Bool) (bs : List Byte),
    let v := s.port p
    let ahead := (seq + 4096 - v.expect) % 4096
    let behind := (v.expect + 4096 - seq) % 4096
    (ahead ≠ 0 → behind ≤ 256 → s.takeSequenced p seq tc kind first dl bs =
      (s.satInc (F.TTH_PORT_ERR0.dup_discard p)).setPort p { v with ackDue := true }) ∧
    (ahead ≠ 0 → 256 < behind → ahead ≤ 255 → s.takeSequenced p seq tc kind first dl bs =
      s.setPort p { v with nakDue := v.nakDue || !v.gap, gap := true }) ∧
    (256 < behind → 255 < ahead → s.takeSequenced p seq tc kind first dl bs = s.satInc (F.TTH_PORT_ERR2.seq_err p)) ∧
    (ahead = 0 → ∃ r : State, s.takeSequenced p seq tc kind first dl bs = r.takePayload p tc kind first dl bs ∧
      (r.port p).expect = (v.expect + 1) % 4096 ∧ (r.port p).accepted = v.accepted + 1 ∧ r.time = s.time ∧ r.mem = s.mem)

/-- A message leaves by dimension order, the shorter way round. A message to another coordinate leaves along the first
axis in which the coordinates differ; it leaves in the + direction exactly when that way is not longer; for the package
itself there is no port. -/
def Obligations.RoutesTakeTheShorterWay : Prop :=
  ∀ (s : State) (a b : Nat),
    ((∀ k, k < 3 → coord k a = coord k b) → s.routePort a b = none) ∧
    ∀ k, k < 3 → (∀ j, j < k → coord j a = coord j b) → coord k a ≠ coord k b →
      let up := (coord k b + s.extent k - coord k a) % s.extent k
      (up ≤ s.extent k - up → s.routePort a b = some (2 * k)) ∧ (s.extent k - up < up → s.routePort a b = some (2 * k + 1))

/-- Remote writes, reads, responses and reports act when they arrive. A WRITE that may be performed writes its words,
one that may not is reported with its code, and one of whose words one is not taken is reported too; a READ_REQ that
may be performed is answered with the bytes read; a response to an outstanding read feeds its engine and frees the tag,
one to none is counted as late; an ERROR_REPORT is filed; a message for another package goes on; a read timeout frees
the tag, sets read_timeout and fails the read; COL_SELF and COL_TORUS take a write in the states that permit it, and
set cfg_err in the others. It says where REMOTE_WRITE, READ_REQ, READ_RESP, ERROR_REPORT, MESSAGE_FORWARD,
READ_TIMEOUT, COL_SELF_WRITE and COL_TORUS_WRITE complete. -/
def Obligations.RemoteMessagesAct : Prop :=
  ∀ (ecc : Bool) (found : Option (Fin 66)) (s t : State) (m : Message),
    (s.takeMessage (s.isHere 1) = some (m, t) →
      (t.remoteCode (msgAddr m.bytes) (msgLen m.bytes) ecc ≠ 0 → exec (.remoteWrite ecc) s =
        .next (t.failMessage m.bytes (t.remoteCode (msgAddr m.bytes) (msgLen m.bytes) ecc)).settle) ∧
      ∀ r, t.remoteCode (msgAddr m.bytes) (msgLen m.bytes) ecc = 0 →
        (t.writeWords (msgAddr m.bytes) (bytesWords (sub m.bytes 16 (msgLen m.bytes))) = (false, r) →
          exec (.remoteWrite ecc) s = .next r.settle) ∧
        (t.writeWords (msgAddr m.bytes) (bytesWords (sub m.bytes 16 (msgLen m.bytes))) = (true, r) →
          exec (.remoteWrite ecc) s = .next (r.failMessage m.bytes 1).settle)) ∧
    (s.takeMessage (s.isHere 2) = some (m, t) →
      let u := t.when (decide (cold 0 ≤ msgAddr m.bytes) && decide (msgAddr m.bytes < cold 0x100000000))
        (fun s => s.countEcc (found.elim 0 Fin.val) 0)
      (t.remoteCode (msgAddr m.bytes) (msgLen m.bytes) found.isNone = 0 → exec (.readReq found) s = .next (State.settle
        (u.looked.sendBack (msgHead 3 0 (msgSrc m.bytes) u.self (msgTag m.bytes) (msgAddr m.bytes) (msgLen m.bytes) ++
          u.atlasRead (msgAddr m.bytes) (msgLen m.bytes))))) ∧
      (t.remoteCode (msgAddr m.bytes) (msgLen m.bytes) found.isNone ≠ 0 → exec (.readReq found) s =
        .next (t.failMessage m.bytes (t.remoteCode (msgAddr m.bytes) (msgLen m.bytes) found.isNone)).settle)) ∧
    (s.takeMessage (s.isHere 3) = some (m, t) →
      (t.links.reads.any (fun r => r.tag == msgTag m.bytes && r.far == msgSrc m.bytes) = false → m.port < 6 →
        exec .readResp s = .next (State.settle (t.satInc (F.TTH_PORT_ERR2.late_resp m.port)))) ∧
      ∀ e, t.links.reads.any (fun r => r.tag == msgTag m.bytes && r.far == msgSrc m.bytes) = true → msgStatus m.bytes = 0 →
        (t.endRead (msgTag m.bytes)).reader (msgTag m.bytes) = some e →
        exec .readResp s = .next (State.settle ((t.endRead (msgTag m.bytes)).setEngine e
          { (t.endRead (msgTag m.bytes)).engine e with waitTag := none, data := sub m.bytes 16 (msgLen m.bytes) }))) ∧
    (s.takeMessage (s.isHere 4) = some (m, t) → exec .errorReport s = .next (State.settle
      (t.filePe (msgStatus m.bytes) (msgTag m.bytes) (msgSrc m.bytes) (msgAddr m.bytes) (msgLen m.bytes)))) ∧
    (s.links.inbox.find? (fun m => msgDst m.bytes != s.self) = some m → exec .messageForward s = .next (State.settle
      (State.forwardMessage { s with links := { s.links with inbox := s.links.inbox.erase m } } m (s.laneOn m)))) ∧
    (∀ tag : Fin 4096,
      (s.links.reads.any (fun r => r.tag == tag.val) = true → exec (.readTimeout tag) s =
        .next (State.settle (((s.endRead tag).raise F.TTH_STATUS.read_timeout).failRead tag 0xF))) ∧
      (s.links.reads.any (fun r => r.tag == tag.val) = false → exec (.readTimeout tag) s = .next s.settle)) ∧
    ∀ v : Word, s.up = true →
      (s.life = lifeSafe → exec (.colSelfWrite v) s = .next (State.settle (s.setReg Reg.COL_SELF (v &&& 0x1FF)))) ∧
      (s.life ≠ lifeSafe → exec (.colSelfWrite v) s = .next (State.settle (s.raise F.COL_SURVEY_STAT.cfg_err))) ∧
      ((s.life = lifeSafe ∨ s.life = lifeLoaded) →
        exec (.colTorusWrite v) s = .next (State.settle (s.setReg Reg.COL_TORUS (v &&& 0x1FF)))) ∧
      (s.life ≠ lifeSafe → s.life ≠ lifeLoaded →
        exec (.colTorusWrite v) s = .next (State.settle (s.raise F.COL_SURVEY_STAT.cfg_err)))

/-- The phases of a survey round. A SURVEY command starts a sequence when none runs, and waits; the hold-off starts
one; settling asks every other package of the extent and keeps the change counts; a request is answered with this
package's own entry or its change sum; a reply in its phase is kept; the walk's end asks again for the changes of those
that replied; the end of confirmation publishes a stable round, starts an unstable one again, and gives up at the
eighth unstable one in a row. It says where SURVEY, SURVEY_HOLDOFF_END, SURVEY_SETTLE_END, IDENTITY_REQUEST,
IDENTITY_REPLY, SURVEY_WALK_END and SURVEY_CONFIRM_END complete. -/
def Obligations.SurveyRoundsRun : Prop :=
  ∀ (s : State) (q : Fin 16) (c : Cmd) (i : Fin 512) (ws : List Word),
    (s.Starts 0x18 q [lifeSafe, lifeLoaded, lifeArmed, lifeLive, lifeDraining, lifeReplay] c → c.sub = 0 →
      let b := s.begun q c
      let b1 := { b with survey := { b.survey with cmds := [c.id] } }
      b.survey.cmds = [] → exec (.survey q) s = .next (State.settle ((if b.survey.phase = 0 then b1.startSequence else b1).wait c.id))) ∧
    (s.survey.holdoff = true → s.survey.phase = 0 → s.up = true → s.life ≠ lifeBoot → s.life ≠ lifeFault →
      exec .surveyHoldoffEnd s =
      .next (State.settle (State.startSequence { s with survey := { s.survey with holdoff := false } }))) ∧
    (s.survey.phase = 1 →
      let t := { s with survey := { s.survey with phase := 2, changes := s.portChanges } }
      exec .surveySettleEnd s = .next (State.settle (t.asked.foldl (fun s i => s.sendMgmt i .identityRequest) t))) ∧
    (let t := s.takeMgmt i
     (s.up = true → exec (.identityRequest i true) s = .next (State.settle (t.sendMgmt i (.changeReply s.changeSum))) ∧
       exec (.identityRequest i false) s = .next (State.settle (t.sendMgmt i (.identityReply s.ownEntry)))) ∧
     (t.asked.contains i.val = true → t.survey.phase = 2 →
       exec (.identityReply i false ws) s = .next (State.settle { t with survey := { t.survey with
         replies := tset (fun _ => none) t.survey.replies i (some ws) } })) ∧
     (t.asked.contains i.val = true → t.survey.phase = 3 → (t.walkReply i).isSome = true →
       exec (.identityReply i true ws) s = .next (State.settle { t with survey := { t.survey with
         confirms := tset (fun _ => none) t.survey.confirms i (some (bits (ws.headD 0).toNat 0 16)) } }))) ∧
    (s.survey.phase = 2 →
      let t := { s with survey := { s.survey with phase := 3 } }
      exec .surveyWalkEnd s = .next (State.settle (t.replied.foldl (fun s i => s.sendMgmt i .changeRequest) t))) ∧
    (s.survey.phase = 3 →
      (s.unstable = false → exec .surveyConfirmEnd s =
        .next (State.settle ((s.publish.setFld F.COL_SURVEY_STAT.unstable_run 0).endSequence stOk))) ∧
      (s.unstable = true →
        let t := s.satInc F.COL_SURVEY_STAT.unstable_run
        (8 ≤ t.fld F.COL_SURVEY_STAT.unstable_run → exec .surveyConfirmEnd s =
          .next (State.settle ((t.raise F.COL_SURVEY_STAT.unstable).endSequence stSurveyUnstable))) ∧
        (t.fld F.COL_SURVEY_STAT.unstable_run < 8 → t.surveyCancelled = false →
          exec .surveyConfirmEnd s = .next t.startRound.settle)))

/-- Roll calls, and forming, grafting and retiring a group. A valid FORM_GROUP of a retired or aborted group whose
members are reachable takes a virtual channel, makes it FORMING and starts its roll call; a record is kept for its
member and the call is judged; a caller whose call times out names the lowest member that is missing, a member without
an outcome names the caller; a member applies the caller's outcome; a valid GRAFT_GROUP makes the group GRAFTING, and
the graft that is due applies; a RETIRE_GROUP of a group with no open collective and no menu in use retires it. It says
where FORM_GROUP, ROLL_CALL_RECORD, ROLL_CALL_TIMEOUT, ROLL_CALL_OUTCOME, FORM_GROUP_TIMEOUT, GRAFT_GROUP, GRAFT_APPLY
and RETIRE_GROUP complete. -/
def Obligations.GroupsFormAndRetire : Prop :=
  ∀ (s : State) (q : Fin 16) (c : Cmd) (g : Fin 64),
    let b := s.begun q c
    let k := bits (c.w 0) 0 6
    (s.Starts 0x19 q [lifeLoaded, lifeArmed, lifeLive, lifeReplay] c → c.sub = 0 → c.only [0x3F, 0xFFFF, 0] = true → c.w 1 ≠ 0 →
      (b.fld (brState k) = grRetired ∨ b.fld (brState k) = grAborted) → b.isMember k = true →
      ∀ v t, b.takeVc k = some (v, t) → (b.members k).find? (fun m => b.topoWord m % 4 != 3) = none →
      exec (.formGroup q) s = .next (State.settle (((((t.setGroup k { t.group k with
        prior := b.fld (brState k), cmd := c.id, sentOutcome := false, graft := none }).setGroupState k grForming).dropHeldAborts
        k).wait c.id).startRoll k))) ∧
    (∀ (i : Fin 512) im fw st en dm ep pa, s.up = true → exec (.rollCallRecord i g im fw st en dm ep pa) s =
      .next (State.settle (((s.takeMgmt i).keepRecord g i ⟨im, fw, st, en, dm, ep, s.time.spool, pa⟩).judgeRoll g))) ∧
    (∀ m, s.callerOf g = s.self → s.calling g = true → (s.group g).sentOutcome = false →
      (s.party g).find? (fun m => (s.recordOf g m).isNone) = some m →
      exec (.rollCallTimeout g) s = .next (State.settle (s.sendOutcome g 2 0 m 0))) ∧
    (let t := s.takeMgmt (s.callerOf g)
     t.callerOf g ≠ t.self → t.calling g = true → ∀ (kd : Fin 3) (f : Fin 6) (m : Fin 512) (e : BitVec 16),
       exec (.rollCallOutcome g kd f m e) s = .next (t.applyOutcome g kd f m e.toNat).settle) ∧
    (s.callerOf g ≠ s.self → s.calling g = true →
      exec (.formGroupTimeout g) s = .next (State.settle (s.failGroup g stGroupTimeout 0 (s.callerOf g)))) ∧
    (s.Starts 0x1A q [lifeLoaded, lifeArmed, lifeLive] c → c.sub = 0 → c.only [0x01FF003F, full, 0xFFFF] = true → c.w 2 ≠ 0 →
      b.fld (brState k) = grAborted →
      ∀ x, b.variant k (bits (c.w 0) 16 9) = some x → b.variantFits x = true →
      (b.members k).contains (bits (c.w 0) 16 9) = true → bits (c.w 0) 16 9 ≠ b.self → b.time.orbit + 1 < c.w 1 →
      b.switchPending = false → (List.range 64).any (fun k => b.fld (brState k) == grGrafting) = false →
      let s1 := (b.setGroup k { b.group k with cmd := c.id, sentOutcome := false
                                               graft := some ⟨x.bitmap, bits (c.w 0) 16 9, x.menu, c.w 1, none⟩ }).setGroupState k grGrafting
      let s2 := ((s1.setFld F.COL_GRAFT_STAT.group k).setFld F.COL_GRAFT_STAT.omitted (bits (c.w 0) 16 9)).raise F.COL_GRAFT_STAT.pending
      exec (.graftGroup q) s = .next (State.settle ((((s2.setFld F.COL_GRAFT_STAT.orbit (c.w 1)).dropHeldAborts k).wait
        c.id).startRoll k))) ∧
    (∀ j x e, s.dueGraft = some (j, x, e) → exec .graftApply s = .next (s.applyGraft j x e).settle) ∧
    (s.Starts 0x1B q [lifeLoaded, lifeArmed, lifeLive, lifeDraining, lifeReplay, lifeFault] c → c.sub = 0 → c.only [0x3F] = true →
      b.coll.runs.any (fun r => r.group == k && r.open) = false →
      (b.fld (brState k) = grReady ∨ b.fld (brState k) = grAborted) → (b.life == lifeLive && b.groupInUse k) = false →
      exec (.retireGroup q) s = .next (State.settle (((b.setGroupState k grRetired).releaseVc k).finish c.id stOk [])))

/-- Feeding, sending, landing, deciding and retrying collectives. A data operand for a feed joins the row of the first
run of its event that still needs rows, or of the last one where none does; of the virtual channels with a chunk to
send, the next in turn sends one, which REPLAY keeps for RETRY; a received chunk is taken off its queue; a landed row
goes to its zone and moves its group on; a run past its deadline is aborted, and one that is decided commits; in REPLAY
a requested chunk is sent again with its attempt counted; an idle transit channel is released. It says where
FEED_TOKEN, CHUNK_SEND, CHUNK_RECEIVED, ROW_LANDING, COLLECTIVE_DEADLINE, COLLECTIVE_COMMIT, CHUNK_RETRY and
TRANSIT_IDLE complete; all but CHUNK_RETRY wait while the clock is stalled. -/
def Obligations.CollectivesMoveTheirChunks : Prop :=
  ∀ (s : State) (die : Fin 2) (n : Fin 8),
    (s.stalled = false →
    (∀ f t r, s.takeFlight (.feed die n) = some (f, t) → s.retryFull die = false → f.tok.operand = true →
      ((t.feedRuns die n f.tok.ev).find? (fun r => r.feed.length < t.feedNeed r)).or (t.feedRuns die n f.tok.ev).getLast? = some r →
      exec (.feedToken die n) s = .next (t.feedRow r f.tok).settle) ∧
    (∀ v r c p, ((List.range 16).map (fun i => (s.coll.lastServed + 1 + i) % 16)).find? (fun v => (s.sendable v).isSome) = some v →
      s.sendable v = some (r, c, p) →
      let t := (s.setRun { r with unsent := r.unsent.drop 1, sent := r.sent + 1 }).pushFlits p 1 (cutFlits 1 false (c.bytes.take 16) c.bytes)
      exec .chunkSend s = .next (State.settle { t with coll := { t.coll with
        lastServed := v
        retry := if s.life = lifeReplay then t.coll.retry ++ [((s.schedCfg r.entry).die, c)] else t.coll.retry } })) ∧
    (∀ m rest, s.links.chunks = m :: rest → exec .chunkReceived s =
      .next (State.takeChunk { s with links := { s.links with chunks := rest } } m).settle) ∧
    (∀ (z : Fin 64) l rest k, takeFirst (fun l => l.zone == z.val) s.coll.landing = some (l, rest) →
      let t := State.landRow { s with coll := { s.coll with landing := rest } } l
      t.entryOfZone z = some k → exec (.rowLanding z) s = .next (t.pump (t.schedCfg k).group).settle) ∧
    (∀ r, s.settleOver.coll.runs.find? s.settleOver.deadlineDue = some r →
      exec .collectiveDeadline s = .next (s.settleOver.deadlineRun r).settle) ∧
    (∀ r, s.settleOver.coll.runs.find? s.settleOver.commitDue = some r →
      exec .collectiveCommit s = .next (s.settleOver.decideRun r).settle) ∧
    ∀ v : Fin 16, (nbit (s.fld F.COL_TRANSIT_MAP.transit) v = true → exec (.transitIdle v) s = .next (State.settle
        ((((s.lower (F.COL_VC.held v)).lower (F.COL_VC.group v)).setMapBit F.COL_TRANSIT_MAP.transit v false).setVchan v {}))) ∧
      (nbit (s.fld F.COL_TRANSIT_MAP.transit) v = false → exec (.transitIdle v) s = .next s.settle)) ∧
    ∀ (i : Fin 512) (g : Fin 64) (o w : Fin 65536) e,
      let hit := fun (e : Nat × Chunk) => e.2.dst == i.val && e.2.group == g.val && e.2.ordinal == o.val && e.2.row == w.val
      let c := { e.2 with attempt := e.2.attempt + 1 }
      let t := s.takeMgmt i
      t.life = lifeReplay → t.coll.retry.find? hit = some e → exec (.chunkRetry i g o w) s = .next (State.settle
        (State.sendChunk { t with coll := { t.coll with retry := t.coll.retry.map (fun x => if hit x then (x.1, c) else x) } } c))

/-- Writes through the window and BAR4 reach the bytes they name, and no others. Once firmware serves the registers, a
window write of an address that stands in a memory and may be written stores its four bytes there, and BAR4 bytes that
may all be written are stored in the cold frame; every other byte of the atlas, and every register, stands. A window
write of another address counts an access error, and a BAR4 write that may not be made is dropped and counted. A window
read of a memory answers its word, with the error that its ECC found there counted. Before that, nothing is written and
a read answers 0. It says where ATLAS_ACCESS and BAR4_WRITE complete. -/
def Obligations.WindowAndBar4ReachTheMemories : Prop :=
  ∀ (off : Nat) (w : Word) (data : List Byte) (s : State),
    let o := alignDown (off % 0x2000000)
    let a := (s.reg Reg.HUB_ATLAS_BASE).toNat * 2 ^ 25 + o
    (s.up = true → 0x2000000 ≤ a →
      (s.memWritable a = true → ∃ t, exec (.atlasAccess off (.write w)) s = .next (State.settle t) ∧
        t.memRead a 4 = leBytes 4 w.toNat ∧ (∀ x, x < a ∨ a + 4 ≤ x → t.memRead x 1 = s.memRead x 1) ∧ { t with mem := s.mem } = s) ∧
      (s.memWritable a = false → exec (.atlasAccess off (.write w)) s = .next (State.settle (s.accessError (0x2000000 + o)))) ∧
      ∀ found, exec (.atlasAccess off (.read found)) s = .next (State.settle
        (State.looked { s.readEcc a found with rdata := (s.readEcc a found).atlasWord a }))) ∧
    (s.up = false → exec (.atlasAccess off (.write w)) s = .next s.settle ∧
      (∀ found, exec (.atlasAccess off (.read found)) s = .next (State.settle { s with rdata := 0 })) ∧ exec (.bar4Write off data) s = .next s.settle) ∧
    (s.up = true → (∀ i, i < data.length → off + i < 2 ^ 32 ∧ s.memWritable (cold (off + i)) = true) →
      ∃ t, exec (.bar4Write off data) s = .next (State.settle t) ∧ t.memRead (cold off) data.length = data ∧
        (∀ x, x < cold off ∨ cold off + data.length ≤ x → t.memRead x 1 = s.memRead x 1) ∧ { t with mem := s.mem } = s) ∧
    (s.up = true → (∃ i, i < data.length ∧ s.memWritable (cold (off + i)) = false) → exec (.bar4Write off data) s =
      .next (State.settle ((s.satInc F.CFM_ECC_STAT.bar4_reject).raise F.CFM_EVT.bar4_reject)))

/-- Prunes and restores are accepted, prepared, and take effect at a boundary. PRUNE_UNIT of an available and exposed
place of a die with no prune or restore pending, and RESTORE_UNIT of a pruned one, are accepted and wait; RESTORE_UNIT
of a place that is only quarantined clears the quarantine and its history and completes at once with the orbit; a prune
that is prepared takes effect at once outside LIVE and REPLAY; at an orbit boundary every die's prepared prunes and its
restores are reached; a paused die switches once it holds no token of an earlier event. It says where PRUNE_UNIT,
RESTORE_UNIT, PRUNE_PREPARED, PRUNE_APPLY, RESTORE_APPLY and SIDESTEP_SWITCH complete. -/
def Obligations.PrunesAndRestores : Prop :=
  ∀ (q : Fin 16) (c : Cmd) (d r p : Nat) (s : State),
    let lives := [lifeSafe, lifeLoaded, lifeArmed, lifeLive, lifeDraining, lifeReplay]
    let b := s.begun q c
    (s.Starts 0x20 q lives c → c.sub = 0 → c.only [0x7FF] = true → c.cu = some (d, r, p) → b.available d r p = true →
      (b.logicalOf d r p).isSome = true → b.jobOn d = false →
      exec (.pruneUnit q) s = .next (State.settle ((b.acceptJob { die := d, row := r, pos := p }).wait c.id))) ∧
    (s.Starts 0x21 q lives c → c.sub = 0 → c.only [0x7FF] = true → c.cu = some (d, r, p) → isUnit (bits (c.w 0) 0 11) = true →
      nbit (b.fusedMask d r) p = false → b.jobOn d = false → nbit (b.prunedMask d r) p = true →
      exec (.restoreUnit q) s = .next (State.settle ((b.acceptJob { die := d, row := r, pos := p, restore := true }).wait c.id))) ∧
    (s.Starts 0x21 q lives c → c.sub = 0 → c.only [0x7FF] = true → isUnit (bits (c.w 0) 0 11) = true →
      isMuCol (uCol (bits (c.w 0) 0 11)) = true →
      let u := bits (c.w 0) 0 11
      let k := 13 * uRow u + uCol u
      b.jobOn (uDie u) = false → b.bit (F.TRL_SITE_FSTAT.quarantined (uDie u) k) = true →
      let t := (b.lower (F.TRL_SITE_FSTAT.quarantined (uDie u) k)).lower (F.TRL_SITE_FSTAT.recent (uDie u) k)
      exec (.restoreUnit q) s = .next (State.settle ((t.forgetFaults u).finish c.id stOk [BitVec.ofNat 32 s.time.orbit]))) ∧
    (∀ j js, takeFirst (fun j => !j.prepared && !j.restore) s.spares.jobs = some (j, js) →
      let t := s.setJobs (s.spares.jobs.map (fun x => if x = j then { x with prepared := true } else x))
      (s.life = lifeLive ∨ s.life = lifeReplay → exec .prunePrepared s = .next t.settle) ∧
      (s.life ≠ lifeLive → s.life ≠ lifeReplay → exec .prunePrepared s =
        .next (t.reachJobs j.die t.time.orbit t.time.crossing (t.xindex + 1) (fun x => x.prepared && !x.restore)).settle)) ∧
    (s.atBoundary = true →
      let t := s.pruneBoundary s.boundaryId.1 s.boundaryId.2 (s.xindex + 1)
      exec .pruneApply s = .next t.settle ∧ exec .restoreApply s = .next t.settle) ∧
    ∀ (die : Fin 16) (x : Pause), s.stalled = false → s.pauseOf die = some x →
      (s.dieHolds die x.start = true → exec (.sidestepSwitch die) s = .next s.settle) ∧
      (s.dieHolds die x.start = false → ∃ t : State, exec (.sidestepSwitch die) s = .next t.settle ∧
        t = State.runJobs (State.showPrunes { s with spares := { s.spares with
          pauses := tset (fun _ => none) s.spares.pauses die none } }) die x.jobs x.orbit x.crossing)

/-- CAPTURE_ARM and its sub-ops, the freeze, and CAPTURE_READ. CAPTURE_ARM with a size from 1 to 336 and no
CAPTURE_READ running arms the capture; a freeze request is a cause of freezing at the current crossing and a disarm
waits for the next boundary, each only while the capture runs; the freeze happens at the end of its crossing; a
CAPTURE_READ of records that a frozen capture holds copies them and their side groups. It says where CAPTURE_ARM,
CAPTURE_FREEZE_REQUEST, CAPTURE_DISARM, CAPTURE_FREEZE and CAPTURE_READ complete. -/
def Obligations.CaptureIsArmedFrozenAndRead : Prop :=
  ∀ (q : Fin 16) (c : Cmd) (s : State),
    let b := s.begun q c
    (s.Starts 0x28 q [lifeLoaded, lifeArmed, lifeLive] c → c.sub = 0 → c.only [0x1FF, 0xFFFFF, 0x303FF] = true →
      1 ≤ bits (c.w 0) 0 9 → bits (c.w 0) 0 9 ≤ 336 → b.reading = false →
      let t := b.armCapture (bits (c.w 0) 0 9) (c.w 1) (c.w 2)
      exec (.captureArm q) s = .next (State.settle (t.finish c.id stOk t.capWords))) ∧
    (s.Starts 0x28 q [lifeLoaded, lifeArmed, lifeLive, lifeDraining] c → b.reading = false → b.capState = capRunning →
      (c.sub = 1 → exec (.captureFreezeRequest q) s = .next (State.settle
        ((b.capCause b.xindex causeFreeze).finish c.id stOk (b.capCause b.xindex causeFreeze).capWords))) ∧
      (c.sub = 2 → exec (.captureDisarm q) s = .next (State.settle (b.addEffect ⟨b.xindex + 1, c.id, .disarm⟩)))) ∧
    (s.capture.freezeDue = true → s.time.spool % 32 = 31 → exec .captureFreeze s = .next s.freeze.settle) ∧
    ∀ (corrected o m : Nat) (bad : List Nat), s.Starts 0x29 q [2, 3, 4, 5, 6, 7, 15] c → c.sub = 0 → c.w 2 ≠ 0 → c.w 2 ≤ 344064 →
      hostRange (c.w64 3) (((b.captureRanges (c.w64 0) (c.w 2)).map (fun r => r.2)).sum) = true → b.capState = capFrozen →
      b.cmds.any (fun x => x.op == 0x29 && x.stage != .fetched && x.id != c.id) = false →
      b.capture.oldest = some o → o ≤ c.w64 0 → b.capture.newest = some m → c.w64 0 + c.w 2 ≤ m + 1 → b.engineIn .idle ≠ [] →
      let here := bad.filter (fun j => c.w64 0 ≤ j && j < c.w64 0 + c.w 2)
      exec (.captureRead q corrected bad) s = .next (State.settle
        (((b.startEngine c (coldDescs (b.captureRanges (c.w64 0) (c.w 2)) (c.w64 3))).countEcc corrected here.length).markRecords here))

/-- START_REPLAY, the events it presents, and its stall warning. A valid START_REPLAY of a capture that holds the
range, and of a source whose records check, enters REPLAY, with the trace that it names; while it runs, no event was
presented in the running crossing, and the presented event may be written, the next record is read, counted and
presented under the menu resident at its tag, and a tag that is not resident ends the replay with ST_STATE and the
index; a stall sets replay_stall once. It says where START_REPLAY, REPLAY_PRESENT and REPLAY_STALL_WARN complete. -/
def Obligations.ReplayPresentsItsRecords : Prop :=
  ∀ (q : Fin 16) (c : Cmd) (s : State),
    let b := s.begun q c
    (s.Starts 0x13 q [lifeLoaded] c → c.sub ≤ 2 → c.w 2 ≠ 0 → b.bit F.HUB_IMG_STAT.unfit = false →
      let p := b.when (c.sub != 2) (fun s => s.corrected 0x20000000)
      let a := c.w64 0
      ∀ (tr : List TraceSpill) (u : State),
      ((c.w64 3 = 0 ∧ tr = [] ∧ u = p) ∨ (c.w64 3 ≠ 0 ∧ hostRange (c.w64 3) (16 * c.w 5) = true ∧
        ∃ bs, p.readHost true (c.w64 3) (16 * c.w 5) = (bs, none, u) ∧ tr = traceSpills (bytesWords bs))) →
      (c.sub = 0 → u.captureOk a (c.w 2) = true →
        exec (.startReplay q) s = .next ((u.loadSnapshot a).beginReplay c tr).settle) ∧
      (c.sub ≠ 0 → hostRange a 0 = true → ∀ v h w e x, u.recordsOk c.sub (c.w 2) a = (true, none, v) →
        v.sourceRead c.sub a 128 = (h, none, w) → w.sourceSides c.sub a h = (e, none, x) →
        exec (.startReplay q) s = .next (State.settle (if fullSnapshot e.2 then (e.2.foldl State.applySide x).beginReplay c tr
          else x.finish c.id stParam [0, 0, 0])))) ∧
    (∀ r x t, s.replay = some r → s.life = lifeReplay → r.left ≠ 0 → r.shown ≠ some s.xindex → s.withheld none = false → s.nextRecord r = (x, none, t) →
      ∀ (corrected : Fin 1169) (bad : Bool),
      (∀ m, s.residentAt (u8 x.1 14) = some m → s.withheld (some m) = false →
        exec (.replayPresent corrected bad) s = .next (State.settle
          (((t.countEcc corrected (b2n bad)).markRecords (if bad && r.source == 0 then [leNat (sub x.1 0 8)] else [])).presentRecord
            r m x.1 x.2 (bad || (r.source == 0 && ((t.countEcc corrected (b2n bad)).markRecords
              (if bad && r.source == 0 then [leNat (sub x.1 0 8)] else [])).capture.badRecords.contains (leNat (sub x.1 0 8))))))) ∧
      (s.residentAt (u8 x.1 14) = none → exec (.replayPresent corrected bad) s =
        .next (State.settle (t.endReplay stState (loHi (leNat (sub x.1 0 8))))))) ∧
    ∀ r, s.replay = some r → s.life = lifeReplay → r.left ≠ 0 →
      (r.warned = false → exec .replayStallWarn s =
        .next (State.settle (State.raise { s with replay := some { r with warned := true } } F.CFM_EVT.replay_stall))) ∧
      (r.warned = true → exec .replayStallWarn s = .next s.settle)

/-- SHADOW_CONFIG, the mirrored menus, the shadow runs and their comparison. SHADOW_CONFIG of dies that the image
leaves free sets the dies, the offset and the sampling, in LIVE the sampling alone from the next event; a mirrored menu
shows ready; with the device LIVE or DRAINING and no run, the oldest queued entry of a mirrored menu that is resident
runs, and the errors its ECC corrected are counted; when the run has ended and left no piece behind, its taps are
compared, each with those of the event, and verified counts when all agree. It says where SHADOW_CONFIG,
SHADOW_MIRROR_DONE, SHADOW_RUN and SHADOW_COMPARE complete. -/
def Obligations.ShadowDiesFollow : Prop :=
  ∀ (q : Fin 16) (c : Cmd) (s : State),
    let b := s.begun q c
    let dies := bits (c.w 0) 0 16
    let delta := bits (c.w 0) 16 2
    let k := bits (c.w 0) 24 5
    (s.Starts 0x50 q [lifeLoaded, lifeArmed, lifeLive] c → c.sub = 0 → c.only [0x1F03FFFF] = true → k ≤ 20 →
      shadowOk dies delta = true → dies &&& b.image.dies = 0 →
      (b.life ≠ lifeLive →
        let t := (b.setShadow dies delta).setFld F.DET_SHADOW_CFG.k k
        let t : State := { t with spares := { t.spares with nextK := none } }
        exec (.shadowConfig q) s = .next (State.settle (t.finish c.id stOk [t.reg Reg.CFM_SHD_CFG]))) ∧
      (b.life = lifeLive → dies = b.fld F.CFM_SHD_CFG.dies → delta = b.fld F.CFM_SHD_CFG.delta →
        exec (.shadowConfig q) s = .next (State.settle
          (State.finish { b with spares := { b.spares with nextK := some k } } c.id stOk [b.reg Reg.CFM_SHD_CFG])))) ∧
    (∀ (tag : Fin 8) (m : Menu), s.shadow.mirrors.contains tag.val = true → s.residentAt tag = some m →
      let t := (s.mirrorMenu m).setMapBit F.CFM_SHD_CFG.ready tag true
      exec (.shadowMirrorDone tag) s = .next (State.settle
        { t with shadow := { t.shadow with mirrors := t.shadow.mirrors.filter (fun x => x != tag.val) } })) ∧
    (∀ x l m, s.liveOrDraining = true → s.shadow.run = none → s.shadowPaused = false → s.shadow.queue = x :: l →
      s.image.menus.find? (fun m => m.number == x.menu) = some m → nbit (s.fld F.CFM_SHD_CFG.ready) x.tag = true →
      (s.residentAt x.tag).any (fun r => r.number == x.menu) = true →
      exec .shadowRun s = .next ((s.corrected 0x800000).startShadow x m).settle) ∧
    ∀ x, s.shadow.run = some x → s.shadow.ended = true → (∀ p ∈ s.trellis.pieces, p.ev ≠ x.ev) →
      ∃ t : State, exec .shadowCompare s =
          .next (State.settle { t with shadow := { t.shadow with run := none, taps := [], ended := false } }) ∧
        ((∀ p ∈ x.taps, ∀ t, (State.compareTap t x p).1 = true ∧ (State.compareTap t x p).2 = t) → t = s.satInc F.CFM_SHD_COUNT.verified)

/-- Doorbells, fetching, enabling, disabling and cancelling. A doorbell value below the depth of an enabled queue
becomes the tail or head, and frees the entries that it passes; any other sets db_err. A queue with an entry that may
be fetched advances its head and takes the entry, with the inconsistency that the firmware meets in it if it meets one,
and a fault of the ring halts it. A queue that is enabled starts with its pointers at 0 and phase 1, and not halted; a
disabled one keeps its base and depth registers as written. It says where SQ_DOORBELL, CQ_DOORBELL, COMMAND_FETCH,
QP_ENABLE, QP_DISABLE and QP_CANCEL complete. -/
def Obligations.RingsAndDoorbells : Prop :=
  ∀ (q : Fin 16) (v : Word) (s : State),
    let n := v.toNat % 4096
    let freed := (n + s.depth q - s.fld (F.HUB_QP_CQ.head q)) % s.depth q
    (s.up = true → s.bit (F.HUB_QP_CFG.en q) = true → n < s.depth q →
      exec (.sqDoorbell q v) s = .next (State.settle ((s.setFld (F.HUB_QP_SQ_TAIL.tail q) n).setQueue q { s.queue q with sqDb := n })) ∧
      (freed ≤ (s.queue q).used → exec (.cqDoorbell q v) s = .next (State.settle ((s.setFld (F.HUB_QP_CQ.head q) n).setQueue q
        { s.queue q with cqDb := n, used := (s.queue q).used - freed }))) ∧
      ((s.queue q).used < freed → exec (.cqDoorbell q v) s = .next (State.settle (s.raise (F.HUB_QP_STAT.db_err q))))) ∧
    (s.bit (F.HUB_QP_CFG.en q) = false ∨ s.depth q ≤ n →
      exec (.sqDoorbell q v) s = .next (State.settle (s.raise (F.HUB_QP_STAT.db_err q))) ∧
      exec (.cqDoorbell q v) s = .next (State.settle (s.raise (F.HUB_QP_STAT.db_err q)))) ∧
    (∀ found : Option Word, (s.mayFetch q = true → ∀ bs t,
      (s.readHost (!s.bit (F.HUB_QP_CFG.phys q)) (s.wide (Reg.HUB_QP_SQ_BASE_LO q) + 64 * s.fld (F.HUB_QP_STAT.sq_head q)) 64 =
          (bs, none, t) → exec (.commandFetch ⟨q, found⟩) s = .next (State.settle
        ((t.setFld (F.HUB_QP_STAT.sq_head q) ((s.fld (F.HUB_QP_STAT.sq_head q) + 1) % t.depth q)).takeEntry q found bs))) ∧
      ∀ f, s.readHost (!s.bit (F.HUB_QP_CFG.phys q)) (s.wide (Reg.HUB_QP_SQ_BASE_LO q) + 64 * s.fld (F.HUB_QP_STAT.sq_head q)) 64 =
          (bs, some f, t) → exec (.commandFetch ⟨q, found⟩) s = .next (State.settle (t.ringFault q 0 0 f))) ∧
      (s.mayFetch q = false → exec (.commandFetch ⟨q, found⟩) s = .next s.settle)) ∧
    (s.up = true → v.getLsbD 0 = true → s.bit (F.HUB_QP_CFG.en q) = false → (s.queue q).held = [] →
      ∃ t, exec (.qpEnable q v) s = .next (State.settle t) ∧ t.bit (F.HUB_QP_CFG.en q) = true ∧
        t.fld (F.HUB_QP_STAT.sq_head q) = 0 ∧ t.fld (F.HUB_QP_SQ_TAIL.tail q) = 0 ∧ t.fld (F.HUB_QP_CQ.tail q) = 0 ∧
        t.fld (F.HUB_QP_CQ.phase q) = 1 ∧ t.bit (F.HUB_QP_STAT.halted q) = false ∧ (t.queue q).used = 0 ∧
        t.mem = s.mem ∧ t.host = s.host) ∧
    (s.up = true → v.getLsbD 0 = false → s.bit (F.HUB_QP_CFG.en q) = true →
      ∃ t, exec (.qpDisable q v) s = .next (State.settle t) ∧ t.bit (F.HUB_QP_CFG.en q) = false ∧ t.depth q = s.depth q ∧
        t.mem = s.mem ∧ t.host = s.host ∧ t.hub = s.hub) ∧
    (s.up = true → exec (.qpCancel q v) s = .next (s.writeQpCancel q v).settle)

/-- An entry that repeats a sequence number is answered and not run. Of a command that passed steps 1 and 2: a repeat
of one in flight answers ST_DUPLICATE, a repeat of one in the store answers that one's completion again with the
duplicate flag, a sequence number that stands with another opcode or parameters answers ST_SEQ_CONFLICT; the answer
leaves no command of its number in the table and brings none in. An unknown opcode, another queue's id and a bad length
complete the command with their status; any other entry leaves the state as it is, the command waiting at stage 1. A
command in which the firmware meets an inconsistency of its own ends with ST_INTERNAL and the internal code. -/
def Obligations.EntriesRunOnce : Prop :=
  ∀ (s : State) (c : Cmd) (qid len : Nat),
    (∀ x, (s.queueCmds c.queue).find? (fun x => x.seq == c.seq && x.id != c.id) = some x →
      (x.op = c.op ∧ x.digest = c.digest → s.checkEntry c qid len = s.answer c (c.completion stDuplicate 6 [3])) ∧
      (x.op ≠ c.op ∨ x.digest ≠ c.digest → s.checkEntry c qid len = s.answer c (c.completion stSeqConflict 4 [3]))) ∧
    ((s.queueCmds c.queue).find? (fun x => x.seq == c.seq && x.id != c.id) = none →
      (∀ e, (s.queue c.queue).store.find? (fun e => e.comp.seq == c.seq) = some e →
        (e.comp.op = c.op → e.digest = c.digest →
          s.checkEntry c qid len = s.answer c { e.comp with flags := setBit e.comp.flags 1, sqHead := c.sqHead }) ∧
        (e.comp.op ≠ c.op ∨ e.digest ≠ c.digest → s.checkEntry c qid len = s.answer c (c.completion stSeqConflict 4 [3]))) ∧
      ((s.queue c.queue).store.find? (fun e => e.comp.seq == c.seq) = none →
        (opInfo c.op (c.w 0) (c.w 1) = none → s.checkEntry c qid len = s.finish c.id stBadOpcode [4]) ∧
        ∀ k r, opInfo c.op (c.w 0) (c.w 1) = some (k, r) →
          (qid ≠ c.queue → s.checkEntry c qid len = s.finish c.id stParam [5]) ∧
          (qid = c.queue → r.ok len = false → s.checkEntry c qid len = s.finish c.id stLength [6]) ∧
          (qid = c.queue → r.ok len = true → s.checkEntry c qid len = s))) ∧
    (∀ (op q : Nat) lives body code x, s.startable op q = some x → s.lifeIn (lives x) = true → s.power.rom = false →
      x.internal = some code → s.command op q lives body = (s.begun q x).finish x.id stInternal [code]) ∧
    ∀ comp : Completion, (∀ x ∈ (s.answer c comp).cmds, x ∈ s.cmds) ∧
      ((s.cmds.map (fun x => x.id)).Nodup → ∀ x ∈ (s.answer c comp).cmds, x.id ≠ c.id)

/-- IDENTIFY, WRITE_CONTROL, ARM, START_LIVE, DRAIN and MEASURE_REPORT. Each command, started in a state that permits
it with operands that its rules accept, completes with the words and the effect that they give, or waits for its
crossing; what waits takes effect when its crossing comes (at a tick 0 the bits that hardware sets with it are noted, a
clear of the same tick leaves them set). It says where IDENTIFY, WRITE_CONTROL, WRITE_CONTROL_APPLY, ARM, START_LIVE,
LIVE_START, DRAIN, DRAIN_APPLY and MEASURE_REPORT complete. -/
def Obligations.LifecycleAndControlCommands : Prop :=
  ∀ (q : Fin 16) (c : Cmd) (s : State),
    let b := s.begun q c
    (s.Starts 0x01 q [1, 2, 3, 4, 5, 6, 7, 15] c → c.sub = 0 → exec (.identify q) s = .next (State.settle (b.finish c.id stOk
      [b.view Reg.HUB_ID, b.view Reg.HUB_REV, b.view Reg.HUB_FW_VER, b.view Reg.HUB_SERIAL_LO, b.view Reg.HUB_SERIAL_HI, b.view Reg.HUB_IMG_ID]))) ∧
    (s.Starts 0x03 q [2, 3, 4, 5, 6, 7, 15] c → c.sub = 0 → (∀ e ∈ wordPairs (c.words.drop 2), pairOk e.1 = true) →
      let ps := wordPairs (c.words.drop 2)
      (c.w64 0 = 0 → exec (.writeControl q) s = .next (State.settle ((b.writePairs ps).finish c.id stOk [BitVec.ofNat 32 ps.length]))) ∧
      (c.w64 0 ≠ 0 → b.farEnough (c.w64 0) = true → exec (.writeControl q) s =
        .next (State.settle ((b.addEffect ⟨c.w64 0, c.id, .writeControl ps⟩).wait c.id)))) ∧
    (∀ e r ps, s.takeDue isWriteControl = some (e, r) → e.kind = .writeControl ps →
      exec .writeControlApply s =
      .next (State.settle (((r.stage e.cmd .running).writePairs ps).finish e.cmd stOk [BitVec.ofNat 32 ps.length]))) ∧
    (s.Starts 0x10 q [lifeLoaded] c → c.sub = 0 → b.bit F.TIM_STATUS.pll_lock = true → b.tooFast = false →
      b.bit F.HUB_IMG_STAT.unfit = false →
      exec (.arm q) s = .next (State.settle ((b.enter lifeArmed).finish c.id stOk [(b.enter lifeArmed).reg Reg.HUB_STATE]))) ∧
    (s.Starts 0x11 q [lifeArmed] c → c.sub = 0 → b.bit F.TIM_STATUS.launch_pending = false → b.bit F.HUB_IMG_STAT.unfit = false →
      exec (.startLive q) s = .next (State.settle (b.addEffect ⟨b.firstFar, c.id, .startLive⟩))) ∧
    (∀ e r, s.counts = true → s.takeDue EffectKind.isStart = some (e, r) →
      (r.life = lifeArmed → ∃ m, exec .liveStart s = .next (State.settle
        { (r.enterLive e.cmd).finish e.cmd stOk (loHi e.crossing) with
          time := { ((r.enterLive e.cmd).finish e.cmd stOk (loHi e.crossing)).time with fresh := m } })) ∧
      (r.life ≠ lifeArmed → ∃ m, exec .liveStart s = .next (State.settle
        { r.finish e.cmd stAborted [] with time := { (r.finish e.cmd stAborted []).time with fresh := m } }))) ∧
    (s.Starts 0x12 q [lifeArmed, lifeLive, lifeReplay] c → c.sub = 0 →
      let x := if c.w64 0 = 0 then b.firstFar else c.w64 0
      (b.life = lifeArmed → exec (.drain q) s =
        .next (State.settle (((b.overtake 0).dropGraftSwitch.enter lifeLoaded).drained c))) ∧
      (b.life = lifeReplay → exec (.drain q) s = .next (State.settle (b.drainReplay.drained c))) ∧
      (b.life = lifeLive → b.farEnough x = true → exec (.drain q) s = .next (State.settle
        ((b.setCmd { c with progress := x, stage := .waiting }).addEffect ⟨x, c.id, .drain (c.w64 0 != 0)⟩).resume))) ∧
    (∀ e r, s.takeDue isDrain = some (e, r) → ∃ m, exec .drainApply s =
      .next (State.settle { r.runDrain e with time := { (r.runDrain e).time with fresh := m } })) ∧
    ∀ n t, s.Starts 0x48 q [1, 2, 3, 4, 5, 6, 7, 15] c → c.sub = 0 → hostRange (c.w64 0) 336 = true → 336 ≤ c.w 2 →
      b.writeHost true (c.w64 0) b.measRecord = (n, none, t) →
      exec (.measureReport q) s = .next (State.settle (t.finish c.id stOk [336]))

/-- STORE and ERASE, the domains, the supplies, power failure and temperature. A STORE whose data can be read and an
ERASE start their ballast check while no other uses flash, and the end of a flash operation completes it; a domain that
may switch begins to, and its end shows it on or off; a used rail whose voltage is outside its window is shown and
faults with cause 4, one inside it is shown no more; a failed supply shows, and sheds the package into FAULT if
shed_on_fail is 1; a refresh of the sensors shows their temperatures. It says where STORE, ERASE, FLASH_OP_DONE,
PWR_DOM_CTRL_WRITE, DOMAIN_SWITCH_DONE, SUPPLY_OUT_OF_WINDOW, SUPPLY_IN_WINDOW, PWR_FAIL, PWR_FAIL_CLEAR,
PWR_FAIL_GLITCH and THERMAL_REFRESH complete. -/
def Obligations.FlashAndPower : Prop :=
  ∀ (q : Fin 16) (c : Cmd) (s : State),
    let b := s.begun q c
    (∀ data t, s.Starts 0x40 q (flashLives c) c → c.sub ≤ 3 → hostRange (c.w64 0) (c.w 2) = true → c.w 2 ≠ 0 → c.w 2 ≤ storeMax c.sub →
      b.flashBusy = false → b.readHost true (c.w64 0) (c.w 2) = (data, none, t) →
      exec (.store q) s = .next (State.settle (t.startFlash c ⟨c.id, false, c.sub,
        if c.sub = 3 then (t.fld F.PWR_LDG_SEQ.seq + 1) % 2 ^ 32 else (flashTarget c.sub).1, c.w 2, data, false, false, false⟩ (c.w 3)))) ∧
    (s.Starts 0x41 q (flashLives c) c → c.sub ≤ 3 → b.flashBusy = false →
      exec (.erase q) s = .next (State.settle (b.startFlash c ⟨c.id, true, c.sub, (flashTarget c.sub).1, (flashTarget c.sub).2, [],
        false, false, false⟩ (c.w 0)))) ∧
    (∀ o faults, s.power.flashOp = some o → o.started = true →
      ((s.endFlash o faults).power.resetWait = none → exec (.flashOpDone faults) s = .next (s.endFlash o faults).settle) ∧
      ∀ x, (s.endFlash o faults).power.resetWait = some x →
        exec (.flashOpDone faults) s = .next ((s.endFlash o faults).warmReset x).settle) ∧
    (∀ (v : Word) (n : Nat), s.up = true → 3 ≤ n → n < 24 → s.maySwitch n = true → s.switchOf n = none → v.getLsbD n = !s.domOn n →
      (∀ k, 3 ≤ k → k < 24 → k ≠ n → s.switchOf k = none ∧ v.getLsbD k = s.domOn k) → n < 7 → v.getLsbD n = true →
      exec (.pwrDomCtrlWrite v) s = .next (State.settle (s.startSwitch n true))) ∧
    (∀ d : Fin 24, (s.switchOf d = none → exec (.domainSwitchDone d) s = .next s.settle) ∧
      (s.switchOf d = some true → exec (.domainSwitchDone d) s = .next (State.settle ((s.setSwitch d none).gainDomain d))) ∧
      (s.switchOf d = some false → ∃ t, exec (.domainSwitchDone d) s = .next (State.settle t) ∧ t.domOn d = false ∧
        t.life = s.life ∧ t.mem = s.mem ∧ t.time = s.time)) ∧
    (∀ (rail : Fin 16) (mv : BitVec 16),
      let inside := (s.railWindow rail).1 ≤ mv.toNat ∧ mv.toNat ≤ (s.railWindow rail).2
      let t := ((s.setMapBit F.PWR_SUPPLY_STAT.now rail true).setMapBit F.PWR_SUPPLY_STAT.seen rail true).raise F.PWR_EVT.supply_fault
      (s.railUsed rail = true → ¬inside → (s.life > lifeBoot → exec (.supplyOutOfWindow ⟨rail, mv⟩) s = .next (t.enterFault 4).settle) ∧
        (s.life ≤ lifeBoot → exec (.supplyOutOfWindow ⟨rail, mv⟩) s = .next t.settle) ∧
        exec (.supplyInWindow ⟨rail, mv⟩) s = .next s.settle) ∧
      (s.railUsed rail = false ∨ inside → exec (.supplyOutOfWindow ⟨rail, mv⟩) s = .next s.settle ∧
        exec (.supplyInWindow ⟨rail, mv⟩) s = .next (State.settle (s.setMapBit F.PWR_SUPPLY_STAT.now rail false)))) ∧
    (let low := State.raise (State.raise { s with pins := { s.pins with powerFailN := false } } F.PWR_FAIL_STAT.pwr_fail) F.PWR_EVT.pwr_fail
     (low.bit F.PWR_CFG.shed_on_fail = true → exec .pwrFail s = .next ((low.enterFault 4).cutFrom 3).settle) ∧
     (low.bit F.PWR_CFG.shed_on_fail = false → exec .pwrFail s = .next low.settle)) ∧
    (exec .pwrFailClear s = .next (State.settle (State.lower { s with pins := { s.pins with powerFailN := true } } F.PWR_FAIL_STAT.pwr_fail))) ∧
    (∃ t, exec .pwrFailGlitch s = .next (State.settle t) ∧
      t.fld F.PWR_FAIL_STAT.glitch = min (s.fld F.PWR_FAIL_STAT.glitch + 1) 65535 ∧ { t with regs := s.regs } = s) ∧
    ∀ rs, exec (.thermalRefresh rs) s = .next (s.refreshTemps rs).settle

/-- READ_STATE, XLAT_INVALIDATE, the DMA sub-ops and the chunks. A valid READ_STATE loads an engine with its one
descriptor; a valid XLAT_INVALIDATE drops the translations it names and, when no access that used one is outstanding,
completes with the number dropped; a FAULTED engine is resumed with its command running again, or its command ends with
ST_FAULT_XLAT; a running engine that does not wait moves a chunk, and the errors corrected where it reads the cold
frame are counted; a held tag becomes free and a remote write that waited for it goes on. It says where READ_STATE,
XLAT_INVALIDATE, XLAT_INVALIDATE_DONE, DMA_RESUME, DMA_CANCEL, DMA_CHUNK and TAG_HOLD_EXPIRY complete. -/
def Obligations.DmaCommandsAndChunks : Prop :=
  ∀ (q : Fin 16) (c : Cmd) (s : State),
    let b := s.begun q c
    let any := [1, 2, 3, 4, 5, 6, 7, 15]
    (s.Starts 0x02 q any c → c.sub = 0 → c.only [full, 0xFF, full, full, full] = true → c.w64 0 % 4 = 0 → c.w 2 % 4 = 0 →
      c.w 2 ≠ 0 → c.w64 0 + c.w 2 ≤ 2 ^ 40 → hostRange (c.w64 3) (c.w 2) = true →
      exec (.readState q) s = .next (State.settle (b.startEngine c [⟨.atlas, .hostVirtual, 0, c.w64 0, c.w64 3, c.w 2⟩]))) ∧
    (s.Starts 0x58 q any c → c.sub ≤ 1 → c.only [full, full, full] = true →
      (c.sub = 1 → hostRange (c.w64 0) (c.w 2) = true ∧ c.w 2 ≠ 0) →
      let r := b.dropCached (fun t => c.sub == 0 || t.meets (c.w64 0) (c.w 2))
      exec (.xlatInvalidate q) s = .next (State.settle ((r.2.setCmd { c with stage := .running, progress := r.1 }).resume))) ∧
    (∀ x, (s.queueCmds q).find? (fun c => c.op == 0x58 && c.stage == .running) = some x →
      let r := s.dropCached (fun t => x.sub == 0 || t.meets (x.w64 0) (x.w 2))
      exec (.xlatInvalidateDone q) s = .next (State.settle (r.2.finish x.id stOk [BitVec.ofNat 32 (x.progress + r.1)]))) ∧
    (s.Starts 0x68 q any c → c.only [7] = true →
      let e := bits (c.w 0) 0 3
      (b.engine e).mode = .faulted →
      (c.sub = 0 → let t := b.setEngine e { b.engine e with mode := .running }
        exec (.dmaResume q) s = .next (State.settle ((t.stage (b.engine e).cmd .running).finish c.id stOk []))) ∧
      (c.sub = 1 → ∀ d, (b.finish c.id stOk []).cmd ((b.finish c.id stOk []).engine e).cmd = some d →
        exec (.dmaCancel q) s = .next (State.settle ((b.finish c.id stOk []).endEarly d stFaultXlat)))) ∧
    (∀ e : Fin 8,
      ((s.engine e).mode = .running → (s.engine e).dataWait = false → exec (.dmaChunk e) s =
        .next ((s.when (s.readsCold e) (fun s => s.corrected 512)).runChunk e).settle) ∧
      ((s.engine e).mode ≠ .running → exec (.dmaChunk e) s = .next s.settle)) ∧
    ∀ tag : Fin 4096,
      let t := s.setTagEntry tag { s.tagEntry tag with held := false }
      let waits := fun e => (t.engine e).waitTag == some tag.val && (t.engine e).desc.any (fun d => d.dstKind == .remote)
      ((t.engineIn .running).find? waits = none → exec (.tagHoldExpiry tag) s = .next t.settle) ∧
      ∀ e, (t.engineIn .running).find? waits = some e → exec (.tagHoldExpiry tag) s = .next (t.runChunk e).settle

/-- The interrupt controller's registers, claims and completions. Setting and clearing pending change the named
sources' pending and software bits alone: a set adds them where the source was not pending, and a clear leaves a level
source that its origin holds and no target serves; source 0 has no configuration; a vector range past 63 sets cfg_err,
one inside it is kept, and target 3 has none; a claim answers the claimable source of the highest priority, of the
lowest number among equals, and takes it in service; an EOI of the top of the stack ends its service and another is
counted; the end of a rate interval makes its source claimable again; unmasking sends what was held. It says where
INT_PEND_SET, INT_PEND_CLEAR, INT_SRC_CFG_WRITE, INT_TGT_THRESH_WRITE, INT_TGT_VEC_WRITE, INT_CLAIM, INT_EOI,
INT_RATE_EXPIRY and MSIX_UNMASK complete. -/
def Obligations.InterruptCommandsAct : Prop :=
  ∀ s : State,
    (s.up = true → ∀ (i : Fin 8) (v : Word),
      (∃ t, exec (.intPendSet i v) s = .next (State.settle t) ∧ { t with intc := s.intc } = s ∧ t.intc.active = s.intc.active ∧
        ∀ x, 1 ≤ x → x < 256 →
          inMap t.intc.pend x = (inMap s.intc.pend x || (x / 32 == i.val && v.getLsbD (x % 32))) ∧
          inMap t.intc.soft x = (inMap s.intc.soft x || (x / 32 == i.val && v.getLsbD (x % 32) && !inMap s.intc.pend x))) ∧
      ∃ t, exec (.intPendClear i v) s = .next (State.settle t) ∧ { t with intc := s.intc } = s ∧ t.intc.active = s.intc.active ∧
        ∀ x, 1 ≤ x → x < 256 →
          let held := !(pulseSource x || s.bit (F.INT_SRC_CFG.edge x)) && !inMap s.intc.active x && s.origin x
          let gone := x / 32 == i.val && v.getLsbD (x % 32) && !held
          inMap t.intc.pend x = (inMap s.intc.pend x && !gone) ∧ inMap t.intc.soft x = (inMap s.intc.soft x && !gone)) ∧
    (s.up = true → ∀ v : Word, exec (.intSrcCfgWrite 0 v) s = .next s.settle ∧
      (∀ x : Fin 256, x.val ≠ 0 →
        exec (.intSrcCfgWrite x v) s = .next (State.settle (s.setReg (Reg.INT_SRC_CFG x) (v &&& 0x00FFFFFF)))) ∧
      (∀ k : Fin 4, exec (.intTgtThreshWrite k v) s = .next (State.settle (s.setReg (Reg.INT_TGT_THRESH k) (v &&& 0xF)))) ∧
      exec (.intTgtVecWrite 3 v) s = .next s.settle ∧
      ∀ k : Fin 4, k.val < 3 →
        let last := v.toNat % 64 + max 1 (v.toNat / 256 % 16) - 1
        (last ≤ 63 → exec (.intTgtVecWrite k v) s = .next (State.settle (s.setReg (Reg.INT_TGT_VEC k) (v &&& 0xF3F)))) ∧
        (63 < last → exec (.intTgtVecWrite k v) s = .next (State.settle (s.raise (F.INT_TGT_STAT.cfg_err k))))) ∧
    (∀ (k : Nat) (c : Intc),
      (∀ x, x < 256 → s.claimable c k x = true → s.fld (F.INT_SRC_CFG.prio x) ≤ (s.bestOf c k).2) ∧
      ((s.bestOf c k).2 ≠ 0 → s.claimable c k (s.bestOf c k).1 = true ∧ (s.bestOf c k).2 = s.fld (F.INT_SRC_CFG.prio (s.bestOf c k).1) ∧
        ∀ x, x < 256 → s.claimable c k x = true → s.fld (F.INT_SRC_CFG.prio x) = (s.bestOf c k).2 → (s.bestOf c k).1 ≤ x)) ∧
    (s.up = true → ∀ (p : Path) (k : Fin 4),
      let n := s.bestOf s.intc k
      ((s.intc.stack k).length < 8 → n.1 ≠ 0 → exec (.intClaim p k) s = .next (State.settle { s.take k n with rdata := claimWord n }) ∧
        (s.take k n).intc.stack k = n :: s.intc.stack k ∧
        (n.1 < 256 → inMap (s.take k n).intc.active n.1 = true ∧ inMap (s.take k n).intc.pend n.1 = false)) ∧
      ((s.intc.stack k).length < 8 → n.1 = 0 → exec (.intClaim p k) s = .next (State.settle { s with rdata := 0 })) ∧
      (8 ≤ (s.intc.stack k).length → exec (.intClaim p k) s =
        .next (State.settle { s.satInc (F.INT_TGT_STAT.claim_full k) with rdata := 0 }))) ∧
    (s.up = true → ∀ (k : Fin 4) (v : Word),
      let x := v.toNat % 256
      let w := s.setReg (Reg.INT_TGT_EOI k) (v &&& 0xFF)
      (x = 0 → exec (.intEoi k v) s = .next w.settle) ∧
      (∀ e l, x ≠ 0 → s.intc.stack k = e :: l → e.1 = x → exec (.intEoi k v) s = .next (State.settleWith { w with intc := { w.intc with
        active := putMap w.intc.active x false, nested := tset (fun _ => []) w.intc.nested k l } } (some k.val))) ∧
      (x ≠ 0 → (∀ e l, s.intc.stack k = e :: l → e.1 ≠ x) → exec (.intEoi k v) s =
        .next (State.settle ((w.satInc (F.INT_TGT_STAT.eoi_mismatch_count k)).raise (F.INT_TGT_STAT.eoi_mismatch k))))) ∧
    (∀ x : Fin 256, exec (.intRateExpiry x) s = .next (State.settle { s with intc := { s.intc with rate := putMap s.intc.rate x false } })) ∧
    exec (.msixUnmask none) s = .next (State.settle (State.sendHeld { s with msix := { s.msix with masked := false } })) ∧
    ∀ v : Fin 64, exec (.msixUnmask (some v)) s = .next (State.settle (s.lower (F.HUB_MSIX_CTRL.mask v)).sendHeld)

/-- The resets, the boot and the watchdog. A cold reset, by power or by RESET_N, leaves BOOT with its cause and a boot
count of 1, clears the memories of the package (that the cold frame, whose contents R521 does not preserve, then reads
0 is the model's choice, log 4) and keeps flash that was not being written, fuses and host memory. A keyed warm reset
outside a flash write leaves BOOT with its cause and a boot count one higher, and keeps the time base and the cold
frame; a wrong key does nothing. A PCIe reset with no command in flight clears the queues and the DMA and leaves the
memories, the image and the time base. An accepted die reset clears its die where none runs and waits its turn where
one does, a refused one shows; its end rewrites the die and starts the next that waits. Firmware starts from the slot
selected, or the ROM shows recovery in FAULT with cause 5. A watchdog expiry is FAULT with cause 5. It says where
POWER_ON, COLD_RESET, WARM_RESET, PCIE_RESET, DIE_RESET, DIE_RESET_DONE, FIRMWARE_START, SAFE_ENTRY and WATCHDOG_EXPIRY
complete. -/
def Obligations.ResetsKeepWhatTheyKeep : Prop :=
  ∀ s : State,
    (let kept := fun (t : State) (cause : Nat) => t.life = lifeBoot ∧ t.power.boot = 3 ∧ t.time.held = true ∧
        t.fld F.HUB_BOOT_STAT.reset_cause = cause ∧ t.reg Reg.HUB_BOOT_COUNT = 1 ∧ t.mem = [] ∧ t.host = s.host ∧
        t.fuses = s.fuses ∧ t.pending = s.pending ∧ (s.power.flashOp = none → t.flash = s.flash)
     (∃ t, exec .powerOn s = .next (State.settle t) ∧ kept t 1) ∧
     (s.power.boot ≠ 0 → ∃ t, exec .coldReset s = .next (State.settle t) ∧ kept t 2) ∧
     (s.power.boot = 0 → exec .coldReset s = .next s.settle)) ∧
    (∀ (w : WarmCause) (v : Word), s.mayWarm w = true →
      (w = .watchdog ∨ (v.getLsbD 0 = true ∧ v.toNat / 0x1000000 = 0xA5) → s.power.flashOp = none →
        ∃ t, exec (.warmReset w v) s = .next (State.settle t) ∧ t.life = lifeBoot ∧ t.power.boot = 3 ∧
          t.fld F.HUB_BOOT_STAT.reset_cause = warmCode w ∧
          t.reg Reg.HUB_BOOT_COUNT = BitVec.ofNat 32 ((s.reg Reg.HUB_BOOT_COUNT).toNat + 1) ∧
          t.time.spool = s.time.spool ∧ t.time.wallSec = s.time.wallSec ∧ t.flash = s.flash ∧
          ∀ a, cold 0 ≤ a → a < cold 0x100000000 → twf memDflt s.mem = true → t.memRead a 1 = s.memRead a 1) ∧
      (w ≠ .watchdog → v.getLsbD 0 = false ∨ v.toNat / 0x1000000 ≠ 0xA5 → exec (.warmReset w v) s = .next s.settle)) ∧
    (s.power.boot ≠ 0 → s.cmds = [] → ∃ t, exec .pcieReset s = .next (State.settle t) ∧ t.cmds = [] ∧ t.dma = {} ∧ t.mem = s.mem ∧
      t.flash = s.flash ∧ t.host = s.host ∧ t.image = s.image ∧ t.time = s.time ∧ t.lanes = s.lanes ∧ t.life = s.life) ∧
    (∀ d : Nat, d < 16 → 3 ≤ s.power.boot →
      let v := BitVec.ofNat 32 (0xA5000000 + 2 ^ d)
      let r := s.setReg Reg.HUB_DIE_RESET v
      (r.mayReset d = false → exec (.dieReset v) s = .next (State.settle (r.raise F.HUB_BOOT_STAT.reset_refused))) ∧
      (r.mayReset d = true → s.power.dieReset = [] →
        let t := (r.clearDie d).setFld F.HUB_BOOT_STAT.die_busy 1
        exec (.dieReset v) s = .next (State.settle { t with power := { t.power with dieReset := [d] } }) ∧
        ∀ a, dieBase d ≤ a → a < dieBase d + 0x4000000 → twf memDflt s.mem = true → t.memRead a 1 = [0]) ∧
      (r.mayReset d = true → s.power.dieReset ≠ [] →
        exec (.dieReset v) s = .next (State.settle { r with power := { r.power with dieNext := r.power.dieNext ++ [[d]] } }))) ∧
    (∀ d : Fin 16, s.power.dieReset.contains d.val = true →
      let r := ((s.corrected 0x4000000).rewriteDie d).mirrorAgain d
      let left := r.power.dieReset.filter (fun x => x != d.val)
      let t : State := { r with power := { r.power with dieReset := left } }
      (left = [] → r.power.dieNext = [] → exec (.dieResetDone d) s = .next (State.settle (t.lower F.HUB_BOOT_STAT.die_busy))) ∧
      (∀ ds rest, left = [] → r.power.dieNext = ds :: rest → exec (.dieResetDone d) s =
        .next (State.settle (State.startDieReset { t with power := { t.power with dieNext := rest } } ds))) ∧
      (left ≠ [] → exec (.dieResetDone d) s = .next t.settle)) ∧
    (s.power.boot = 3 → s.power.rom = false → s.power.test = false → ∀ k a b, s.bootSlot = (k, a, b) →
      let m := ((s.showBoot k a b).digestMap.measureAll k).raise F.HUB_BOOT_STAT.meas_lock
      (k = none → exec .firmwareStart s = .next (State.settle
        ((State.raise { m with power := { m.power with rom := true } } F.HUB_BOOT_STAT.recovery).enterFault 5))) ∧
      ∀ n, k = some n → exec .firmwareStart s = .next (State.settle ((m.setReg Reg.HUB_FW_VER (packWord
        [(u8 (m.flashRead (slotBase n) 32) 10, 0), (u8 (m.flashRead (slotBase n) 32) 11, 8), (u8 (m.flashRead (slotBase n) 32) 12, 16)])).startFirmware))) ∧
    (s.power.boot = 4 → s.power.firmware = true →
      let r := ((List.range 21).foldl (fun s i => s.endSwitch (3 + i)) s).memZero (dieBase 0) 0x40000000
      let t : State := { r with power := { r.power with boot := 6, removed := [] } }
      (t.life ≠ lifeBoot → exec .safeEntry s = .next t.settle) ∧
      (t.life = lifeBoot → exec .safeEntry s = .next ((t.setLife lifeSafe).scanLedger.checkChain.applyBank).settle)) ∧
    (s.power.boot ≠ 0 → s.bit F.HUB_WDT_CFG.en = true → ∃ t, exec .watchdogExpiry s = .next (State.settle t) ∧
      t = { s.enterFault 5 with power := { (s.enterFault 5).power with
        wdtDue := (s.enterFault 5).power.wdtDue || (s.enterFault 5).bit F.HUB_WDT_CFG.reset_on_expiry } })

/-- The SMBus window, MCTP, DOE and the module bus. Window transactions set the window, read and write the register it
points at and step it on, when their PEC is right; a wrong PEC is counted and changes nothing else of the window. MCTP
and DOE messages are answered or dropped as their kind says, and a free bus carries the answers that wait. A module
transaction waits, takes the free bus, and ends with what the bus did; lost arbitration is tried again while tries are
left, a stuck clock ends it, and clears and resets of the bus act as commanded. It says where SMB_SET_WINDOW,
SMB_WINDOW_WRITE, SMB_WINDOW_WRITE_NEXT, SMB_WINDOW_READ, SMB_WINDOW_READ_NEXT, SMB_STATUS_READ, SMB_TIMEOUT,
MCTP_MESSAGE, DOE_OBJECT, SMB_BUS_FREE, SMB_ARB_LOST, MODULE_XFER, MOD_BUS_FREE, MOD_ARB_LOST, MOD_SCL_TIMEOUT,
MOD_TRANSACTION_DONE, MOD_BUS_CLEAR, MOD_RESET_PULSE_END, MGT_MOD_CFG_WRITE, MOD_CLEAR_REQUEST, MOD_CONTROLLER_RESET
and MOD_RESET_ASSERT complete. -/
def Obligations.ManagementBuses : Prop :=
  ∀ s : State,
    (s.up = true → ∀ (v : Word) (p : Option Byte) (k : Bool),
      (s.pecOk 0x10 v p = true → exec (.smbSetWindow v p) s = .next (State.settle (s.setFld F.MGT_SMB_WADDR.offset v.toNat))) ∧
      (s.pecOk 0x10 v p = false → exec (.smbSetWindow v p) s =
        .next (State.settle ((s.satInc F.MGT_SMB_STAT.pec_errs).raise F.MGT_EVT.smb_pec_err))) ∧
      (s.pecOk 0x11 v p = true → exec (.smbWindowWrite v p) s = .next (s.windowPut v).settle) ∧
      (s.pecOk 0x12 v p = true → exec (.smbWindowWriteNext v p) s = .next (s.windowPut v).windowStep.settle) ∧
      exec (.smbWindowRead k) s = .next (s.windowLook.windowAnswer 0x11 k).settle ∧
      exec (.smbWindowReadNext k) s = .next (s.windowLook.windowAnswer 0x12 k).windowStep.settle ∧
      exec (.smbStatusRead k) s = .next (State.settle (s.smbAnswer 0x13 (leBytes 1 (b2n s.mgt.rejected)) k)) ∧
      exec .smbTimeout s = .next (State.settle (((State.satInc { s with mgt := { s.mgt with smbOut := [], mctpSending := false } }
        F.MGT_SMB_STAT.timeouts)).raise F.MGT_EVT.smb_timeout))) ∧
    (∀ (src : Fin 128) (bs : List Byte), s.up = true → s.bit F.MGT_SMB_CFG.mctp_en = true → s.power.rom = false → bs.length ≤ 4096 →
      let t := (s.satInc F.MGT_MCTP_STAT.received).raise F.MGT_EVT.mctp_rx
      exec (.mctpMessage src false bs) s = .next s.dropMctp.settle ∧
      (mbyte bs 0 % 128 = 0 → exec (.mctpMessage src true bs) s = .next (t.mctpControl src bs).settle) ∧
      (mbyte bs 0 % 128 = 5 → exec (.mctpMessage src true bs) s = .next (t.mctpSpdm src bs).settle) ∧
      (mbyte bs 0 % 128 ≠ 0 → mbyte bs 0 % 128 ≠ 5 → exec (.mctpMessage src true bs) s = .next t.dropMctp.settle)) ∧
    (∀ bs : List Byte, s.up = true → s.power.rom = false → s.power.firmware = true → 8 ≤ bs.length → bs.length ≤ 4096 → mhalf bs 0 = 1 →
      (mbyte bs 2 = 0 → exec (.doeObject bs) s = .next (State.settle (s.answerDoe (doeObject 0 (discovery (mbyte bs 8)))))) ∧
      (mbyte bs 2 = 1 → exec (.doeObject bs) s = .next (State.settle
        ((s.spdmRequest .doe (bs.drop 8)).2.answerDoe (doeObject 1 (s.spdmRequest .doe (bs.drop 8)).1))))) ∧
    (s.mgt.mctpSending = false → exec .smbBusFree s =
      .next (State.settle { s with mgt := { s.mgt with mctpSending := !s.mgt.mctpWait.isEmpty } })) ∧
    exec .smbArbLost s = .next (State.settle { s with mgt := { s.mgt with mctpSending := false } }) ∧
    (∀ (q : Fin 16) (c : Cmd), s.Starts 0x60 q [2, 3, 4, 5, 6, 7, 15] c → c.sub = 0 → c.only [0x013F3F7F] = true →
      bits (c.w 0) 8 6 ≤ 32 → bits (c.w 0) 16 6 ≤ 20 → (bits (c.w 0) 8 6 ≠ 0 ∨ bits (c.w 0) 16 6 ≠ 0) →
      let b := s.begun q c
      exec (.moduleXfer q) s = .next (State.settle (State.wait { b with mgt := { b.mgt with
        modQueue := b.mgt.modQueue ++ [{ cmd := c.id }] } } c.id))) ∧
    (∀ m l, s.mgt.modNow = none → s.mgt.clearDue = false → (s.modLines true true).modReady = true → s.mgt.modQueue = m :: l →
      let t := s.modLines true true
      exec .modBusFree s = .next (State.settle (State.showBus { t with mgt := { t.mgt with modQueue := l, modNow := some m } } true true))) ∧
    (∀ m, s.mgt.modNow = some m →
      (let m1 := { m with losses := m.losses + 1 }
       let t := (s.leaveBus.satInc F.MGT_MOD_CNT.arb_lost).raise F.MGT_EVT.mod_arb_lost
       t.xferCancelled m1 = false →
        (m1.losses < max 1 (t.fld F.MGT_MOD_CFG.arb_retries) →
          exec .modArbLost s = .next (State.settle { t with mgt := { t.mgt with modQueue := m1 :: t.mgt.modQueue } })) ∧
        (max 1 (t.fld F.MGT_MOD_CFG.arb_retries) ≤ m1.losses →
          exec .modArbLost s = .next (State.settle (t.endXfer m1 stModuleBus 0 [] false false)))) ∧
      (∀ (w : Fin 33) (data : List Byte), w.val ≤ (s.xferCounts m).1 → data.length ≤ (s.xferCounts m).2 →
        exec (.modSclTimeout w data) s = .next (State.settle
          (((s.leaveBus.modLines s.pins.modSda false).raise F.MGT_MOD_STAT.stuck).endXfer m stModuleBus w data false true)) ∧
        let t : State := { s with mgt := { s.mgt with modLog := (s.xferBytes m).take (w + 1) :: s.mgt.modLog } }
        (s.xferCancelled m = false → exec (.modTransactionDone w data true) s =
          .next (State.settle (t.leaveBus.endXfer m stModuleBus w data true false))) ∧
        (s.xferCancelled m = false → w.val = (s.xferCounts m).1 → data.length = (s.xferCounts m).2 →
          exec (.modTransactionDone w data false) s = .next (State.settle (t.leaveBus.endXfer m stOk w data false false))))) ∧
    (s.mgt.modNow = none → s.mgt.clearDue = true →
      let t : State := { s with mgt := { s.mgt with clearDue := false, clearFails := 0 } }
      exec (.modBusClear true 0) s = .next (State.settle (t.modLines true t.pins.modScl)) ∧
      ∀ n : Fin 4, n.val < 3 → exec (.modBusClear false n) s =
        .next (State.settle (((t.satInc F.MGT_MOD_CNT.clears).modLines true true).lower F.MGT_MOD_STAT.stuck))) ∧
    (s.mgt.pulse = true → exec .modResetPulseEnd s =
      .next (State.settle (State.showModReset { s with mgt := { s.mgt with pulse := false, clearDue := true, clearFails := 1 } }))) ∧
    (s.up = true → ∀ v : Word, exec (.mgtModCfgWrite v) s = .next (s.writeModCfg v).settle ∧
      exec .modClearRequest s = .next (State.settle { s with mgt := { s.mgt with clearDue := true } }) ∧
      exec .modControllerReset s = .next s.resetModBus.settle ∧
      ∀ a, exec (.modResetAssert a) s = .next (State.settle (s.setFld F.MGT_MOD_CTRL.mod_reset (b2n a)).showModReset))
end

