-- ==== Sys2Proof/Laws/State.lean ====
section
/-!
SUPPORT. What each update of the state leaves alone, field by field: every lemma is true by unfolding, and no later
proof unfolds an update of the record.
-/
namespace Sys2Proof.Machine

/-! setReg -/

@[simp] theorem State.setReg_pending (s : State) (o : Nat) (w : Word) : (s.setReg o w).pending = s.pending := rfl
@[simp] theorem State.setReg_free (s : State) (o : Nat) (w : Word) : (s.setReg o w).free = s.free := rfl
@[simp] theorem State.setReg_rdata (s : State) (o : Nat) (w : Word) : (s.setReg o w).rdata = s.rdata := rfl
@[simp] theorem State.setReg_pcie (s : State) (o : Nat) (w : Word) : (s.setReg o w).pcie = s.pcie := rfl
@[simp] theorem State.setReg_smb (s : State) (o : Nat) (w : Word) : (s.setReg o w).smb = s.smb := rfl
@[simp] theorem State.setReg_fw (s : State) (o : Nat) (w : Word) : (s.setReg o w).fw = s.fw := rfl
@[simp] theorem State.setReg_time (s : State) (o : Nat) (w : Word) : (s.setReg o w).time = s.time := rfl
@[simp] theorem State.setReg_govs (s : State) (o : Nat) (w : Word) : (s.setReg o w).govs = s.govs := rfl
@[simp] theorem State.setReg_hub (s : State) (o : Nat) (w : Word) : (s.setReg o w).hub = s.hub := rfl
@[simp] theorem State.setReg_dma (s : State) (o : Nat) (w : Word) : (s.setReg o w).dma = s.dma := rfl
@[simp] theorem State.setReg_host (s : State) (o : Nat) (w : Word) : (s.setReg o w).host = s.host := rfl
@[simp] theorem State.setReg_intc (s : State) (o : Nat) (w : Word) : (s.setReg o w).intc = s.intc := rfl
@[simp] theorem State.setReg_msix (s : State) (o : Nat) (w : Word) : (s.setReg o w).msix = s.msix := rfl
@[simp] theorem State.setReg_fuses (s : State) (o : Nat) (w : Word) : (s.setReg o w).fuses = s.fuses := rfl
@[simp] theorem State.setReg_pins (s : State) (o : Nat) (w : Word) : (s.setReg o w).pins = s.pins := rfl
@[simp] theorem State.setReg_power (s : State) (o : Nat) (w : Word) : (s.setReg o w).power = s.power := rfl
@[simp] theorem State.setReg_flash (s : State) (o : Nat) (w : Word) : (s.setReg o w).flash = s.flash := rfl
@[simp] theorem State.setReg_effects (s : State) (o : Nat) (w : Word) : (s.setReg o w).effects = s.effects := rfl
@[simp] theorem State.setReg_lanes (s : State) (o : Nat) (w : Word) : (s.setReg o w).lanes = s.lanes := rfl
@[simp] theorem State.setReg_presented (s : State) (o : Nat) (w : Word) : (s.setReg o w).presented = s.presented := rfl
@[simp] theorem State.setReg_events (s : State) (o : Nat) (w : Word) : (s.setReg o w).events = s.events := rfl
@[simp] theorem State.setReg_decision (s : State) (o : Nat) (w : Word) : (s.setReg o w).decision = s.decision := rfl
@[simp] theorem State.setReg_mem (s : State) (o : Nat) (w : Word) : (s.setReg o w).mem = s.mem := rfl
@[simp] theorem State.setReg_trellis (s : State) (o : Nat) (w : Word) : (s.setReg o w).trellis = s.trellis := rfl
@[simp] theorem State.setReg_spares (s : State) (o : Nat) (w : Word) : (s.setReg o w).spares = s.spares := rfl
@[simp] theorem State.setReg_image (s : State) (o : Nat) (w : Word) : (s.setReg o w).image = s.image := rfl
@[simp] theorem State.setReg_links (s : State) (o : Nat) (w : Word) : (s.setReg o w).links = s.links := rfl
@[simp] theorem State.setReg_survey (s : State) (o : Nat) (w : Word) : (s.setReg o w).survey = s.survey := rfl
@[simp] theorem State.setReg_groups (s : State) (o : Nat) (w : Word) : (s.setReg o w).groups = s.groups := rfl
@[simp] theorem State.setReg_coll (s : State) (o : Nat) (w : Word) : (s.setReg o w).coll = s.coll := rfl
@[simp] theorem State.setReg_capture (s : State) (o : Nat) (w : Word) : (s.setReg o w).capture = s.capture := rfl
@[simp] theorem State.setReg_replay (s : State) (o : Nat) (w : Word) : (s.setReg o w).replay = s.replay := rfl
@[simp] theorem State.setReg_shadow (s : State) (o : Nat) (w : Word) : (s.setReg o w).shadow = s.shadow := rfl
@[simp] theorem State.setReg_mgt (s : State) (o : Nat) (w : Word) : (s.setReg o w).mgt = s.mgt := rfl

/-! setFld -/

@[simp] theorem State.setFld_pending (s : State) (f : Fld) (v : Nat) : (s.setFld f v).pending = s.pending := State.setReg_pending s _ _
@[simp] theorem State.setFld_free (s : State) (f : Fld) (v : Nat) : (s.setFld f v).free = s.free := State.setReg_free s _ _
@[simp] theorem State.setFld_rdata (s : State) (f : Fld) (v : Nat) : (s.setFld f v).rdata = s.rdata := State.setReg_rdata s _ _
@[simp] theorem State.setFld_pcie (s : State) (f : Fld) (v : Nat) : (s.setFld f v).pcie = s.pcie := State.setReg_pcie s _ _
@[simp] theorem State.setFld_smb (s : State) (f : Fld) (v : Nat) : (s.setFld f v).smb = s.smb := State.setReg_smb s _ _
@[simp] theorem State.setFld_fw (s : State) (f : Fld) (v : Nat) : (s.setFld f v).fw = s.fw := State.setReg_fw s _ _
@[simp] theorem State.setFld_time (s : State) (f : Fld) (v : Nat) : (s.setFld f v).time = s.time := State.setReg_time s _ _
@[simp] theorem State.setFld_govs (s : State) (f : Fld) (v : Nat) : (s.setFld f v).govs = s.govs := State.setReg_govs s _ _
@[simp] theorem State.setFld_hub (s : State) (f : Fld) (v : Nat) : (s.setFld f v).hub = s.hub := State.setReg_hub s _ _
@[simp] theorem State.setFld_dma (s : State) (f : Fld) (v : Nat) : (s.setFld f v).dma = s.dma := State.setReg_dma s _ _
@[simp] theorem State.setFld_host (s : State) (f : Fld) (v : Nat) : (s.setFld f v).host = s.host := State.setReg_host s _ _
@[simp] theorem State.setFld_intc (s : State) (f : Fld) (v : Nat) : (s.setFld f v).intc = s.intc := State.setReg_intc s _ _
@[simp] theorem State.setFld_msix (s : State) (f : Fld) (v : Nat) : (s.setFld f v).msix = s.msix := State.setReg_msix s _ _
@[simp] theorem State.setFld_fuses (s : State) (f : Fld) (v : Nat) : (s.setFld f v).fuses = s.fuses := State.setReg_fuses s _ _
@[simp] theorem State.setFld_pins (s : State) (f : Fld) (v : Nat) : (s.setFld f v).pins = s.pins := State.setReg_pins s _ _
@[simp] theorem State.setFld_power (s : State) (f : Fld) (v : Nat) : (s.setFld f v).power = s.power := State.setReg_power s _ _
@[simp] theorem State.setFld_flash (s : State) (f : Fld) (v : Nat) : (s.setFld f v).flash = s.flash := State.setReg_flash s _ _
@[simp] theorem State.setFld_effects (s : State) (f : Fld) (v : Nat) : (s.setFld f v).effects = s.effects := State.setReg_effects s _ _
@[simp] theorem State.setFld_lanes (s : State) (f : Fld) (v : Nat) : (s.setFld f v).lanes = s.lanes := State.setReg_lanes s _ _
@[simp] theorem State.setFld_presented (s : State) (f : Fld) (v : Nat) : (s.setFld f v).presented = s.presented := State.setReg_presented s _ _
@[simp] theorem State.setFld_events (s : State) (f : Fld) (v : Nat) : (s.setFld f v).events = s.events := State.setReg_events s _ _
@[simp] theorem State.setFld_decision (s : State) (f : Fld) (v : Nat) : (s.setFld f v).decision = s.decision := State.setReg_decision s _ _
@[simp] theorem State.setFld_mem (s : State) (f : Fld) (v : Nat) : (s.setFld f v).mem = s.mem := State.setReg_mem s _ _
@[simp] theorem State.setFld_trellis (s : State) (f : Fld) (v : Nat) : (s.setFld f v).trellis = s.trellis := State.setReg_trellis s _ _
@[simp] theorem State.setFld_spares (s : State) (f : Fld) (v : Nat) : (s.setFld f v).spares = s.spares := State.setReg_spares s _ _
@[simp] theorem State.setFld_image (s : State) (f : Fld) (v : Nat) : (s.setFld f v).image = s.image := State.setReg_image s _ _
@[simp] theorem State.setFld_links (s : State) (f : Fld) (v : Nat) : (s.setFld f v).links = s.links := State.setReg_links s _ _
@[simp] theorem State.setFld_survey (s : State) (f : Fld) (v : Nat) : (s.setFld f v).survey = s.survey := State.setReg_survey s _ _
@[simp] theorem State.setFld_groups (s : State) (f : Fld) (v : Nat) : (s.setFld f v).groups = s.groups := State.setReg_groups s _ _
@[simp] theorem State.setFld_coll (s : State) (f : Fld) (v : Nat) : (s.setFld f v).coll = s.coll := State.setReg_coll s _ _
@[simp] theorem State.setFld_capture (s : State) (f : Fld) (v : Nat) : (s.setFld f v).capture = s.capture := State.setReg_capture s _ _
@[simp] theorem State.setFld_replay (s : State) (f : Fld) (v : Nat) : (s.setFld f v).replay = s.replay := State.setReg_replay s _ _
@[simp] theorem State.setFld_shadow (s : State) (f : Fld) (v : Nat) : (s.setFld f v).shadow = s.shadow := State.setReg_shadow s _ _
@[simp] theorem State.setFld_mgt (s : State) (f : Fld) (v : Nat) : (s.setFld f v).mgt = s.mgt := State.setReg_mgt s _ _

/-! raise -/

@[simp] theorem State.raise_pending (s : State) (f : Fld) : (s.raise f).pending = s.pending := State.setFld_pending s _ _
@[simp] theorem State.raise_free (s : State) (f : Fld) : (s.raise f).free = s.free := State.setFld_free s _ _
@[simp] theorem State.raise_rdata (s : State) (f : Fld) : (s.raise f).rdata = s.rdata := State.setFld_rdata s _ _
@[simp] theorem State.raise_pcie (s : State) (f : Fld) : (s.raise f).pcie = s.pcie := State.setFld_pcie s _ _
@[simp] theorem State.raise_smb (s : State) (f : Fld) : (s.raise f).smb = s.smb := State.setFld_smb s _ _
@[simp] theorem State.raise_fw (s : State) (f : Fld) : (s.raise f).fw = s.fw := State.setFld_fw s _ _
@[simp] theorem State.raise_time (s : State) (f : Fld) : (s.raise f).time = s.time := State.setFld_time s _ _
@[simp] theorem State.raise_govs (s : State) (f : Fld) : (s.raise f).govs = s.govs := State.setFld_govs s _ _
@[simp] theorem State.raise_hub (s : State) (f : Fld) : (s.raise f).hub = s.hub := State.setFld_hub s _ _
@[simp] theorem State.raise_dma (s : State) (f : Fld) : (s.raise f).dma = s.dma := State.setFld_dma s _ _
@[simp] theorem State.raise_host (s : State) (f : Fld) : (s.raise f).host = s.host := State.setFld_host s _ _
@[simp] theorem State.raise_intc (s : State) (f : Fld) : (s.raise f).intc = s.intc := State.setFld_intc s _ _
@[simp] theorem State.raise_msix (s : State) (f : Fld) : (s.raise f).msix = s.msix := State.setFld_msix s _ _
@[simp] theorem State.raise_fuses (s : State) (f : Fld) : (s.raise f).fuses = s.fuses := State.setFld_fuses s _ _
@[simp] theorem State.raise_pins (s : State) (f : Fld) : (s.raise f).pins = s.pins := State.setFld_pins s _ _
@[simp] theorem State.raise_power (s : State) (f : Fld) : (s.raise f).power = s.power := State.setFld_power s _ _
@[simp] theorem State.raise_flash (s : State) (f : Fld) : (s.raise f).flash = s.flash := State.setFld_flash s _ _
@[simp] theorem State.raise_effects (s : State) (f : Fld) : (s.raise f).effects = s.effects := State.setFld_effects s _ _
@[simp] theorem State.raise_lanes (s : State) (f : Fld) : (s.raise f).lanes = s.lanes := State.setFld_lanes s _ _
@[simp] theorem State.raise_presented (s : State) (f : Fld) : (s.raise f).presented = s.presented := State.setFld_presented s _ _
@[simp] theorem State.raise_events (s : State) (f : Fld) : (s.raise f).events = s.events := State.setFld_events s _ _
@[simp] theorem State.raise_decision (s : State) (f : Fld) : (s.raise f).decision = s.decision := State.setFld_decision s _ _
@[simp] theorem State.raise_mem (s : State) (f : Fld) : (s.raise f).mem = s.mem := State.setFld_mem s _ _
@[simp] theorem State.raise_trellis (s : State) (f : Fld) : (s.raise f).trellis = s.trellis := State.setFld_trellis s _ _
@[simp] theorem State.raise_spares (s : State) (f : Fld) : (s.raise f).spares = s.spares := State.setFld_spares s _ _
@[simp] theorem State.raise_image (s : State) (f : Fld) : (s.raise f).image = s.image := State.setFld_image s _ _
@[simp] theorem State.raise_links (s : State) (f : Fld) : (s.raise f).links = s.links := State.setFld_links s _ _
@[simp] theorem State.raise_survey (s : State) (f : Fld) : (s.raise f).survey = s.survey := State.setFld_survey s _ _
@[simp] theorem State.raise_groups (s : State) (f : Fld) : (s.raise f).groups = s.groups := State.setFld_groups s _ _
@[simp] theorem State.raise_coll (s : State) (f : Fld) : (s.raise f).coll = s.coll := State.setFld_coll s _ _
@[simp] theorem State.raise_capture (s : State) (f : Fld) : (s.raise f).capture = s.capture := State.setFld_capture s _ _
@[simp] theorem State.raise_replay (s : State) (f : Fld) : (s.raise f).replay = s.replay := State.setFld_replay s _ _
@[simp] theorem State.raise_shadow (s : State) (f : Fld) : (s.raise f).shadow = s.shadow := State.setFld_shadow s _ _
@[simp] theorem State.raise_mgt (s : State) (f : Fld) : (s.raise f).mgt = s.mgt := State.setFld_mgt s _ _

/-! lower -/

@[simp] theorem State.lower_pending (s : State) (f : Fld) : (s.lower f).pending = s.pending := State.setFld_pending s _ _
@[simp] theorem State.lower_free (s : State) (f : Fld) : (s.lower f).free = s.free := State.setFld_free s _ _
@[simp] theorem State.lower_rdata (s : State) (f : Fld) : (s.lower f).rdata = s.rdata := State.setFld_rdata s _ _
@[simp] theorem State.lower_pcie (s : State) (f : Fld) : (s.lower f).pcie = s.pcie := State.setFld_pcie s _ _
@[simp] theorem State.lower_smb (s : State) (f : Fld) : (s.lower f).smb = s.smb := State.setFld_smb s _ _
@[simp] theorem State.lower_fw (s : State) (f : Fld) : (s.lower f).fw = s.fw := State.setFld_fw s _ _
@[simp] theorem State.lower_time (s : State) (f : Fld) : (s.lower f).time = s.time := State.setFld_time s _ _
@[simp] theorem State.lower_govs (s : State) (f : Fld) : (s.lower f).govs = s.govs := State.setFld_govs s _ _
@[simp] theorem State.lower_hub (s : State) (f : Fld) : (s.lower f).hub = s.hub := State.setFld_hub s _ _
@[simp] theorem State.lower_dma (s : State) (f : Fld) : (s.lower f).dma = s.dma := State.setFld_dma s _ _
@[simp] theorem State.lower_host (s : State) (f : Fld) : (s.lower f).host = s.host := State.setFld_host s _ _
@[simp] theorem State.lower_intc (s : State) (f : Fld) : (s.lower f).intc = s.intc := State.setFld_intc s _ _
@[simp] theorem State.lower_msix (s : State) (f : Fld) : (s.lower f).msix = s.msix := State.setFld_msix s _ _
@[simp] theorem State.lower_fuses (s : State) (f : Fld) : (s.lower f).fuses = s.fuses := State.setFld_fuses s _ _
@[simp] theorem State.lower_pins (s : State) (f : Fld) : (s.lower f).pins = s.pins := State.setFld_pins s _ _
@[simp] theorem State.lower_power (s : State) (f : Fld) : (s.lower f).power = s.power := State.setFld_power s _ _
@[simp] theorem State.lower_flash (s : State) (f : Fld) : (s.lower f).flash = s.flash := State.setFld_flash s _ _
@[simp] theorem State.lower_effects (s : State) (f : Fld) : (s.lower f).effects = s.effects := State.setFld_effects s _ _
@[simp] theorem State.lower_lanes (s : State) (f : Fld) : (s.lower f).lanes = s.lanes := State.setFld_lanes s _ _
@[simp] theorem State.lower_presented (s : State) (f : Fld) : (s.lower f).presented = s.presented := State.setFld_presented s _ _
@[simp] theorem State.lower_events (s : State) (f : Fld) : (s.lower f).events = s.events := State.setFld_events s _ _
@[simp] theorem State.lower_decision (s : State) (f : Fld) : (s.lower f).decision = s.decision := State.setFld_decision s _ _
@[simp] theorem State.lower_mem (s : State) (f : Fld) : (s.lower f).mem = s.mem := State.setFld_mem s _ _
@[simp] theorem State.lower_trellis (s : State) (f : Fld) : (s.lower f).trellis = s.trellis := State.setFld_trellis s _ _
@[simp] theorem State.lower_spares (s : State) (f : Fld) : (s.lower f).spares = s.spares := State.setFld_spares s _ _
@[simp] theorem State.lower_image (s : State) (f : Fld) : (s.lower f).image = s.image := State.setFld_image s _ _
@[simp] theorem State.lower_links (s : State) (f : Fld) : (s.lower f).links = s.links := State.setFld_links s _ _
@[simp] theorem State.lower_survey (s : State) (f : Fld) : (s.lower f).survey = s.survey := State.setFld_survey s _ _
@[simp] theorem State.lower_groups (s : State) (f : Fld) : (s.lower f).groups = s.groups := State.setFld_groups s _ _
@[simp] theorem State.lower_coll (s : State) (f : Fld) : (s.lower f).coll = s.coll := State.setFld_coll s _ _
@[simp] theorem State.lower_capture (s : State) (f : Fld) : (s.lower f).capture = s.capture := State.setFld_capture s _ _
@[simp] theorem State.lower_replay (s : State) (f : Fld) : (s.lower f).replay = s.replay := State.setFld_replay s _ _
@[simp] theorem State.lower_shadow (s : State) (f : Fld) : (s.lower f).shadow = s.shadow := State.setFld_shadow s _ _
@[simp] theorem State.lower_mgt (s : State) (f : Fld) : (s.lower f).mgt = s.mgt := State.setFld_mgt s _ _

/-! satAdd -/

@[simp] theorem State.satAdd_pending (s : State) (f : Fld) (n : Nat) : (s.satAdd f n).pending = s.pending := State.setFld_pending s _ _
@[simp] theorem State.satAdd_free (s : State) (f : Fld) (n : Nat) : (s.satAdd f n).free = s.free := State.setFld_free s _ _
@[simp] theorem State.satAdd_rdata (s : State) (f : Fld) (n : Nat) : (s.satAdd f n).rdata = s.rdata := State.setFld_rdata s _ _
@[simp] theorem State.satAdd_pcie (s : State) (f : Fld) (n : Nat) : (s.satAdd f n).pcie = s.pcie := State.setFld_pcie s _ _
@[simp] theorem State.satAdd_smb (s : State) (f : Fld) (n : Nat) : (s.satAdd f n).smb = s.smb := State.setFld_smb s _ _
@[simp] theorem State.satAdd_fw (s : State) (f : Fld) (n : Nat) : (s.satAdd f n).fw = s.fw := State.setFld_fw s _ _
@[simp] theorem State.satAdd_time (s : State) (f : Fld) (n : Nat) : (s.satAdd f n).time = s.time := State.setFld_time s _ _
@[simp] theorem State.satAdd_govs (s : State) (f : Fld) (n : Nat) : (s.satAdd f n).govs = s.govs := State.setFld_govs s _ _
@[simp] theorem State.satAdd_hub (s : State) (f : Fld) (n : Nat) : (s.satAdd f n).hub = s.hub := State.setFld_hub s _ _
@[simp] theorem State.satAdd_dma (s : State) (f : Fld) (n : Nat) : (s.satAdd f n).dma = s.dma := State.setFld_dma s _ _
@[simp] theorem State.satAdd_host (s : State) (f : Fld) (n : Nat) : (s.satAdd f n).host = s.host := State.setFld_host s _ _
@[simp] theorem State.satAdd_intc (s : State) (f : Fld) (n : Nat) : (s.satAdd f n).intc = s.intc := State.setFld_intc s _ _
@[simp] theorem State.satAdd_msix (s : State) (f : Fld) (n : Nat) : (s.satAdd f n).msix = s.msix := State.setFld_msix s _ _
@[simp] theorem State.satAdd_fuses (s : State) (f : Fld) (n : Nat) : (s.satAdd f n).fuses = s.fuses := State.setFld_fuses s _ _
@[simp] theorem State.satAdd_pins (s : State) (f : Fld) (n : Nat) : (s.satAdd f n).pins = s.pins := State.setFld_pins s _ _
@[simp] theorem State.satAdd_power (s : State) (f : Fld) (n : Nat) : (s.satAdd f n).power = s.power := State.setFld_power s _ _
@[simp] theorem State.satAdd_flash (s : State) (f : Fld) (n : Nat) : (s.satAdd f n).flash = s.flash := State.setFld_flash s _ _
@[simp] theorem State.satAdd_effects (s : State) (f : Fld) (n : Nat) : (s.satAdd f n).effects = s.effects := State.setFld_effects s _ _
@[simp] theorem State.satAdd_lanes (s : State) (f : Fld) (n : Nat) : (s.satAdd f n).lanes = s.lanes := State.setFld_lanes s _ _
@[simp] theorem State.satAdd_presented (s : State) (f : Fld) (n : Nat) : (s.satAdd f n).presented = s.presented := State.setFld_presented s _ _
@[simp] theorem State.satAdd_events (s : State) (f : Fld) (n : Nat) : (s.satAdd f n).events = s.events := State.setFld_events s _ _
@[simp] theorem State.satAdd_decision (s : State) (f : Fld) (n : Nat) : (s.satAdd f n).decision = s.decision := State.setFld_decision s _ _
@[simp] theorem State.satAdd_mem (s : State) (f : Fld) (n : Nat) : (s.satAdd f n).mem = s.mem := State.setFld_mem s _ _
@[simp] theorem State.satAdd_trellis (s : State) (f : Fld) (n : Nat) : (s.satAdd f n).trellis = s.trellis := State.setFld_trellis s _ _
@[simp] theorem State.satAdd_spares (s : State) (f : Fld) (n : Nat) : (s.satAdd f n).spares = s.spares := State.setFld_spares s _ _
@[simp] theorem State.satAdd_image (s : State) (f : Fld) (n : Nat) : (s.satAdd f n).image = s.image := State.setFld_image s _ _
@[simp] theorem State.satAdd_links (s : State) (f : Fld) (n : Nat) : (s.satAdd f n).links = s.links := State.setFld_links s _ _
@[simp] theorem State.satAdd_survey (s : State) (f : Fld) (n : Nat) : (s.satAdd f n).survey = s.survey := State.setFld_survey s _ _
@[simp] theorem State.satAdd_groups (s : State) (f : Fld) (n : Nat) : (s.satAdd f n).groups = s.groups := State.setFld_groups s _ _
@[simp] theorem State.satAdd_coll (s : State) (f : Fld) (n : Nat) : (s.satAdd f n).coll = s.coll := State.setFld_coll s _ _
@[simp] theorem State.satAdd_capture (s : State) (f : Fld) (n : Nat) : (s.satAdd f n).capture = s.capture := State.setFld_capture s _ _
@[simp] theorem State.satAdd_replay (s : State) (f : Fld) (n : Nat) : (s.satAdd f n).replay = s.replay := State.setFld_replay s _ _
@[simp] theorem State.satAdd_shadow (s : State) (f : Fld) (n : Nat) : (s.satAdd f n).shadow = s.shadow := State.setFld_shadow s _ _
@[simp] theorem State.satAdd_mgt (s : State) (f : Fld) (n : Nat) : (s.satAdd f n).mgt = s.mgt := State.setFld_mgt s _ _

/-! satInc -/

@[simp] theorem State.satInc_pending (s : State) (f : Fld) : (s.satInc f).pending = s.pending := State.satAdd_pending s _ _
@[simp] theorem State.satInc_free (s : State) (f : Fld) : (s.satInc f).free = s.free := State.satAdd_free s _ _
@[simp] theorem State.satInc_rdata (s : State) (f : Fld) : (s.satInc f).rdata = s.rdata := State.satAdd_rdata s _ _
@[simp] theorem State.satInc_pcie (s : State) (f : Fld) : (s.satInc f).pcie = s.pcie := State.satAdd_pcie s _ _
@[simp] theorem State.satInc_smb (s : State) (f : Fld) : (s.satInc f).smb = s.smb := State.satAdd_smb s _ _
@[simp] theorem State.satInc_fw (s : State) (f : Fld) : (s.satInc f).fw = s.fw := State.satAdd_fw s _ _
@[simp] theorem State.satInc_time (s : State) (f : Fld) : (s.satInc f).time = s.time := State.satAdd_time s _ _
@[simp] theorem State.satInc_govs (s : State) (f : Fld) : (s.satInc f).govs = s.govs := State.satAdd_govs s _ _
@[simp] theorem State.satInc_hub (s : State) (f : Fld) : (s.satInc f).hub = s.hub := State.satAdd_hub s _ _
@[simp] theorem State.satInc_dma (s : State) (f : Fld) : (s.satInc f).dma = s.dma := State.satAdd_dma s _ _
@[simp] theorem State.satInc_host (s : State) (f : Fld) : (s.satInc f).host = s.host := State.satAdd_host s _ _
@[simp] theorem State.satInc_intc (s : State) (f : Fld) : (s.satInc f).intc = s.intc := State.satAdd_intc s _ _
@[simp] theorem State.satInc_msix (s : State) (f : Fld) : (s.satInc f).msix = s.msix := State.satAdd_msix s _ _
@[simp] theorem State.satInc_fuses (s : State) (f : Fld) : (s.satInc f).fuses = s.fuses := State.satAdd_fuses s _ _
@[simp] theorem State.satInc_pins (s : State) (f : Fld) : (s.satInc f).pins = s.pins := State.satAdd_pins s _ _
@[simp] theorem State.satInc_power (s : State) (f : Fld) : (s.satInc f).power = s.power := State.satAdd_power s _ _
@[simp] theorem State.satInc_flash (s : State) (f : Fld) : (s.satInc f).flash = s.flash := State.satAdd_flash s _ _
@[simp] theorem State.satInc_effects (s : State) (f : Fld) : (s.satInc f).effects = s.effects := State.satAdd_effects s _ _
@[simp] theorem State.satInc_lanes (s : State) (f : Fld) : (s.satInc f).lanes = s.lanes := State.satAdd_lanes s _ _
@[simp] theorem State.satInc_presented (s : State) (f : Fld) : (s.satInc f).presented = s.presented := State.satAdd_presented s _ _
@[simp] theorem State.satInc_events (s : State) (f : Fld) : (s.satInc f).events = s.events := State.satAdd_events s _ _
@[simp] theorem State.satInc_decision (s : State) (f : Fld) : (s.satInc f).decision = s.decision := State.satAdd_decision s _ _
@[simp] theorem State.satInc_mem (s : State) (f : Fld) : (s.satInc f).mem = s.mem := State.satAdd_mem s _ _
@[simp] theorem State.satInc_trellis (s : State) (f : Fld) : (s.satInc f).trellis = s.trellis := State.satAdd_trellis s _ _
@[simp] theorem State.satInc_spares (s : State) (f : Fld) : (s.satInc f).spares = s.spares := State.satAdd_spares s _ _
@[simp] theorem State.satInc_image (s : State) (f : Fld) : (s.satInc f).image = s.image := State.satAdd_image s _ _
@[simp] theorem State.satInc_links (s : State) (f : Fld) : (s.satInc f).links = s.links := State.satAdd_links s _ _
@[simp] theorem State.satInc_survey (s : State) (f : Fld) : (s.satInc f).survey = s.survey := State.satAdd_survey s _ _
@[simp] theorem State.satInc_groups (s : State) (f : Fld) : (s.satInc f).groups = s.groups := State.satAdd_groups s _ _
@[simp] theorem State.satInc_coll (s : State) (f : Fld) : (s.satInc f).coll = s.coll := State.satAdd_coll s _ _
@[simp] theorem State.satInc_capture (s : State) (f : Fld) : (s.satInc f).capture = s.capture := State.satAdd_capture s _ _
@[simp] theorem State.satInc_replay (s : State) (f : Fld) : (s.satInc f).replay = s.replay := State.satAdd_replay s _ _
@[simp] theorem State.satInc_shadow (s : State) (f : Fld) : (s.satInc f).shadow = s.shadow := State.satAdd_shadow s _ _
@[simp] theorem State.satInc_mgt (s : State) (f : Fld) : (s.satInc f).mgt = s.mgt := State.satAdd_mgt s _ _

/-! wrapInc -/

@[simp] theorem State.wrapInc_pending (s : State) (f : Fld) : (s.wrapInc f).pending = s.pending := State.setFld_pending s _ _
@[simp] theorem State.wrapInc_free (s : State) (f : Fld) : (s.wrapInc f).free = s.free := State.setFld_free s _ _
@[simp] theorem State.wrapInc_rdata (s : State) (f : Fld) : (s.wrapInc f).rdata = s.rdata := State.setFld_rdata s _ _
@[simp] theorem State.wrapInc_pcie (s : State) (f : Fld) : (s.wrapInc f).pcie = s.pcie := State.setFld_pcie s _ _
@[simp] theorem State.wrapInc_smb (s : State) (f : Fld) : (s.wrapInc f).smb = s.smb := State.setFld_smb s _ _
@[simp] theorem State.wrapInc_fw (s : State) (f : Fld) : (s.wrapInc f).fw = s.fw := State.setFld_fw s _ _
@[simp] theorem State.wrapInc_time (s : State) (f : Fld) : (s.wrapInc f).time = s.time := State.setFld_time s _ _
@[simp] theorem State.wrapInc_govs (s : State) (f : Fld) : (s.wrapInc f).govs = s.govs := State.setFld_govs s _ _
@[simp] theorem State.wrapInc_hub (s : State) (f : Fld) : (s.wrapInc f).hub = s.hub := State.setFld_hub s _ _
@[simp] theorem State.wrapInc_dma (s : State) (f : Fld) : (s.wrapInc f).dma = s.dma := State.setFld_dma s _ _
@[simp] theorem State.wrapInc_host (s : State) (f : Fld) : (s.wrapInc f).host = s.host := State.setFld_host s _ _
@[simp] theorem State.wrapInc_intc (s : State) (f : Fld) : (s.wrapInc f).intc = s.intc := State.setFld_intc s _ _
@[simp] theorem State.wrapInc_msix (s : State) (f : Fld) : (s.wrapInc f).msix = s.msix := State.setFld_msix s _ _
@[simp] theorem State.wrapInc_fuses (s : State) (f : Fld) : (s.wrapInc f).fuses = s.fuses := State.setFld_fuses s _ _
@[simp] theorem State.wrapInc_pins (s : State) (f : Fld) : (s.wrapInc f).pins = s.pins := State.setFld_pins s _ _
@[simp] theorem State.wrapInc_power (s : State) (f : Fld) : (s.wrapInc f).power = s.power := State.setFld_power s _ _
@[simp] theorem State.wrapInc_flash (s : State) (f : Fld) : (s.wrapInc f).flash = s.flash := State.setFld_flash s _ _
@[simp] theorem State.wrapInc_effects (s : State) (f : Fld) : (s.wrapInc f).effects = s.effects := State.setFld_effects s _ _
@[simp] theorem State.wrapInc_lanes (s : State) (f : Fld) : (s.wrapInc f).lanes = s.lanes := State.setFld_lanes s _ _
@[simp] theorem State.wrapInc_presented (s : State) (f : Fld) : (s.wrapInc f).presented = s.presented := State.setFld_presented s _ _
@[simp] theorem State.wrapInc_events (s : State) (f : Fld) : (s.wrapInc f).events = s.events := State.setFld_events s _ _
@[simp] theorem State.wrapInc_decision (s : State) (f : Fld) : (s.wrapInc f).decision = s.decision := State.setFld_decision s _ _
@[simp] theorem State.wrapInc_mem (s : State) (f : Fld) : (s.wrapInc f).mem = s.mem := State.setFld_mem s _ _
@[simp] theorem State.wrapInc_trellis (s : State) (f : Fld) : (s.wrapInc f).trellis = s.trellis := State.setFld_trellis s _ _
@[simp] theorem State.wrapInc_spares (s : State) (f : Fld) : (s.wrapInc f).spares = s.spares := State.setFld_spares s _ _
@[simp] theorem State.wrapInc_image (s : State) (f : Fld) : (s.wrapInc f).image = s.image := State.setFld_image s _ _
@[simp] theorem State.wrapInc_links (s : State) (f : Fld) : (s.wrapInc f).links = s.links := State.setFld_links s _ _
@[simp] theorem State.wrapInc_survey (s : State) (f : Fld) : (s.wrapInc f).survey = s.survey := State.setFld_survey s _ _
@[simp] theorem State.wrapInc_groups (s : State) (f : Fld) : (s.wrapInc f).groups = s.groups := State.setFld_groups s _ _
@[simp] theorem State.wrapInc_coll (s : State) (f : Fld) : (s.wrapInc f).coll = s.coll := State.setFld_coll s _ _
@[simp] theorem State.wrapInc_capture (s : State) (f : Fld) : (s.wrapInc f).capture = s.capture := State.setFld_capture s _ _
@[simp] theorem State.wrapInc_replay (s : State) (f : Fld) : (s.wrapInc f).replay = s.replay := State.setFld_replay s _ _
@[simp] theorem State.wrapInc_shadow (s : State) (f : Fld) : (s.wrapInc f).shadow = s.shadow := State.setFld_shadow s _ _
@[simp] theorem State.wrapInc_mgt (s : State) (f : Fld) : (s.wrapInc f).mgt = s.mgt := State.setFld_mgt s _ _

/-! setWide -/

@[simp] theorem State.setWide_pending (s : State) (o v : Nat) : (s.setWide o v).pending = s.pending := (State.setReg_pending _ _ _).trans (State.setReg_pending s _ _)
@[simp] theorem State.setWide_free (s : State) (o v : Nat) : (s.setWide o v).free = s.free := (State.setReg_free _ _ _).trans (State.setReg_free s _ _)
@[simp] theorem State.setWide_rdata (s : State) (o v : Nat) : (s.setWide o v).rdata = s.rdata := (State.setReg_rdata _ _ _).trans (State.setReg_rdata s _ _)
@[simp] theorem State.setWide_pcie (s : State) (o v : Nat) : (s.setWide o v).pcie = s.pcie := (State.setReg_pcie _ _ _).trans (State.setReg_pcie s _ _)
@[simp] theorem State.setWide_smb (s : State) (o v : Nat) : (s.setWide o v).smb = s.smb := (State.setReg_smb _ _ _).trans (State.setReg_smb s _ _)
@[simp] theorem State.setWide_fw (s : State) (o v : Nat) : (s.setWide o v).fw = s.fw := (State.setReg_fw _ _ _).trans (State.setReg_fw s _ _)
@[simp] theorem State.setWide_time (s : State) (o v : Nat) : (s.setWide o v).time = s.time := (State.setReg_time _ _ _).trans (State.setReg_time s _ _)
@[simp] theorem State.setWide_govs (s : State) (o v : Nat) : (s.setWide o v).govs = s.govs := (State.setReg_govs _ _ _).trans (State.setReg_govs s _ _)
@[simp] theorem State.setWide_hub (s : State) (o v : Nat) : (s.setWide o v).hub = s.hub := (State.setReg_hub _ _ _).trans (State.setReg_hub s _ _)
@[simp] theorem State.setWide_dma (s : State) (o v : Nat) : (s.setWide o v).dma = s.dma := (State.setReg_dma _ _ _).trans (State.setReg_dma s _ _)
@[simp] theorem State.setWide_host (s : State) (o v : Nat) : (s.setWide o v).host = s.host := (State.setReg_host _ _ _).trans (State.setReg_host s _ _)
@[simp] theorem State.setWide_intc (s : State) (o v : Nat) : (s.setWide o v).intc = s.intc := (State.setReg_intc _ _ _).trans (State.setReg_intc s _ _)
@[simp] theorem State.setWide_msix (s : State) (o v : Nat) : (s.setWide o v).msix = s.msix := (State.setReg_msix _ _ _).trans (State.setReg_msix s _ _)
@[simp] theorem State.setWide_fuses (s : State) (o v : Nat) : (s.setWide o v).fuses = s.fuses := (State.setReg_fuses _ _ _).trans (State.setReg_fuses s _ _)
@[simp] theorem State.setWide_pins (s : State) (o v : Nat) : (s.setWide o v).pins = s.pins := (State.setReg_pins _ _ _).trans (State.setReg_pins s _ _)
@[simp] theorem State.setWide_power (s : State) (o v : Nat) : (s.setWide o v).power = s.power := (State.setReg_power _ _ _).trans (State.setReg_power s _ _)
@[simp] theorem State.setWide_flash (s : State) (o v : Nat) : (s.setWide o v).flash = s.flash := (State.setReg_flash _ _ _).trans (State.setReg_flash s _ _)
@[simp] theorem State.setWide_effects (s : State) (o v : Nat) : (s.setWide o v).effects = s.effects := (State.setReg_effects _ _ _).trans (State.setReg_effects s _ _)
@[simp] theorem State.setWide_lanes (s : State) (o v : Nat) : (s.setWide o v).lanes = s.lanes := (State.setReg_lanes _ _ _).trans (State.setReg_lanes s _ _)
@[simp] theorem State.setWide_presented (s : State) (o v : Nat) : (s.setWide o v).presented = s.presented := (State.setReg_presented _ _ _).trans (State.setReg_presented s _ _)
@[simp] theorem State.setWide_events (s : State) (o v : Nat) : (s.setWide o v).events = s.events := (State.setReg_events _ _ _).trans (State.setReg_events s _ _)
@[simp] theorem State.setWide_decision (s : State) (o v : Nat) : (s.setWide o v).decision = s.decision := (State.setReg_decision _ _ _).trans (State.setReg_decision s _ _)
@[simp] theorem State.setWide_mem (s : State) (o v : Nat) : (s.setWide o v).mem = s.mem := (State.setReg_mem _ _ _).trans (State.setReg_mem s _ _)
@[simp] theorem State.setWide_trellis (s : State) (o v : Nat) : (s.setWide o v).trellis = s.trellis := (State.setReg_trellis _ _ _).trans (State.setReg_trellis s _ _)
@[simp] theorem State.setWide_spares (s : State) (o v : Nat) : (s.setWide o v).spares = s.spares := (State.setReg_spares _ _ _).trans (State.setReg_spares s _ _)
@[simp] theorem State.setWide_image (s : State) (o v : Nat) : (s.setWide o v).image = s.image := (State.setReg_image _ _ _).trans (State.setReg_image s _ _)
@[simp] theorem State.setWide_links (s : State) (o v : Nat) : (s.setWide o v).links = s.links := (State.setReg_links _ _ _).trans (State.setReg_links s _ _)
@[simp] theorem State.setWide_survey (s : State) (o v : Nat) : (s.setWide o v).survey = s.survey := (State.setReg_survey _ _ _).trans (State.setReg_survey s _ _)
@[simp] theorem State.setWide_groups (s : State) (o v : Nat) : (s.setWide o v).groups = s.groups := (State.setReg_groups _ _ _).trans (State.setReg_groups s _ _)
@[simp] theorem State.setWide_coll (s : State) (o v : Nat) : (s.setWide o v).coll = s.coll := (State.setReg_coll _ _ _).trans (State.setReg_coll s _ _)
@[simp] theorem State.setWide_capture (s : State) (o v : Nat) : (s.setWide o v).capture = s.capture := (State.setReg_capture _ _ _).trans (State.setReg_capture s _ _)
@[simp] theorem State.setWide_replay (s : State) (o v : Nat) : (s.setWide o v).replay = s.replay := (State.setReg_replay _ _ _).trans (State.setReg_replay s _ _)
@[simp] theorem State.setWide_shadow (s : State) (o v : Nat) : (s.setWide o v).shadow = s.shadow := (State.setReg_shadow _ _ _).trans (State.setReg_shadow s _ _)
@[simp] theorem State.setWide_mgt (s : State) (o v : Nat) : (s.setWide o v).mgt = s.mgt := (State.setReg_mgt _ _ _).trans (State.setReg_mgt s _ _)

/-! setRegs -/

@[simp] theorem State.setRegs_pending (s : State) (o : Nat) (ws : List Word) : (s.setRegs o ws).pending = s.pending := rfl
@[simp] theorem State.setRegs_free (s : State) (o : Nat) (ws : List Word) : (s.setRegs o ws).free = s.free := rfl
@[simp] theorem State.setRegs_rdata (s : State) (o : Nat) (ws : List Word) : (s.setRegs o ws).rdata = s.rdata := rfl
@[simp] theorem State.setRegs_pcie (s : State) (o : Nat) (ws : List Word) : (s.setRegs o ws).pcie = s.pcie := rfl
@[simp] theorem State.setRegs_smb (s : State) (o : Nat) (ws : List Word) : (s.setRegs o ws).smb = s.smb := rfl
@[simp] theorem State.setRegs_fw (s : State) (o : Nat) (ws : List Word) : (s.setRegs o ws).fw = s.fw := rfl
@[simp] theorem State.setRegs_time (s : State) (o : Nat) (ws : List Word) : (s.setRegs o ws).time = s.time := rfl
@[simp] theorem State.setRegs_govs (s : State) (o : Nat) (ws : List Word) : (s.setRegs o ws).govs = s.govs := rfl
@[simp] theorem State.setRegs_hub (s : State) (o : Nat) (ws : List Word) : (s.setRegs o ws).hub = s.hub := rfl
@[simp] theorem State.setRegs_dma (s : State) (o : Nat) (ws : List Word) : (s.setRegs o ws).dma = s.dma := rfl
@[simp] theorem State.setRegs_host (s : State) (o : Nat) (ws : List Word) : (s.setRegs o ws).host = s.host := rfl
@[simp] theorem State.setRegs_intc (s : State) (o : Nat) (ws : List Word) : (s.setRegs o ws).intc = s.intc := rfl
@[simp] theorem State.setRegs_msix (s : State) (o : Nat) (ws : List Word) : (s.setRegs o ws).msix = s.msix := rfl
@[simp] theorem State.setRegs_fuses (s : State) (o : Nat) (ws : List Word) : (s.setRegs o ws).fuses = s.fuses := rfl
@[simp] theorem State.setRegs_pins (s : State) (o : Nat) (ws : List Word) : (s.setRegs o ws).pins = s.pins := rfl
@[simp] theorem State.setRegs_power (s : State) (o : Nat) (ws : List Word) : (s.setRegs o ws).power = s.power := rfl
@[simp] theorem State.setRegs_flash (s : State) (o : Nat) (ws : List Word) : (s.setRegs o ws).flash = s.flash := rfl
@[simp] theorem State.setRegs_effects (s : State) (o : Nat) (ws : List Word) : (s.setRegs o ws).effects = s.effects := rfl
@[simp] theorem State.setRegs_lanes (s : State) (o : Nat) (ws : List Word) : (s.setRegs o ws).lanes = s.lanes := rfl
@[simp] theorem State.setRegs_presented (s : State) (o : Nat) (ws : List Word) : (s.setRegs o ws).presented = s.presented := rfl
@[simp] theorem State.setRegs_events (s : State) (o : Nat) (ws : List Word) : (s.setRegs o ws).events = s.events := rfl
@[simp] theorem State.setRegs_decision (s : State) (o : Nat) (ws : List Word) : (s.setRegs o ws).decision = s.decision := rfl
@[simp] theorem State.setRegs_mem (s : State) (o : Nat) (ws : List Word) : (s.setRegs o ws).mem = s.mem := rfl
@[simp] theorem State.setRegs_trellis (s : State) (o : Nat) (ws : List Word) : (s.setRegs o ws).trellis = s.trellis := rfl
@[simp] theorem State.setRegs_spares (s : State) (o : Nat) (ws : List Word) : (s.setRegs o ws).spares = s.spares := rfl
@[simp] theorem State.setRegs_image (s : State) (o : Nat) (ws : List Word) : (s.setRegs o ws).image = s.image := rfl
@[simp] theorem State.setRegs_links (s : State) (o : Nat) (ws : List Word) : (s.setRegs o ws).links = s.links := rfl
@[simp] theorem State.setRegs_survey (s : State) (o : Nat) (ws : List Word) : (s.setRegs o ws).survey = s.survey := rfl
@[simp] theorem State.setRegs_groups (s : State) (o : Nat) (ws : List Word) : (s.setRegs o ws).groups = s.groups := rfl
@[simp] theorem State.setRegs_coll (s : State) (o : Nat) (ws : List Word) : (s.setRegs o ws).coll = s.coll := rfl
@[simp] theorem State.setRegs_capture (s : State) (o : Nat) (ws : List Word) : (s.setRegs o ws).capture = s.capture := rfl
@[simp] theorem State.setRegs_replay (s : State) (o : Nat) (ws : List Word) : (s.setRegs o ws).replay = s.replay := rfl
@[simp] theorem State.setRegs_shadow (s : State) (o : Nat) (ws : List Word) : (s.setRegs o ws).shadow = s.shadow := rfl
@[simp] theorem State.setRegs_mgt (s : State) (o : Nat) (ws : List Word) : (s.setRegs o ws).mgt = s.mgt := rfl

/-! setMapBit -/

@[simp] theorem State.setMapBit_pending (s : State) (f : Fld) (i : Nat) (b : Bool) : (s.setMapBit f i b).pending = s.pending := State.setFld_pending s _ _
@[simp] theorem State.setMapBit_free (s : State) (f : Fld) (i : Nat) (b : Bool) : (s.setMapBit f i b).free = s.free := State.setFld_free s _ _
@[simp] theorem State.setMapBit_rdata (s : State) (f : Fld) (i : Nat) (b : Bool) : (s.setMapBit f i b).rdata = s.rdata := State.setFld_rdata s _ _
@[simp] theorem State.setMapBit_pcie (s : State) (f : Fld) (i : Nat) (b : Bool) : (s.setMapBit f i b).pcie = s.pcie := State.setFld_pcie s _ _
@[simp] theorem State.setMapBit_smb (s : State) (f : Fld) (i : Nat) (b : Bool) : (s.setMapBit f i b).smb = s.smb := State.setFld_smb s _ _
@[simp] theorem State.setMapBit_fw (s : State) (f : Fld) (i : Nat) (b : Bool) : (s.setMapBit f i b).fw = s.fw := State.setFld_fw s _ _
@[simp] theorem State.setMapBit_time (s : State) (f : Fld) (i : Nat) (b : Bool) : (s.setMapBit f i b).time = s.time := State.setFld_time s _ _
@[simp] theorem State.setMapBit_govs (s : State) (f : Fld) (i : Nat) (b : Bool) : (s.setMapBit f i b).govs = s.govs := State.setFld_govs s _ _
@[simp] theorem State.setMapBit_hub (s : State) (f : Fld) (i : Nat) (b : Bool) : (s.setMapBit f i b).hub = s.hub := State.setFld_hub s _ _
@[simp] theorem State.setMapBit_dma (s : State) (f : Fld) (i : Nat) (b : Bool) : (s.setMapBit f i b).dma = s.dma := State.setFld_dma s _ _
@[simp] theorem State.setMapBit_host (s : State) (f : Fld) (i : Nat) (b : Bool) : (s.setMapBit f i b).host = s.host := State.setFld_host s _ _
@[simp] theorem State.setMapBit_intc (s : State) (f : Fld) (i : Nat) (b : Bool) : (s.setMapBit f i b).intc = s.intc := State.setFld_intc s _ _
@[simp] theorem State.setMapBit_msix (s : State) (f : Fld) (i : Nat) (b : Bool) : (s.setMapBit f i b).msix = s.msix := State.setFld_msix s _ _
@[simp] theorem State.setMapBit_fuses (s : State) (f : Fld) (i : Nat) (b : Bool) : (s.setMapBit f i b).fuses = s.fuses := State.setFld_fuses s _ _
@[simp] theorem State.setMapBit_pins (s : State) (f : Fld) (i : Nat) (b : Bool) : (s.setMapBit f i b).pins = s.pins := State.setFld_pins s _ _
@[simp] theorem State.setMapBit_power (s : State) (f : Fld) (i : Nat) (b : Bool) : (s.setMapBit f i b).power = s.power := State.setFld_power s _ _
@[simp] theorem State.setMapBit_flash (s : State) (f : Fld) (i : Nat) (b : Bool) : (s.setMapBit f i b).flash = s.flash := State.setFld_flash s _ _
@[simp] theorem State.setMapBit_effects (s : State) (f : Fld) (i : Nat) (b : Bool) : (s.setMapBit f i b).effects = s.effects := State.setFld_effects s _ _
@[simp] theorem State.setMapBit_lanes (s : State) (f : Fld) (i : Nat) (b : Bool) : (s.setMapBit f i b).lanes = s.lanes := State.setFld_lanes s _ _
@[simp] theorem State.setMapBit_presented (s : State) (f : Fld) (i : Nat) (b : Bool) : (s.setMapBit f i b).presented = s.presented := State.setFld_presented s _ _
@[simp] theorem State.setMapBit_events (s : State) (f : Fld) (i : Nat) (b : Bool) : (s.setMapBit f i b).events = s.events := State.setFld_events s _ _
@[simp] theorem State.setMapBit_decision (s : State) (f : Fld) (i : Nat) (b : Bool) : (s.setMapBit f i b).decision = s.decision := State.setFld_decision s _ _
@[simp] theorem State.setMapBit_mem (s : State) (f : Fld) (i : Nat) (b : Bool) : (s.setMapBit f i b).mem = s.mem := State.setFld_mem s _ _
@[simp] theorem State.setMapBit_trellis (s : State) (f : Fld) (i : Nat) (b : Bool) : (s.setMapBit f i b).trellis = s.trellis := State.setFld_trellis s _ _
@[simp] theorem State.setMapBit_spares (s : State) (f : Fld) (i : Nat) (b : Bool) : (s.setMapBit f i b).spares = s.spares := State.setFld_spares s _ _
@[simp] theorem State.setMapBit_image (s : State) (f : Fld) (i : Nat) (b : Bool) : (s.setMapBit f i b).image = s.image := State.setFld_image s _ _
@[simp] theorem State.setMapBit_links (s : State) (f : Fld) (i : Nat) (b : Bool) : (s.setMapBit f i b).links = s.links := State.setFld_links s _ _
@[simp] theorem State.setMapBit_survey (s : State) (f : Fld) (i : Nat) (b : Bool) : (s.setMapBit f i b).survey = s.survey := State.setFld_survey s _ _
@[simp] theorem State.setMapBit_groups (s : State) (f : Fld) (i : Nat) (b : Bool) : (s.setMapBit f i b).groups = s.groups := State.setFld_groups s _ _
@[simp] theorem State.setMapBit_coll (s : State) (f : Fld) (i : Nat) (b : Bool) : (s.setMapBit f i b).coll = s.coll := State.setFld_coll s _ _
@[simp] theorem State.setMapBit_capture (s : State) (f : Fld) (i : Nat) (b : Bool) : (s.setMapBit f i b).capture = s.capture := State.setFld_capture s _ _
@[simp] theorem State.setMapBit_replay (s : State) (f : Fld) (i : Nat) (b : Bool) : (s.setMapBit f i b).replay = s.replay := State.setFld_replay s _ _
@[simp] theorem State.setMapBit_shadow (s : State) (f : Fld) (i : Nat) (b : Bool) : (s.setMapBit f i b).shadow = s.shadow := State.setFld_shadow s _ _
@[simp] theorem State.setMapBit_mgt (s : State) (f : Fld) (i : Nat) (b : Bool) : (s.setMapBit f i b).mgt = s.mgt := State.setFld_mgt s _ _

/-! accessError -/

@[simp] theorem State.accessError_pending (s : State) (o : Nat) : (s.accessError o).pending = s.pending := (State.setFld_pending _ _ _).trans ((State.raise_pending _ _).trans (State.satInc_pending s _))
@[simp] theorem State.accessError_free (s : State) (o : Nat) : (s.accessError o).free = s.free := (State.setFld_free _ _ _).trans ((State.raise_free _ _).trans (State.satInc_free s _))
@[simp] theorem State.accessError_rdata (s : State) (o : Nat) : (s.accessError o).rdata = s.rdata := (State.setFld_rdata _ _ _).trans ((State.raise_rdata _ _).trans (State.satInc_rdata s _))
@[simp] theorem State.accessError_pcie (s : State) (o : Nat) : (s.accessError o).pcie = s.pcie := (State.setFld_pcie _ _ _).trans ((State.raise_pcie _ _).trans (State.satInc_pcie s _))
@[simp] theorem State.accessError_smb (s : State) (o : Nat) : (s.accessError o).smb = s.smb := (State.setFld_smb _ _ _).trans ((State.raise_smb _ _).trans (State.satInc_smb s _))
@[simp] theorem State.accessError_fw (s : State) (o : Nat) : (s.accessError o).fw = s.fw := (State.setFld_fw _ _ _).trans ((State.raise_fw _ _).trans (State.satInc_fw s _))
@[simp] theorem State.accessError_time (s : State) (o : Nat) : (s.accessError o).time = s.time := (State.setFld_time _ _ _).trans ((State.raise_time _ _).trans (State.satInc_time s _))
@[simp] theorem State.accessError_govs (s : State) (o : Nat) : (s.accessError o).govs = s.govs := (State.setFld_govs _ _ _).trans ((State.raise_govs _ _).trans (State.satInc_govs s _))
@[simp] theorem State.accessError_hub (s : State) (o : Nat) : (s.accessError o).hub = s.hub := (State.setFld_hub _ _ _).trans ((State.raise_hub _ _).trans (State.satInc_hub s _))
@[simp] theorem State.accessError_dma (s : State) (o : Nat) : (s.accessError o).dma = s.dma := (State.setFld_dma _ _ _).trans ((State.raise_dma _ _).trans (State.satInc_dma s _))
@[simp] theorem State.accessError_host (s : State) (o : Nat) : (s.accessError o).host = s.host := (State.setFld_host _ _ _).trans ((State.raise_host _ _).trans (State.satInc_host s _))
@[simp] theorem State.accessError_intc (s : State) (o : Nat) : (s.accessError o).intc = s.intc := (State.setFld_intc _ _ _).trans ((State.raise_intc _ _).trans (State.satInc_intc s _))
@[simp] theorem State.accessError_msix (s : State) (o : Nat) : (s.accessError o).msix = s.msix := (State.setFld_msix _ _ _).trans ((State.raise_msix _ _).trans (State.satInc_msix s _))
@[simp] theorem State.accessError_fuses (s : State) (o : Nat) : (s.accessError o).fuses = s.fuses := (State.setFld_fuses _ _ _).trans ((State.raise_fuses _ _).trans (State.satInc_fuses s _))
@[simp] theorem State.accessError_pins (s : State) (o : Nat) : (s.accessError o).pins = s.pins := (State.setFld_pins _ _ _).trans ((State.raise_pins _ _).trans (State.satInc_pins s _))
@[simp] theorem State.accessError_power (s : State) (o : Nat) : (s.accessError o).power = s.power := (State.setFld_power _ _ _).trans ((State.raise_power _ _).trans (State.satInc_power s _))
@[simp] theorem State.accessError_flash (s : State) (o : Nat) : (s.accessError o).flash = s.flash := (State.setFld_flash _ _ _).trans ((State.raise_flash _ _).trans (State.satInc_flash s _))
@[simp] theorem State.accessError_effects (s : State) (o : Nat) : (s.accessError o).effects = s.effects := (State.setFld_effects _ _ _).trans ((State.raise_effects _ _).trans (State.satInc_effects s _))
@[simp] theorem State.accessError_lanes (s : State) (o : Nat) : (s.accessError o).lanes = s.lanes := (State.setFld_lanes _ _ _).trans ((State.raise_lanes _ _).trans (State.satInc_lanes s _))
@[simp] theorem State.accessError_presented (s : State) (o : Nat) : (s.accessError o).presented = s.presented := (State.setFld_presented _ _ _).trans ((State.raise_presented _ _).trans (State.satInc_presented s _))
@[simp] theorem State.accessError_events (s : State) (o : Nat) : (s.accessError o).events = s.events := (State.setFld_events _ _ _).trans ((State.raise_events _ _).trans (State.satInc_events s _))
@[simp] theorem State.accessError_decision (s : State) (o : Nat) : (s.accessError o).decision = s.decision := (State.setFld_decision _ _ _).trans ((State.raise_decision _ _).trans (State.satInc_decision s _))
@[simp] theorem State.accessError_mem (s : State) (o : Nat) : (s.accessError o).mem = s.mem := (State.setFld_mem _ _ _).trans ((State.raise_mem _ _).trans (State.satInc_mem s _))
@[simp] theorem State.accessError_trellis (s : State) (o : Nat) : (s.accessError o).trellis = s.trellis := (State.setFld_trellis _ _ _).trans ((State.raise_trellis _ _).trans (State.satInc_trellis s _))
@[simp] theorem State.accessError_spares (s : State) (o : Nat) : (s.accessError o).spares = s.spares := (State.setFld_spares _ _ _).trans ((State.raise_spares _ _).trans (State.satInc_spares s _))
@[simp] theorem State.accessError_image (s : State) (o : Nat) : (s.accessError o).image = s.image := (State.setFld_image _ _ _).trans ((State.raise_image _ _).trans (State.satInc_image s _))
@[simp] theorem State.accessError_links (s : State) (o : Nat) : (s.accessError o).links = s.links := (State.setFld_links _ _ _).trans ((State.raise_links _ _).trans (State.satInc_links s _))
@[simp] theorem State.accessError_survey (s : State) (o : Nat) : (s.accessError o).survey = s.survey := (State.setFld_survey _ _ _).trans ((State.raise_survey _ _).trans (State.satInc_survey s _))
@[simp] theorem State.accessError_groups (s : State) (o : Nat) : (s.accessError o).groups = s.groups := (State.setFld_groups _ _ _).trans ((State.raise_groups _ _).trans (State.satInc_groups s _))
@[simp] theorem State.accessError_coll (s : State) (o : Nat) : (s.accessError o).coll = s.coll := (State.setFld_coll _ _ _).trans ((State.raise_coll _ _).trans (State.satInc_coll s _))
@[simp] theorem State.accessError_capture (s : State) (o : Nat) : (s.accessError o).capture = s.capture := (State.setFld_capture _ _ _).trans ((State.raise_capture _ _).trans (State.satInc_capture s _))
@[simp] theorem State.accessError_replay (s : State) (o : Nat) : (s.accessError o).replay = s.replay := (State.setFld_replay _ _ _).trans ((State.raise_replay _ _).trans (State.satInc_replay s _))
@[simp] theorem State.accessError_shadow (s : State) (o : Nat) : (s.accessError o).shadow = s.shadow := (State.setFld_shadow _ _ _).trans ((State.raise_shadow _ _).trans (State.satInc_shadow s _))
@[simp] theorem State.accessError_mgt (s : State) (o : Nat) : (s.accessError o).mgt = s.mgt := (State.setFld_mgt _ _ _).trans ((State.raise_mgt _ _).trans (State.satInc_mgt s _))

/-! hostWrite -/

@[simp] theorem State.hostWrite_pending (s : State) (a : Nat) (bs : List Byte) : (s.hostWrite a bs).pending = s.pending := rfl
@[simp] theorem State.hostWrite_free (s : State) (a : Nat) (bs : List Byte) : (s.hostWrite a bs).free = s.free := rfl
@[simp] theorem State.hostWrite_regs (s : State) (a : Nat) (bs : List Byte) : (s.hostWrite a bs).regs = s.regs := rfl
@[simp] theorem State.hostWrite_rdata (s : State) (a : Nat) (bs : List Byte) : (s.hostWrite a bs).rdata = s.rdata := rfl
@[simp] theorem State.hostWrite_pcie (s : State) (a : Nat) (bs : List Byte) : (s.hostWrite a bs).pcie = s.pcie := rfl
@[simp] theorem State.hostWrite_smb (s : State) (a : Nat) (bs : List Byte) : (s.hostWrite a bs).smb = s.smb := rfl
@[simp] theorem State.hostWrite_fw (s : State) (a : Nat) (bs : List Byte) : (s.hostWrite a bs).fw = s.fw := rfl
@[simp] theorem State.hostWrite_time (s : State) (a : Nat) (bs : List Byte) : (s.hostWrite a bs).time = s.time := rfl
@[simp] theorem State.hostWrite_govs (s : State) (a : Nat) (bs : List Byte) : (s.hostWrite a bs).govs = s.govs := rfl
@[simp] theorem State.hostWrite_hub (s : State) (a : Nat) (bs : List Byte) : (s.hostWrite a bs).hub = s.hub := rfl
@[simp] theorem State.hostWrite_dma (s : State) (a : Nat) (bs : List Byte) : (s.hostWrite a bs).dma = s.dma := rfl
@[simp] theorem State.hostWrite_intc (s : State) (a : Nat) (bs : List Byte) : (s.hostWrite a bs).intc = s.intc := rfl
@[simp] theorem State.hostWrite_msix (s : State) (a : Nat) (bs : List Byte) : (s.hostWrite a bs).msix = s.msix := rfl
@[simp] theorem State.hostWrite_fuses (s : State) (a : Nat) (bs : List Byte) : (s.hostWrite a bs).fuses = s.fuses := rfl
@[simp] theorem State.hostWrite_pins (s : State) (a : Nat) (bs : List Byte) : (s.hostWrite a bs).pins = s.pins := rfl
@[simp] theorem State.hostWrite_power (s : State) (a : Nat) (bs : List Byte) : (s.hostWrite a bs).power = s.power := rfl
@[simp] theorem State.hostWrite_flash (s : State) (a : Nat) (bs : List Byte) : (s.hostWrite a bs).flash = s.flash := rfl
@[simp] theorem State.hostWrite_effects (s : State) (a : Nat) (bs : List Byte) : (s.hostWrite a bs).effects = s.effects := rfl
@[simp] theorem State.hostWrite_lanes (s : State) (a : Nat) (bs : List Byte) : (s.hostWrite a bs).lanes = s.lanes := rfl
@[simp] theorem State.hostWrite_presented (s : State) (a : Nat) (bs : List Byte) : (s.hostWrite a bs).presented = s.presented := rfl
@[simp] theorem State.hostWrite_events (s : State) (a : Nat) (bs : List Byte) : (s.hostWrite a bs).events = s.events := rfl
@[simp] theorem State.hostWrite_decision (s : State) (a : Nat) (bs : List Byte) : (s.hostWrite a bs).decision = s.decision := rfl
@[simp] theorem State.hostWrite_mem (s : State) (a : Nat) (bs : List Byte) : (s.hostWrite a bs).mem = s.mem := rfl
@[simp] theorem State.hostWrite_trellis (s : State) (a : Nat) (bs : List Byte) : (s.hostWrite a bs).trellis = s.trellis := rfl
@[simp] theorem State.hostWrite_spares (s : State) (a : Nat) (bs : List Byte) : (s.hostWrite a bs).spares = s.spares := rfl
@[simp] theorem State.hostWrite_image (s : State) (a : Nat) (bs : List Byte) : (s.hostWrite a bs).image = s.image := rfl
@[simp] theorem State.hostWrite_links (s : State) (a : Nat) (bs : List Byte) : (s.hostWrite a bs).links = s.links := rfl
@[simp] theorem State.hostWrite_survey (s : State) (a : Nat) (bs : List Byte) : (s.hostWrite a bs).survey = s.survey := rfl
@[simp] theorem State.hostWrite_groups (s : State) (a : Nat) (bs : List Byte) : (s.hostWrite a bs).groups = s.groups := rfl
@[simp] theorem State.hostWrite_coll (s : State) (a : Nat) (bs : List Byte) : (s.hostWrite a bs).coll = s.coll := rfl
@[simp] theorem State.hostWrite_capture (s : State) (a : Nat) (bs : List Byte) : (s.hostWrite a bs).capture = s.capture := rfl
@[simp] theorem State.hostWrite_replay (s : State) (a : Nat) (bs : List Byte) : (s.hostWrite a bs).replay = s.replay := rfl
@[simp] theorem State.hostWrite_shadow (s : State) (a : Nat) (bs : List Byte) : (s.hostWrite a bs).shadow = s.shadow := rfl
@[simp] theorem State.hostWrite_mgt (s : State) (a : Nat) (bs : List Byte) : (s.hostWrite a bs).mgt = s.mgt := rfl

/-! memWrite -/

@[simp] theorem State.memWrite_pending (s : State) (a : Nat) (bs : List Byte) : (s.memWrite a bs).pending = s.pending := rfl
@[simp] theorem State.memWrite_free (s : State) (a : Nat) (bs : List Byte) : (s.memWrite a bs).free = s.free := rfl
@[simp] theorem State.memWrite_regs (s : State) (a : Nat) (bs : List Byte) : (s.memWrite a bs).regs = s.regs := rfl
@[simp] theorem State.memWrite_rdata (s : State) (a : Nat) (bs : List Byte) : (s.memWrite a bs).rdata = s.rdata := rfl
@[simp] theorem State.memWrite_pcie (s : State) (a : Nat) (bs : List Byte) : (s.memWrite a bs).pcie = s.pcie := rfl
@[simp] theorem State.memWrite_smb (s : State) (a : Nat) (bs : List Byte) : (s.memWrite a bs).smb = s.smb := rfl
@[simp] theorem State.memWrite_fw (s : State) (a : Nat) (bs : List Byte) : (s.memWrite a bs).fw = s.fw := rfl
@[simp] theorem State.memWrite_time (s : State) (a : Nat) (bs : List Byte) : (s.memWrite a bs).time = s.time := rfl
@[simp] theorem State.memWrite_govs (s : State) (a : Nat) (bs : List Byte) : (s.memWrite a bs).govs = s.govs := rfl
@[simp] theorem State.memWrite_hub (s : State) (a : Nat) (bs : List Byte) : (s.memWrite a bs).hub = s.hub := rfl
@[simp] theorem State.memWrite_dma (s : State) (a : Nat) (bs : List Byte) : (s.memWrite a bs).dma = s.dma := rfl
@[simp] theorem State.memWrite_host (s : State) (a : Nat) (bs : List Byte) : (s.memWrite a bs).host = s.host := rfl
@[simp] theorem State.memWrite_intc (s : State) (a : Nat) (bs : List Byte) : (s.memWrite a bs).intc = s.intc := rfl
@[simp] theorem State.memWrite_msix (s : State) (a : Nat) (bs : List Byte) : (s.memWrite a bs).msix = s.msix := rfl
@[simp] theorem State.memWrite_fuses (s : State) (a : Nat) (bs : List Byte) : (s.memWrite a bs).fuses = s.fuses := rfl
@[simp] theorem State.memWrite_pins (s : State) (a : Nat) (bs : List Byte) : (s.memWrite a bs).pins = s.pins := rfl
@[simp] theorem State.memWrite_power (s : State) (a : Nat) (bs : List Byte) : (s.memWrite a bs).power = s.power := rfl
@[simp] theorem State.memWrite_flash (s : State) (a : Nat) (bs : List Byte) : (s.memWrite a bs).flash = s.flash := rfl
@[simp] theorem State.memWrite_effects (s : State) (a : Nat) (bs : List Byte) : (s.memWrite a bs).effects = s.effects := rfl
@[simp] theorem State.memWrite_lanes (s : State) (a : Nat) (bs : List Byte) : (s.memWrite a bs).lanes = s.lanes := rfl
@[simp] theorem State.memWrite_presented (s : State) (a : Nat) (bs : List Byte) : (s.memWrite a bs).presented = s.presented := rfl
@[simp] theorem State.memWrite_events (s : State) (a : Nat) (bs : List Byte) : (s.memWrite a bs).events = s.events := rfl
@[simp] theorem State.memWrite_decision (s : State) (a : Nat) (bs : List Byte) : (s.memWrite a bs).decision = s.decision := rfl
@[simp] theorem State.memWrite_trellis (s : State) (a : Nat) (bs : List Byte) : (s.memWrite a bs).trellis = s.trellis := rfl
@[simp] theorem State.memWrite_spares (s : State) (a : Nat) (bs : List Byte) : (s.memWrite a bs).spares = s.spares := rfl
@[simp] theorem State.memWrite_image (s : State) (a : Nat) (bs : List Byte) : (s.memWrite a bs).image = s.image := rfl
@[simp] theorem State.memWrite_links (s : State) (a : Nat) (bs : List Byte) : (s.memWrite a bs).links = s.links := rfl
@[simp] theorem State.memWrite_survey (s : State) (a : Nat) (bs : List Byte) : (s.memWrite a bs).survey = s.survey := rfl
@[simp] theorem State.memWrite_groups (s : State) (a : Nat) (bs : List Byte) : (s.memWrite a bs).groups = s.groups := rfl
@[simp] theorem State.memWrite_coll (s : State) (a : Nat) (bs : List Byte) : (s.memWrite a bs).coll = s.coll := rfl
@[simp] theorem State.memWrite_capture (s : State) (a : Nat) (bs : List Byte) : (s.memWrite a bs).capture = s.capture := rfl
@[simp] theorem State.memWrite_replay (s : State) (a : Nat) (bs : List Byte) : (s.memWrite a bs).replay = s.replay := rfl
@[simp] theorem State.memWrite_shadow (s : State) (a : Nat) (bs : List Byte) : (s.memWrite a bs).shadow = s.shadow := rfl
@[simp] theorem State.memWrite_mgt (s : State) (a : Nat) (bs : List Byte) : (s.memWrite a bs).mgt = s.mgt := rfl

/-! memZero -/

@[simp] theorem State.memZero_pending (s : State) (a n : Nat) : (s.memZero a n).pending = s.pending := rfl
@[simp] theorem State.memZero_free (s : State) (a n : Nat) : (s.memZero a n).free = s.free := rfl
@[simp] theorem State.memZero_regs (s : State) (a n : Nat) : (s.memZero a n).regs = s.regs := rfl
@[simp] theorem State.memZero_rdata (s : State) (a n : Nat) : (s.memZero a n).rdata = s.rdata := rfl
@[simp] theorem State.memZero_pcie (s : State) (a n : Nat) : (s.memZero a n).pcie = s.pcie := rfl
@[simp] theorem State.memZero_smb (s : State) (a n : Nat) : (s.memZero a n).smb = s.smb := rfl
@[simp] theorem State.memZero_fw (s : State) (a n : Nat) : (s.memZero a n).fw = s.fw := rfl
@[simp] theorem State.memZero_time (s : State) (a n : Nat) : (s.memZero a n).time = s.time := rfl
@[simp] theorem State.memZero_govs (s : State) (a n : Nat) : (s.memZero a n).govs = s.govs := rfl
@[simp] theorem State.memZero_hub (s : State) (a n : Nat) : (s.memZero a n).hub = s.hub := rfl
@[simp] theorem State.memZero_dma (s : State) (a n : Nat) : (s.memZero a n).dma = s.dma := rfl
@[simp] theorem State.memZero_host (s : State) (a n : Nat) : (s.memZero a n).host = s.host := rfl
@[simp] theorem State.memZero_intc (s : State) (a n : Nat) : (s.memZero a n).intc = s.intc := rfl
@[simp] theorem State.memZero_msix (s : State) (a n : Nat) : (s.memZero a n).msix = s.msix := rfl
@[simp] theorem State.memZero_fuses (s : State) (a n : Nat) : (s.memZero a n).fuses = s.fuses := rfl
@[simp] theorem State.memZero_pins (s : State) (a n : Nat) : (s.memZero a n).pins = s.pins := rfl
@[simp] theorem State.memZero_power (s : State) (a n : Nat) : (s.memZero a n).power = s.power := rfl
@[simp] theorem State.memZero_flash (s : State) (a n : Nat) : (s.memZero a n).flash = s.flash := rfl
@[simp] theorem State.memZero_effects (s : State) (a n : Nat) : (s.memZero a n).effects = s.effects := rfl
@[simp] theorem State.memZero_lanes (s : State) (a n : Nat) : (s.memZero a n).lanes = s.lanes := rfl
@[simp] theorem State.memZero_presented (s : State) (a n : Nat) : (s.memZero a n).presented = s.presented := rfl
@[simp] theorem State.memZero_events (s : State) (a n : Nat) : (s.memZero a n).events = s.events := rfl
@[simp] theorem State.memZero_decision (s : State) (a n : Nat) : (s.memZero a n).decision = s.decision := rfl
@[simp] theorem State.memZero_trellis (s : State) (a n : Nat) : (s.memZero a n).trellis = s.trellis := rfl
@[simp] theorem State.memZero_spares (s : State) (a n : Nat) : (s.memZero a n).spares = s.spares := rfl
@[simp] theorem State.memZero_image (s : State) (a n : Nat) : (s.memZero a n).image = s.image := rfl
@[simp] theorem State.memZero_links (s : State) (a n : Nat) : (s.memZero a n).links = s.links := rfl
@[simp] theorem State.memZero_survey (s : State) (a n : Nat) : (s.memZero a n).survey = s.survey := rfl
@[simp] theorem State.memZero_groups (s : State) (a n : Nat) : (s.memZero a n).groups = s.groups := rfl
@[simp] theorem State.memZero_coll (s : State) (a n : Nat) : (s.memZero a n).coll = s.coll := rfl
@[simp] theorem State.memZero_capture (s : State) (a n : Nat) : (s.memZero a n).capture = s.capture := rfl
@[simp] theorem State.memZero_replay (s : State) (a n : Nat) : (s.memZero a n).replay = s.replay := rfl
@[simp] theorem State.memZero_shadow (s : State) (a n : Nat) : (s.memZero a n).shadow = s.shadow := rfl
@[simp] theorem State.memZero_mgt (s : State) (a n : Nat) : (s.memZero a n).mgt = s.mgt := rfl

/-! flashProgram -/

@[simp] theorem State.flashProgram_pending (s : State) (a : Nat) (bs : List Byte) : (s.flashProgram a bs).pending = s.pending := rfl
@[simp] theorem State.flashProgram_free (s : State) (a : Nat) (bs : List Byte) : (s.flashProgram a bs).free = s.free := rfl
@[simp] theorem State.flashProgram_regs (s : State) (a : Nat) (bs : List Byte) : (s.flashProgram a bs).regs = s.regs := rfl
@[simp] theorem State.flashProgram_rdata (s : State) (a : Nat) (bs : List Byte) : (s.flashProgram a bs).rdata = s.rdata := rfl
@[simp] theorem State.flashProgram_pcie (s : State) (a : Nat) (bs : List Byte) : (s.flashProgram a bs).pcie = s.pcie := rfl
@[simp] theorem State.flashProgram_smb (s : State) (a : Nat) (bs : List Byte) : (s.flashProgram a bs).smb = s.smb := rfl
@[simp] theorem State.flashProgram_fw (s : State) (a : Nat) (bs : List Byte) : (s.flashProgram a bs).fw = s.fw := rfl
@[simp] theorem State.flashProgram_time (s : State) (a : Nat) (bs : List Byte) : (s.flashProgram a bs).time = s.time := rfl
@[simp] theorem State.flashProgram_govs (s : State) (a : Nat) (bs : List Byte) : (s.flashProgram a bs).govs = s.govs := rfl
@[simp] theorem State.flashProgram_hub (s : State) (a : Nat) (bs : List Byte) : (s.flashProgram a bs).hub = s.hub := rfl
@[simp] theorem State.flashProgram_dma (s : State) (a : Nat) (bs : List Byte) : (s.flashProgram a bs).dma = s.dma := rfl
@[simp] theorem State.flashProgram_host (s : State) (a : Nat) (bs : List Byte) : (s.flashProgram a bs).host = s.host := rfl
@[simp] theorem State.flashProgram_intc (s : State) (a : Nat) (bs : List Byte) : (s.flashProgram a bs).intc = s.intc := rfl
@[simp] theorem State.flashProgram_msix (s : State) (a : Nat) (bs : List Byte) : (s.flashProgram a bs).msix = s.msix := rfl
@[simp] theorem State.flashProgram_fuses (s : State) (a : Nat) (bs : List Byte) : (s.flashProgram a bs).fuses = s.fuses := rfl
@[simp] theorem State.flashProgram_pins (s : State) (a : Nat) (bs : List Byte) : (s.flashProgram a bs).pins = s.pins := rfl
@[simp] theorem State.flashProgram_power (s : State) (a : Nat) (bs : List Byte) : (s.flashProgram a bs).power = s.power := rfl
@[simp] theorem State.flashProgram_effects (s : State) (a : Nat) (bs : List Byte) : (s.flashProgram a bs).effects = s.effects := rfl
@[simp] theorem State.flashProgram_lanes (s : State) (a : Nat) (bs : List Byte) : (s.flashProgram a bs).lanes = s.lanes := rfl
@[simp] theorem State.flashProgram_presented (s : State) (a : Nat) (bs : List Byte) : (s.flashProgram a bs).presented = s.presented := rfl
@[simp] theorem State.flashProgram_events (s : State) (a : Nat) (bs : List Byte) : (s.flashProgram a bs).events = s.events := rfl
@[simp] theorem State.flashProgram_decision (s : State) (a : Nat) (bs : List Byte) : (s.flashProgram a bs).decision = s.decision := rfl
@[simp] theorem State.flashProgram_mem (s : State) (a : Nat) (bs : List Byte) : (s.flashProgram a bs).mem = s.mem := rfl
@[simp] theorem State.flashProgram_trellis (s : State) (a : Nat) (bs : List Byte) : (s.flashProgram a bs).trellis = s.trellis := rfl
@[simp] theorem State.flashProgram_spares (s : State) (a : Nat) (bs : List Byte) : (s.flashProgram a bs).spares = s.spares := rfl
@[simp] theorem State.flashProgram_image (s : State) (a : Nat) (bs : List Byte) : (s.flashProgram a bs).image = s.image := rfl
@[simp] theorem State.flashProgram_links (s : State) (a : Nat) (bs : List Byte) : (s.flashProgram a bs).links = s.links := rfl
@[simp] theorem State.flashProgram_survey (s : State) (a : Nat) (bs : List Byte) : (s.flashProgram a bs).survey = s.survey := rfl
@[simp] theorem State.flashProgram_groups (s : State) (a : Nat) (bs : List Byte) : (s.flashProgram a bs).groups = s.groups := rfl
@[simp] theorem State.flashProgram_coll (s : State) (a : Nat) (bs : List Byte) : (s.flashProgram a bs).coll = s.coll := rfl
@[simp] theorem State.flashProgram_capture (s : State) (a : Nat) (bs : List Byte) : (s.flashProgram a bs).capture = s.capture := rfl
@[simp] theorem State.flashProgram_replay (s : State) (a : Nat) (bs : List Byte) : (s.flashProgram a bs).replay = s.replay := rfl
@[simp] theorem State.flashProgram_shadow (s : State) (a : Nat) (bs : List Byte) : (s.flashProgram a bs).shadow = s.shadow := rfl
@[simp] theorem State.flashProgram_mgt (s : State) (a : Nat) (bs : List Byte) : (s.flashProgram a bs).mgt = s.mgt := rfl

/-! flashErase -/

@[simp] theorem State.flashErase_pending (s : State) (a n : Nat) : (s.flashErase a n).pending = s.pending := rfl
@[simp] theorem State.flashErase_free (s : State) (a n : Nat) : (s.flashErase a n).free = s.free := rfl
@[simp] theorem State.flashErase_regs (s : State) (a n : Nat) : (s.flashErase a n).regs = s.regs := rfl
@[simp] theorem State.flashErase_rdata (s : State) (a n : Nat) : (s.flashErase a n).rdata = s.rdata := rfl
@[simp] theorem State.flashErase_pcie (s : State) (a n : Nat) : (s.flashErase a n).pcie = s.pcie := rfl
@[simp] theorem State.flashErase_smb (s : State) (a n : Nat) : (s.flashErase a n).smb = s.smb := rfl
@[simp] theorem State.flashErase_fw (s : State) (a n : Nat) : (s.flashErase a n).fw = s.fw := rfl
@[simp] theorem State.flashErase_time (s : State) (a n : Nat) : (s.flashErase a n).time = s.time := rfl
@[simp] theorem State.flashErase_govs (s : State) (a n : Nat) : (s.flashErase a n).govs = s.govs := rfl
@[simp] theorem State.flashErase_hub (s : State) (a n : Nat) : (s.flashErase a n).hub = s.hub := rfl
@[simp] theorem State.flashErase_dma (s : State) (a n : Nat) : (s.flashErase a n).dma = s.dma := rfl
@[simp] theorem State.flashErase_host (s : State) (a n : Nat) : (s.flashErase a n).host = s.host := rfl
@[simp] theorem State.flashErase_intc (s : State) (a n : Nat) : (s.flashErase a n).intc = s.intc := rfl
@[simp] theorem State.flashErase_msix (s : State) (a n : Nat) : (s.flashErase a n).msix = s.msix := rfl
@[simp] theorem State.flashErase_fuses (s : State) (a n : Nat) : (s.flashErase a n).fuses = s.fuses := rfl
@[simp] theorem State.flashErase_pins (s : State) (a n : Nat) : (s.flashErase a n).pins = s.pins := rfl
@[simp] theorem State.flashErase_power (s : State) (a n : Nat) : (s.flashErase a n).power = s.power := rfl
@[simp] theorem State.flashErase_effects (s : State) (a n : Nat) : (s.flashErase a n).effects = s.effects := rfl
@[simp] theorem State.flashErase_lanes (s : State) (a n : Nat) : (s.flashErase a n).lanes = s.lanes := rfl
@[simp] theorem State.flashErase_presented (s : State) (a n : Nat) : (s.flashErase a n).presented = s.presented := rfl
@[simp] theorem State.flashErase_events (s : State) (a n : Nat) : (s.flashErase a n).events = s.events := rfl
@[simp] theorem State.flashErase_decision (s : State) (a n : Nat) : (s.flashErase a n).decision = s.decision := rfl
@[simp] theorem State.flashErase_mem (s : State) (a n : Nat) : (s.flashErase a n).mem = s.mem := rfl
@[simp] theorem State.flashErase_trellis (s : State) (a n : Nat) : (s.flashErase a n).trellis = s.trellis := rfl
@[simp] theorem State.flashErase_spares (s : State) (a n : Nat) : (s.flashErase a n).spares = s.spares := rfl
@[simp] theorem State.flashErase_image (s : State) (a n : Nat) : (s.flashErase a n).image = s.image := rfl
@[simp] theorem State.flashErase_links (s : State) (a n : Nat) : (s.flashErase a n).links = s.links := rfl
@[simp] theorem State.flashErase_survey (s : State) (a n : Nat) : (s.flashErase a n).survey = s.survey := rfl
@[simp] theorem State.flashErase_groups (s : State) (a n : Nat) : (s.flashErase a n).groups = s.groups := rfl
@[simp] theorem State.flashErase_coll (s : State) (a n : Nat) : (s.flashErase a n).coll = s.coll := rfl
@[simp] theorem State.flashErase_capture (s : State) (a n : Nat) : (s.flashErase a n).capture = s.capture := rfl
@[simp] theorem State.flashErase_replay (s : State) (a n : Nat) : (s.flashErase a n).replay = s.replay := rfl
@[simp] theorem State.flashErase_shadow (s : State) (a n : Nat) : (s.flashErase a n).shadow = s.shadow := rfl
@[simp] theorem State.flashErase_mgt (s : State) (a n : Nat) : (s.flashErase a n).mgt = s.mgt := rfl

/-! setGov -/

@[simp] theorem State.setGov_pending (s : State) (p : Nat) (g : Gov) : (s.setGov p g).pending = s.pending := rfl
@[simp] theorem State.setGov_free (s : State) (p : Nat) (g : Gov) : (s.setGov p g).free = s.free := rfl
@[simp] theorem State.setGov_regs (s : State) (p : Nat) (g : Gov) : (s.setGov p g).regs = s.regs := rfl
@[simp] theorem State.setGov_rdata (s : State) (p : Nat) (g : Gov) : (s.setGov p g).rdata = s.rdata := rfl
@[simp] theorem State.setGov_pcie (s : State) (p : Nat) (g : Gov) : (s.setGov p g).pcie = s.pcie := rfl
@[simp] theorem State.setGov_smb (s : State) (p : Nat) (g : Gov) : (s.setGov p g).smb = s.smb := rfl
@[simp] theorem State.setGov_fw (s : State) (p : Nat) (g : Gov) : (s.setGov p g).fw = s.fw := rfl
@[simp] theorem State.setGov_time (s : State) (p : Nat) (g : Gov) : (s.setGov p g).time = s.time := rfl
@[simp] theorem State.setGov_hub (s : State) (p : Nat) (g : Gov) : (s.setGov p g).hub = s.hub := rfl
@[simp] theorem State.setGov_dma (s : State) (p : Nat) (g : Gov) : (s.setGov p g).dma = s.dma := rfl
@[simp] theorem State.setGov_host (s : State) (p : Nat) (g : Gov) : (s.setGov p g).host = s.host := rfl
@[simp] theorem State.setGov_intc (s : State) (p : Nat) (g : Gov) : (s.setGov p g).intc = s.intc := rfl
@[simp] theorem State.setGov_msix (s : State) (p : Nat) (g : Gov) : (s.setGov p g).msix = s.msix := rfl
@[simp] theorem State.setGov_fuses (s : State) (p : Nat) (g : Gov) : (s.setGov p g).fuses = s.fuses := rfl
@[simp] theorem State.setGov_pins (s : State) (p : Nat) (g : Gov) : (s.setGov p g).pins = s.pins := rfl
@[simp] theorem State.setGov_power (s : State) (p : Nat) (g : Gov) : (s.setGov p g).power = s.power := rfl
@[simp] theorem State.setGov_flash (s : State) (p : Nat) (g : Gov) : (s.setGov p g).flash = s.flash := rfl
@[simp] theorem State.setGov_effects (s : State) (p : Nat) (g : Gov) : (s.setGov p g).effects = s.effects := rfl
@[simp] theorem State.setGov_lanes (s : State) (p : Nat) (g : Gov) : (s.setGov p g).lanes = s.lanes := rfl
@[simp] theorem State.setGov_presented (s : State) (p : Nat) (g : Gov) : (s.setGov p g).presented = s.presented := rfl
@[simp] theorem State.setGov_events (s : State) (p : Nat) (g : Gov) : (s.setGov p g).events = s.events := rfl
@[simp] theorem State.setGov_decision (s : State) (p : Nat) (g : Gov) : (s.setGov p g).decision = s.decision := rfl
@[simp] theorem State.setGov_mem (s : State) (p : Nat) (g : Gov) : (s.setGov p g).mem = s.mem := rfl
@[simp] theorem State.setGov_trellis (s : State) (p : Nat) (g : Gov) : (s.setGov p g).trellis = s.trellis := rfl
@[simp] theorem State.setGov_spares (s : State) (p : Nat) (g : Gov) : (s.setGov p g).spares = s.spares := rfl
@[simp] theorem State.setGov_image (s : State) (p : Nat) (g : Gov) : (s.setGov p g).image = s.image := rfl
@[simp] theorem State.setGov_links (s : State) (p : Nat) (g : Gov) : (s.setGov p g).links = s.links := rfl
@[simp] theorem State.setGov_survey (s : State) (p : Nat) (g : Gov) : (s.setGov p g).survey = s.survey := rfl
@[simp] theorem State.setGov_groups (s : State) (p : Nat) (g : Gov) : (s.setGov p g).groups = s.groups := rfl
@[simp] theorem State.setGov_coll (s : State) (p : Nat) (g : Gov) : (s.setGov p g).coll = s.coll := rfl
@[simp] theorem State.setGov_capture (s : State) (p : Nat) (g : Gov) : (s.setGov p g).capture = s.capture := rfl
@[simp] theorem State.setGov_replay (s : State) (p : Nat) (g : Gov) : (s.setGov p g).replay = s.replay := rfl
@[simp] theorem State.setGov_shadow (s : State) (p : Nat) (g : Gov) : (s.setGov p g).shadow = s.shadow := rfl
@[simp] theorem State.setGov_mgt (s : State) (p : Nat) (g : Gov) : (s.setGov p g).mgt = s.mgt := rfl

/-! setLane -/

@[simp] theorem State.setLane_pending (s : State) (n : Nat) (l : Lane) : (s.setLane n l).pending = s.pending := rfl
@[simp] theorem State.setLane_free (s : State) (n : Nat) (l : Lane) : (s.setLane n l).free = s.free := rfl
@[simp] theorem State.setLane_regs (s : State) (n : Nat) (l : Lane) : (s.setLane n l).regs = s.regs := rfl
@[simp] theorem State.setLane_rdata (s : State) (n : Nat) (l : Lane) : (s.setLane n l).rdata = s.rdata := rfl
@[simp] theorem State.setLane_pcie (s : State) (n : Nat) (l : Lane) : (s.setLane n l).pcie = s.pcie := rfl
@[simp] theorem State.setLane_smb (s : State) (n : Nat) (l : Lane) : (s.setLane n l).smb = s.smb := rfl
@[simp] theorem State.setLane_fw (s : State) (n : Nat) (l : Lane) : (s.setLane n l).fw = s.fw := rfl
@[simp] theorem State.setLane_time (s : State) (n : Nat) (l : Lane) : (s.setLane n l).time = s.time := rfl
@[simp] theorem State.setLane_govs (s : State) (n : Nat) (l : Lane) : (s.setLane n l).govs = s.govs := rfl
@[simp] theorem State.setLane_hub (s : State) (n : Nat) (l : Lane) : (s.setLane n l).hub = s.hub := rfl
@[simp] theorem State.setLane_dma (s : State) (n : Nat) (l : Lane) : (s.setLane n l).dma = s.dma := rfl
@[simp] theorem State.setLane_host (s : State) (n : Nat) (l : Lane) : (s.setLane n l).host = s.host := rfl
@[simp] theorem State.setLane_intc (s : State) (n : Nat) (l : Lane) : (s.setLane n l).intc = s.intc := rfl
@[simp] theorem State.setLane_msix (s : State) (n : Nat) (l : Lane) : (s.setLane n l).msix = s.msix := rfl
@[simp] theorem State.setLane_fuses (s : State) (n : Nat) (l : Lane) : (s.setLane n l).fuses = s.fuses := rfl
@[simp] theorem State.setLane_pins (s : State) (n : Nat) (l : Lane) : (s.setLane n l).pins = s.pins := rfl
@[simp] theorem State.setLane_power (s : State) (n : Nat) (l : Lane) : (s.setLane n l).power = s.power := rfl
@[simp] theorem State.setLane_flash (s : State) (n : Nat) (l : Lane) : (s.setLane n l).flash = s.flash := rfl
@[simp] theorem State.setLane_effects (s : State) (n : Nat) (l : Lane) : (s.setLane n l).effects = s.effects := rfl
@[simp] theorem State.setLane_presented (s : State) (n : Nat) (l : Lane) : (s.setLane n l).presented = s.presented := rfl
@[simp] theorem State.setLane_events (s : State) (n : Nat) (l : Lane) : (s.setLane n l).events = s.events := rfl
@[simp] theorem State.setLane_decision (s : State) (n : Nat) (l : Lane) : (s.setLane n l).decision = s.decision := rfl
@[simp] theorem State.setLane_mem (s : State) (n : Nat) (l : Lane) : (s.setLane n l).mem = s.mem := rfl
@[simp] theorem State.setLane_trellis (s : State) (n : Nat) (l : Lane) : (s.setLane n l).trellis = s.trellis := rfl
@[simp] theorem State.setLane_spares (s : State) (n : Nat) (l : Lane) : (s.setLane n l).spares = s.spares := rfl
@[simp] theorem State.setLane_image (s : State) (n : Nat) (l : Lane) : (s.setLane n l).image = s.image := rfl
@[simp] theorem State.setLane_links (s : State) (n : Nat) (l : Lane) : (s.setLane n l).links = s.links := rfl
@[simp] theorem State.setLane_survey (s : State) (n : Nat) (l : Lane) : (s.setLane n l).survey = s.survey := rfl
@[simp] theorem State.setLane_groups (s : State) (n : Nat) (l : Lane) : (s.setLane n l).groups = s.groups := rfl
@[simp] theorem State.setLane_coll (s : State) (n : Nat) (l : Lane) : (s.setLane n l).coll = s.coll := rfl
@[simp] theorem State.setLane_capture (s : State) (n : Nat) (l : Lane) : (s.setLane n l).capture = s.capture := rfl
@[simp] theorem State.setLane_replay (s : State) (n : Nat) (l : Lane) : (s.setLane n l).replay = s.replay := rfl
@[simp] theorem State.setLane_shadow (s : State) (n : Nat) (l : Lane) : (s.setLane n l).shadow = s.shadow := rfl
@[simp] theorem State.setLane_mgt (s : State) (n : Nat) (l : Lane) : (s.setLane n l).mgt = s.mgt := rfl

/-! setQueue -/

@[simp] theorem State.setQueue_pending (s : State) (q : Nat) (v : QueueState) : (s.setQueue q v).pending = s.pending := rfl
@[simp] theorem State.setQueue_free (s : State) (q : Nat) (v : QueueState) : (s.setQueue q v).free = s.free := rfl
@[simp] theorem State.setQueue_regs (s : State) (q : Nat) (v : QueueState) : (s.setQueue q v).regs = s.regs := rfl
@[simp] theorem State.setQueue_rdata (s : State) (q : Nat) (v : QueueState) : (s.setQueue q v).rdata = s.rdata := rfl
@[simp] theorem State.setQueue_pcie (s : State) (q : Nat) (v : QueueState) : (s.setQueue q v).pcie = s.pcie := rfl
@[simp] theorem State.setQueue_smb (s : State) (q : Nat) (v : QueueState) : (s.setQueue q v).smb = s.smb := rfl
@[simp] theorem State.setQueue_fw (s : State) (q : Nat) (v : QueueState) : (s.setQueue q v).fw = s.fw := rfl
@[simp] theorem State.setQueue_time (s : State) (q : Nat) (v : QueueState) : (s.setQueue q v).time = s.time := rfl
@[simp] theorem State.setQueue_govs (s : State) (q : Nat) (v : QueueState) : (s.setQueue q v).govs = s.govs := rfl
@[simp] theorem State.setQueue_dma (s : State) (q : Nat) (v : QueueState) : (s.setQueue q v).dma = s.dma := rfl
@[simp] theorem State.setQueue_host (s : State) (q : Nat) (v : QueueState) : (s.setQueue q v).host = s.host := rfl
@[simp] theorem State.setQueue_intc (s : State) (q : Nat) (v : QueueState) : (s.setQueue q v).intc = s.intc := rfl
@[simp] theorem State.setQueue_msix (s : State) (q : Nat) (v : QueueState) : (s.setQueue q v).msix = s.msix := rfl
@[simp] theorem State.setQueue_fuses (s : State) (q : Nat) (v : QueueState) : (s.setQueue q v).fuses = s.fuses := rfl
@[simp] theorem State.setQueue_pins (s : State) (q : Nat) (v : QueueState) : (s.setQueue q v).pins = s.pins := rfl
@[simp] theorem State.setQueue_power (s : State) (q : Nat) (v : QueueState) : (s.setQueue q v).power = s.power := rfl
@[simp] theorem State.setQueue_flash (s : State) (q : Nat) (v : QueueState) : (s.setQueue q v).flash = s.flash := rfl
@[simp] theorem State.setQueue_effects (s : State) (q : Nat) (v : QueueState) : (s.setQueue q v).effects = s.effects := rfl
@[simp] theorem State.setQueue_lanes (s : State) (q : Nat) (v : QueueState) : (s.setQueue q v).lanes = s.lanes := rfl
@[simp] theorem State.setQueue_presented (s : State) (q : Nat) (v : QueueState) : (s.setQueue q v).presented = s.presented := rfl
@[simp] theorem State.setQueue_events (s : State) (q : Nat) (v : QueueState) : (s.setQueue q v).events = s.events := rfl
@[simp] theorem State.setQueue_decision (s : State) (q : Nat) (v : QueueState) : (s.setQueue q v).decision = s.decision := rfl
@[simp] theorem State.setQueue_mem (s : State) (q : Nat) (v : QueueState) : (s.setQueue q v).mem = s.mem := rfl
@[simp] theorem State.setQueue_trellis (s : State) (q : Nat) (v : QueueState) : (s.setQueue q v).trellis = s.trellis := rfl
@[simp] theorem State.setQueue_spares (s : State) (q : Nat) (v : QueueState) : (s.setQueue q v).spares = s.spares := rfl
@[simp] theorem State.setQueue_image (s : State) (q : Nat) (v : QueueState) : (s.setQueue q v).image = s.image := rfl
@[simp] theorem State.setQueue_links (s : State) (q : Nat) (v : QueueState) : (s.setQueue q v).links = s.links := rfl
@[simp] theorem State.setQueue_survey (s : State) (q : Nat) (v : QueueState) : (s.setQueue q v).survey = s.survey := rfl
@[simp] theorem State.setQueue_groups (s : State) (q : Nat) (v : QueueState) : (s.setQueue q v).groups = s.groups := rfl
@[simp] theorem State.setQueue_coll (s : State) (q : Nat) (v : QueueState) : (s.setQueue q v).coll = s.coll := rfl
@[simp] theorem State.setQueue_capture (s : State) (q : Nat) (v : QueueState) : (s.setQueue q v).capture = s.capture := rfl
@[simp] theorem State.setQueue_replay (s : State) (q : Nat) (v : QueueState) : (s.setQueue q v).replay = s.replay := rfl
@[simp] theorem State.setQueue_shadow (s : State) (q : Nat) (v : QueueState) : (s.setQueue q v).shadow = s.shadow := rfl
@[simp] theorem State.setQueue_mgt (s : State) (q : Nat) (v : QueueState) : (s.setQueue q v).mgt = s.mgt := rfl

/-! setEngine -/

@[simp] theorem State.setEngine_pending (s : State) (e : Nat) (v : Engine) : (s.setEngine e v).pending = s.pending := rfl
@[simp] theorem State.setEngine_free (s : State) (e : Nat) (v : Engine) : (s.setEngine e v).free = s.free := rfl
@[simp] theorem State.setEngine_regs (s : State) (e : Nat) (v : Engine) : (s.setEngine e v).regs = s.regs := rfl
@[simp] theorem State.setEngine_rdata (s : State) (e : Nat) (v : Engine) : (s.setEngine e v).rdata = s.rdata := rfl
@[simp] theorem State.setEngine_pcie (s : State) (e : Nat) (v : Engine) : (s.setEngine e v).pcie = s.pcie := rfl
@[simp] theorem State.setEngine_smb (s : State) (e : Nat) (v : Engine) : (s.setEngine e v).smb = s.smb := rfl
@[simp] theorem State.setEngine_fw (s : State) (e : Nat) (v : Engine) : (s.setEngine e v).fw = s.fw := rfl
@[simp] theorem State.setEngine_time (s : State) (e : Nat) (v : Engine) : (s.setEngine e v).time = s.time := rfl
@[simp] theorem State.setEngine_govs (s : State) (e : Nat) (v : Engine) : (s.setEngine e v).govs = s.govs := rfl
@[simp] theorem State.setEngine_hub (s : State) (e : Nat) (v : Engine) : (s.setEngine e v).hub = s.hub := rfl
@[simp] theorem State.setEngine_host (s : State) (e : Nat) (v : Engine) : (s.setEngine e v).host = s.host := rfl
@[simp] theorem State.setEngine_intc (s : State) (e : Nat) (v : Engine) : (s.setEngine e v).intc = s.intc := rfl
@[simp] theorem State.setEngine_msix (s : State) (e : Nat) (v : Engine) : (s.setEngine e v).msix = s.msix := rfl
@[simp] theorem State.setEngine_fuses (s : State) (e : Nat) (v : Engine) : (s.setEngine e v).fuses = s.fuses := rfl
@[simp] theorem State.setEngine_pins (s : State) (e : Nat) (v : Engine) : (s.setEngine e v).pins = s.pins := rfl
@[simp] theorem State.setEngine_power (s : State) (e : Nat) (v : Engine) : (s.setEngine e v).power = s.power := rfl
@[simp] theorem State.setEngine_flash (s : State) (e : Nat) (v : Engine) : (s.setEngine e v).flash = s.flash := rfl
@[simp] theorem State.setEngine_effects (s : State) (e : Nat) (v : Engine) : (s.setEngine e v).effects = s.effects := rfl
@[simp] theorem State.setEngine_lanes (s : State) (e : Nat) (v : Engine) : (s.setEngine e v).lanes = s.lanes := rfl
@[simp] theorem State.setEngine_presented (s : State) (e : Nat) (v : Engine) : (s.setEngine e v).presented = s.presented := rfl
@[simp] theorem State.setEngine_events (s : State) (e : Nat) (v : Engine) : (s.setEngine e v).events = s.events := rfl
@[simp] theorem State.setEngine_decision (s : State) (e : Nat) (v : Engine) : (s.setEngine e v).decision = s.decision := rfl
@[simp] theorem State.setEngine_mem (s : State) (e : Nat) (v : Engine) : (s.setEngine e v).mem = s.mem := rfl
@[simp] theorem State.setEngine_trellis (s : State) (e : Nat) (v : Engine) : (s.setEngine e v).trellis = s.trellis := rfl
@[simp] theorem State.setEngine_spares (s : State) (e : Nat) (v : Engine) : (s.setEngine e v).spares = s.spares := rfl
@[simp] theorem State.setEngine_image (s : State) (e : Nat) (v : Engine) : (s.setEngine e v).image = s.image := rfl
@[simp] theorem State.setEngine_links (s : State) (e : Nat) (v : Engine) : (s.setEngine e v).links = s.links := rfl
@[simp] theorem State.setEngine_survey (s : State) (e : Nat) (v : Engine) : (s.setEngine e v).survey = s.survey := rfl
@[simp] theorem State.setEngine_groups (s : State) (e : Nat) (v : Engine) : (s.setEngine e v).groups = s.groups := rfl
@[simp] theorem State.setEngine_coll (s : State) (e : Nat) (v : Engine) : (s.setEngine e v).coll = s.coll := rfl
@[simp] theorem State.setEngine_capture (s : State) (e : Nat) (v : Engine) : (s.setEngine e v).capture = s.capture := rfl
@[simp] theorem State.setEngine_replay (s : State) (e : Nat) (v : Engine) : (s.setEngine e v).replay = s.replay := rfl
@[simp] theorem State.setEngine_shadow (s : State) (e : Nat) (v : Engine) : (s.setEngine e v).shadow = s.shadow := rfl
@[simp] theorem State.setEngine_mgt (s : State) (e : Nat) (v : Engine) : (s.setEngine e v).mgt = s.mgt := rfl

/-! setPort -/

@[simp] theorem State.setPort_pending (s : State) (p : Nat) (v : Port) : (s.setPort p v).pending = s.pending := (State.setFld_pending _ _ _)
@[simp] theorem State.setPort_free (s : State) (p : Nat) (v : Port) : (s.setPort p v).free = s.free := (State.setFld_free _ _ _)
@[simp] theorem State.setPort_rdata (s : State) (p : Nat) (v : Port) : (s.setPort p v).rdata = s.rdata := (State.setFld_rdata _ _ _)
@[simp] theorem State.setPort_pcie (s : State) (p : Nat) (v : Port) : (s.setPort p v).pcie = s.pcie := (State.setFld_pcie _ _ _)
@[simp] theorem State.setPort_smb (s : State) (p : Nat) (v : Port) : (s.setPort p v).smb = s.smb := (State.setFld_smb _ _ _)
@[simp] theorem State.setPort_fw (s : State) (p : Nat) (v : Port) : (s.setPort p v).fw = s.fw := (State.setFld_fw _ _ _)
@[simp] theorem State.setPort_time (s : State) (p : Nat) (v : Port) : (s.setPort p v).time = s.time := (State.setFld_time _ _ _)
@[simp] theorem State.setPort_govs (s : State) (p : Nat) (v : Port) : (s.setPort p v).govs = s.govs := (State.setFld_govs _ _ _)
@[simp] theorem State.setPort_hub (s : State) (p : Nat) (v : Port) : (s.setPort p v).hub = s.hub := (State.setFld_hub _ _ _)
@[simp] theorem State.setPort_dma (s : State) (p : Nat) (v : Port) : (s.setPort p v).dma = s.dma := (State.setFld_dma _ _ _)
@[simp] theorem State.setPort_host (s : State) (p : Nat) (v : Port) : (s.setPort p v).host = s.host := (State.setFld_host _ _ _)
@[simp] theorem State.setPort_intc (s : State) (p : Nat) (v : Port) : (s.setPort p v).intc = s.intc := (State.setFld_intc _ _ _)
@[simp] theorem State.setPort_msix (s : State) (p : Nat) (v : Port) : (s.setPort p v).msix = s.msix := (State.setFld_msix _ _ _)
@[simp] theorem State.setPort_fuses (s : State) (p : Nat) (v : Port) : (s.setPort p v).fuses = s.fuses := (State.setFld_fuses _ _ _)
@[simp] theorem State.setPort_pins (s : State) (p : Nat) (v : Port) : (s.setPort p v).pins = s.pins := (State.setFld_pins _ _ _)
@[simp] theorem State.setPort_power (s : State) (p : Nat) (v : Port) : (s.setPort p v).power = s.power := (State.setFld_power _ _ _)
@[simp] theorem State.setPort_flash (s : State) (p : Nat) (v : Port) : (s.setPort p v).flash = s.flash := (State.setFld_flash _ _ _)
@[simp] theorem State.setPort_effects (s : State) (p : Nat) (v : Port) : (s.setPort p v).effects = s.effects := (State.setFld_effects _ _ _)
@[simp] theorem State.setPort_lanes (s : State) (p : Nat) (v : Port) : (s.setPort p v).lanes = s.lanes := (State.setFld_lanes _ _ _)
@[simp] theorem State.setPort_presented (s : State) (p : Nat) (v : Port) : (s.setPort p v).presented = s.presented := (State.setFld_presented _ _ _)
@[simp] theorem State.setPort_events (s : State) (p : Nat) (v : Port) : (s.setPort p v).events = s.events := (State.setFld_events _ _ _)
@[simp] theorem State.setPort_decision (s : State) (p : Nat) (v : Port) : (s.setPort p v).decision = s.decision := (State.setFld_decision _ _ _)
@[simp] theorem State.setPort_mem (s : State) (p : Nat) (v : Port) : (s.setPort p v).mem = s.mem := (State.setFld_mem _ _ _)
@[simp] theorem State.setPort_trellis (s : State) (p : Nat) (v : Port) : (s.setPort p v).trellis = s.trellis := (State.setFld_trellis _ _ _)
@[simp] theorem State.setPort_spares (s : State) (p : Nat) (v : Port) : (s.setPort p v).spares = s.spares := (State.setFld_spares _ _ _)
@[simp] theorem State.setPort_image (s : State) (p : Nat) (v : Port) : (s.setPort p v).image = s.image := (State.setFld_image _ _ _)
@[simp] theorem State.setPort_survey (s : State) (p : Nat) (v : Port) : (s.setPort p v).survey = s.survey := (State.setFld_survey _ _ _)
@[simp] theorem State.setPort_groups (s : State) (p : Nat) (v : Port) : (s.setPort p v).groups = s.groups := (State.setFld_groups _ _ _)
@[simp] theorem State.setPort_coll (s : State) (p : Nat) (v : Port) : (s.setPort p v).coll = s.coll := (State.setFld_coll _ _ _)
@[simp] theorem State.setPort_capture (s : State) (p : Nat) (v : Port) : (s.setPort p v).capture = s.capture := (State.setFld_capture _ _ _)
@[simp] theorem State.setPort_replay (s : State) (p : Nat) (v : Port) : (s.setPort p v).replay = s.replay := (State.setFld_replay _ _ _)
@[simp] theorem State.setPort_shadow (s : State) (p : Nat) (v : Port) : (s.setPort p v).shadow = s.shadow := (State.setFld_shadow _ _ _)
@[simp] theorem State.setPort_mgt (s : State) (p : Nat) (v : Port) : (s.setPort p v).mgt = s.mgt := (State.setFld_mgt _ _ _)

/-! setUnit -/

@[simp] theorem State.setUnit_pending (s : State) (u : Nat) (v : TUnit) : (s.setUnit u v).pending = s.pending := rfl
@[simp] theorem State.setUnit_free (s : State) (u : Nat) (v : TUnit) : (s.setUnit u v).free = s.free := rfl
@[simp] theorem State.setUnit_regs (s : State) (u : Nat) (v : TUnit) : (s.setUnit u v).regs = s.regs := rfl
@[simp] theorem State.setUnit_rdata (s : State) (u : Nat) (v : TUnit) : (s.setUnit u v).rdata = s.rdata := rfl
@[simp] theorem State.setUnit_pcie (s : State) (u : Nat) (v : TUnit) : (s.setUnit u v).pcie = s.pcie := rfl
@[simp] theorem State.setUnit_smb (s : State) (u : Nat) (v : TUnit) : (s.setUnit u v).smb = s.smb := rfl
@[simp] theorem State.setUnit_fw (s : State) (u : Nat) (v : TUnit) : (s.setUnit u v).fw = s.fw := rfl
@[simp] theorem State.setUnit_time (s : State) (u : Nat) (v : TUnit) : (s.setUnit u v).time = s.time := rfl
@[simp] theorem State.setUnit_govs (s : State) (u : Nat) (v : TUnit) : (s.setUnit u v).govs = s.govs := rfl
@[simp] theorem State.setUnit_hub (s : State) (u : Nat) (v : TUnit) : (s.setUnit u v).hub = s.hub := rfl
@[simp] theorem State.setUnit_dma (s : State) (u : Nat) (v : TUnit) : (s.setUnit u v).dma = s.dma := rfl
@[simp] theorem State.setUnit_host (s : State) (u : Nat) (v : TUnit) : (s.setUnit u v).host = s.host := rfl
@[simp] theorem State.setUnit_intc (s : State) (u : Nat) (v : TUnit) : (s.setUnit u v).intc = s.intc := rfl
@[simp] theorem State.setUnit_msix (s : State) (u : Nat) (v : TUnit) : (s.setUnit u v).msix = s.msix := rfl
@[simp] theorem State.setUnit_fuses (s : State) (u : Nat) (v : TUnit) : (s.setUnit u v).fuses = s.fuses := rfl
@[simp] theorem State.setUnit_pins (s : State) (u : Nat) (v : TUnit) : (s.setUnit u v).pins = s.pins := rfl
@[simp] theorem State.setUnit_power (s : State) (u : Nat) (v : TUnit) : (s.setUnit u v).power = s.power := rfl
@[simp] theorem State.setUnit_flash (s : State) (u : Nat) (v : TUnit) : (s.setUnit u v).flash = s.flash := rfl
@[simp] theorem State.setUnit_effects (s : State) (u : Nat) (v : TUnit) : (s.setUnit u v).effects = s.effects := rfl
@[simp] theorem State.setUnit_lanes (s : State) (u : Nat) (v : TUnit) : (s.setUnit u v).lanes = s.lanes := rfl
@[simp] theorem State.setUnit_presented (s : State) (u : Nat) (v : TUnit) : (s.setUnit u v).presented = s.presented := rfl
@[simp] theorem State.setUnit_events (s : State) (u : Nat) (v : TUnit) : (s.setUnit u v).events = s.events := rfl
@[simp] theorem State.setUnit_decision (s : State) (u : Nat) (v : TUnit) : (s.setUnit u v).decision = s.decision := rfl
@[simp] theorem State.setUnit_mem (s : State) (u : Nat) (v : TUnit) : (s.setUnit u v).mem = s.mem := rfl
@[simp] theorem State.setUnit_spares (s : State) (u : Nat) (v : TUnit) : (s.setUnit u v).spares = s.spares := rfl
@[simp] theorem State.setUnit_image (s : State) (u : Nat) (v : TUnit) : (s.setUnit u v).image = s.image := rfl
@[simp] theorem State.setUnit_links (s : State) (u : Nat) (v : TUnit) : (s.setUnit u v).links = s.links := rfl
@[simp] theorem State.setUnit_survey (s : State) (u : Nat) (v : TUnit) : (s.setUnit u v).survey = s.survey := rfl
@[simp] theorem State.setUnit_groups (s : State) (u : Nat) (v : TUnit) : (s.setUnit u v).groups = s.groups := rfl
@[simp] theorem State.setUnit_coll (s : State) (u : Nat) (v : TUnit) : (s.setUnit u v).coll = s.coll := rfl
@[simp] theorem State.setUnit_capture (s : State) (u : Nat) (v : TUnit) : (s.setUnit u v).capture = s.capture := rfl
@[simp] theorem State.setUnit_replay (s : State) (u : Nat) (v : TUnit) : (s.setUnit u v).replay = s.replay := rfl
@[simp] theorem State.setUnit_shadow (s : State) (u : Nat) (v : TUnit) : (s.setUnit u v).shadow = s.shadow := rfl
@[simp] theorem State.setUnit_mgt (s : State) (u : Nat) (v : TUnit) : (s.setUnit u v).mgt = s.mgt := rfl

/-! setGroup -/

@[simp] theorem State.setGroup_pending (s : State) (g : Nat) (v : Group) : (s.setGroup g v).pending = s.pending := rfl
@[simp] theorem State.setGroup_free (s : State) (g : Nat) (v : Group) : (s.setGroup g v).free = s.free := rfl
@[simp] theorem State.setGroup_regs (s : State) (g : Nat) (v : Group) : (s.setGroup g v).regs = s.regs := rfl
@[simp] theorem State.setGroup_rdata (s : State) (g : Nat) (v : Group) : (s.setGroup g v).rdata = s.rdata := rfl
@[simp] theorem State.setGroup_pcie (s : State) (g : Nat) (v : Group) : (s.setGroup g v).pcie = s.pcie := rfl
@[simp] theorem State.setGroup_smb (s : State) (g : Nat) (v : Group) : (s.setGroup g v).smb = s.smb := rfl
@[simp] theorem State.setGroup_fw (s : State) (g : Nat) (v : Group) : (s.setGroup g v).fw = s.fw := rfl
@[simp] theorem State.setGroup_time (s : State) (g : Nat) (v : Group) : (s.setGroup g v).time = s.time := rfl
@[simp] theorem State.setGroup_govs (s : State) (g : Nat) (v : Group) : (s.setGroup g v).govs = s.govs := rfl
@[simp] theorem State.setGroup_hub (s : State) (g : Nat) (v : Group) : (s.setGroup g v).hub = s.hub := rfl
@[simp] theorem State.setGroup_dma (s : State) (g : Nat) (v : Group) : (s.setGroup g v).dma = s.dma := rfl
@[simp] theorem State.setGroup_host (s : State) (g : Nat) (v : Group) : (s.setGroup g v).host = s.host := rfl
@[simp] theorem State.setGroup_intc (s : State) (g : Nat) (v : Group) : (s.setGroup g v).intc = s.intc := rfl
@[simp] theorem State.setGroup_msix (s : State) (g : Nat) (v : Group) : (s.setGroup g v).msix = s.msix := rfl
@[simp] theorem State.setGroup_fuses (s : State) (g : Nat) (v : Group) : (s.setGroup g v).fuses = s.fuses := rfl
@[simp] theorem State.setGroup_pins (s : State) (g : Nat) (v : Group) : (s.setGroup g v).pins = s.pins := rfl
@[simp] theorem State.setGroup_power (s : State) (g : Nat) (v : Group) : (s.setGroup g v).power = s.power := rfl
@[simp] theorem State.setGroup_flash (s : State) (g : Nat) (v : Group) : (s.setGroup g v).flash = s.flash := rfl
@[simp] theorem State.setGroup_effects (s : State) (g : Nat) (v : Group) : (s.setGroup g v).effects = s.effects := rfl
@[simp] theorem State.setGroup_lanes (s : State) (g : Nat) (v : Group) : (s.setGroup g v).lanes = s.lanes := rfl
@[simp] theorem State.setGroup_presented (s : State) (g : Nat) (v : Group) : (s.setGroup g v).presented = s.presented := rfl
@[simp] theorem State.setGroup_events (s : State) (g : Nat) (v : Group) : (s.setGroup g v).events = s.events := rfl
@[simp] theorem State.setGroup_decision (s : State) (g : Nat) (v : Group) : (s.setGroup g v).decision = s.decision := rfl
@[simp] theorem State.setGroup_mem (s : State) (g : Nat) (v : Group) : (s.setGroup g v).mem = s.mem := rfl
@[simp] theorem State.setGroup_trellis (s : State) (g : Nat) (v : Group) : (s.setGroup g v).trellis = s.trellis := rfl
@[simp] theorem State.setGroup_spares (s : State) (g : Nat) (v : Group) : (s.setGroup g v).spares = s.spares := rfl
@[simp] theorem State.setGroup_image (s : State) (g : Nat) (v : Group) : (s.setGroup g v).image = s.image := rfl
@[simp] theorem State.setGroup_links (s : State) (g : Nat) (v : Group) : (s.setGroup g v).links = s.links := rfl
@[simp] theorem State.setGroup_survey (s : State) (g : Nat) (v : Group) : (s.setGroup g v).survey = s.survey := rfl
@[simp] theorem State.setGroup_coll (s : State) (g : Nat) (v : Group) : (s.setGroup g v).coll = s.coll := rfl
@[simp] theorem State.setGroup_capture (s : State) (g : Nat) (v : Group) : (s.setGroup g v).capture = s.capture := rfl
@[simp] theorem State.setGroup_replay (s : State) (g : Nat) (v : Group) : (s.setGroup g v).replay = s.replay := rfl
@[simp] theorem State.setGroup_shadow (s : State) (g : Nat) (v : Group) : (s.setGroup g v).shadow = s.shadow := rfl
@[simp] theorem State.setGroup_mgt (s : State) (g : Nat) (v : Group) : (s.setGroup g v).mgt = s.mgt := rfl

/-! settleWith -/

@[simp] theorem State.settleWith_pending (s : State) (e : Option Nat) : (s.settleWith e).pending = s.pending := by rw [State.settleWith]
@[simp] theorem State.settleWith_free (s : State) (e : Option Nat) : (s.settleWith e).free = s.free := by rw [State.settleWith]
@[simp] theorem State.settleWith_regs (s : State) (e : Option Nat) : (s.settleWith e).regs = s.regs := by rw [State.settleWith]
@[simp] theorem State.settleWith_rdata (s : State) (e : Option Nat) : (s.settleWith e).rdata = s.rdata := by rw [State.settleWith]
@[simp] theorem State.settleWith_pcie (s : State) (e : Option Nat) : (s.settleWith e).pcie = s.pcie := by rw [State.settleWith]
@[simp] theorem State.settleWith_smb (s : State) (e : Option Nat) : (s.settleWith e).smb = s.smb := by rw [State.settleWith]
@[simp] theorem State.settleWith_fw (s : State) (e : Option Nat) : (s.settleWith e).fw = s.fw := by rw [State.settleWith]
@[simp] theorem State.settleWith_time (s : State) (e : Option Nat) : (s.settleWith e).time = s.time := by rw [State.settleWith]
@[simp] theorem State.settleWith_govs (s : State) (e : Option Nat) : (s.settleWith e).govs = s.govs := by rw [State.settleWith]
@[simp] theorem State.settleWith_hub (s : State) (e : Option Nat) : (s.settleWith e).hub = s.hub := by rw [State.settleWith]
@[simp] theorem State.settleWith_dma (s : State) (e : Option Nat) : (s.settleWith e).dma = s.dma := by rw [State.settleWith]
@[simp] theorem State.settleWith_host (s : State) (e : Option Nat) : (s.settleWith e).host = s.host := by rw [State.settleWith]
@[simp] theorem State.settleWith_fuses (s : State) (e : Option Nat) : (s.settleWith e).fuses = s.fuses := by rw [State.settleWith]
@[simp] theorem State.settleWith_pins (s : State) (e : Option Nat) : (s.settleWith e).pins = s.pins := by rw [State.settleWith]
@[simp] theorem State.settleWith_power (s : State) (e : Option Nat) : (s.settleWith e).power = s.power := by rw [State.settleWith]
@[simp] theorem State.settleWith_flash (s : State) (e : Option Nat) : (s.settleWith e).flash = s.flash := by rw [State.settleWith]
@[simp] theorem State.settleWith_effects (s : State) (e : Option Nat) : (s.settleWith e).effects = s.effects := by rw [State.settleWith]
@[simp] theorem State.settleWith_lanes (s : State) (e : Option Nat) : (s.settleWith e).lanes = s.lanes := by rw [State.settleWith]
@[simp] theorem State.settleWith_presented (s : State) (e : Option Nat) : (s.settleWith e).presented = s.presented := by rw [State.settleWith]
@[simp] theorem State.settleWith_events (s : State) (e : Option Nat) : (s.settleWith e).events = s.events := by rw [State.settleWith]
@[simp] theorem State.settleWith_decision (s : State) (e : Option Nat) : (s.settleWith e).decision = s.decision := by rw [State.settleWith]
@[simp] theorem State.settleWith_mem (s : State) (e : Option Nat) : (s.settleWith e).mem = s.mem := by rw [State.settleWith]
@[simp] theorem State.settleWith_trellis (s : State) (e : Option Nat) : (s.settleWith e).trellis = s.trellis := by rw [State.settleWith]
@[simp] theorem State.settleWith_spares (s : State) (e : Option Nat) : (s.settleWith e).spares = s.spares := by rw [State.settleWith]
@[simp] theorem State.settleWith_image (s : State) (e : Option Nat) : (s.settleWith e).image = s.image := by rw [State.settleWith]
@[simp] theorem State.settleWith_links (s : State) (e : Option Nat) : (s.settleWith e).links = s.links := by rw [State.settleWith]
@[simp] theorem State.settleWith_survey (s : State) (e : Option Nat) : (s.settleWith e).survey = s.survey := by rw [State.settleWith]
@[simp] theorem State.settleWith_groups (s : State) (e : Option Nat) : (s.settleWith e).groups = s.groups := by rw [State.settleWith]
@[simp] theorem State.settleWith_coll (s : State) (e : Option Nat) : (s.settleWith e).coll = s.coll := by rw [State.settleWith]
@[simp] theorem State.settleWith_capture (s : State) (e : Option Nat) : (s.settleWith e).capture = s.capture := by rw [State.settleWith]
@[simp] theorem State.settleWith_replay (s : State) (e : Option Nat) : (s.settleWith e).replay = s.replay := by rw [State.settleWith]
@[simp] theorem State.settleWith_shadow (s : State) (e : Option Nat) : (s.settleWith e).shadow = s.shadow := by rw [State.settleWith]
@[simp] theorem State.settleWith_mgt (s : State) (e : Option Nat) : (s.settleWith e).mgt = s.mgt := by rw [State.settleWith]

/-! settle -/

@[simp] theorem State.settle_pending (s : State) : (s.settle).pending = s.pending := State.settleWith_pending s none
@[simp] theorem State.settle_free (s : State) : (s.settle).free = s.free := State.settleWith_free s none
@[simp] theorem State.settle_regs (s : State) : (s.settle).regs = s.regs := State.settleWith_regs s none
@[simp] theorem State.settle_rdata (s : State) : (s.settle).rdata = s.rdata := State.settleWith_rdata s none
@[simp] theorem State.settle_pcie (s : State) : (s.settle).pcie = s.pcie := State.settleWith_pcie s none
@[simp] theorem State.settle_smb (s : State) : (s.settle).smb = s.smb := State.settleWith_smb s none
@[simp] theorem State.settle_fw (s : State) : (s.settle).fw = s.fw := State.settleWith_fw s none
@[simp] theorem State.settle_time (s : State) : (s.settle).time = s.time := State.settleWith_time s none
@[simp] theorem State.settle_govs (s : State) : (s.settle).govs = s.govs := State.settleWith_govs s none
@[simp] theorem State.settle_hub (s : State) : (s.settle).hub = s.hub := State.settleWith_hub s none
@[simp] theorem State.settle_dma (s : State) : (s.settle).dma = s.dma := State.settleWith_dma s none
@[simp] theorem State.settle_host (s : State) : (s.settle).host = s.host := State.settleWith_host s none
@[simp] theorem State.settle_fuses (s : State) : (s.settle).fuses = s.fuses := State.settleWith_fuses s none
@[simp] theorem State.settle_pins (s : State) : (s.settle).pins = s.pins := State.settleWith_pins s none
@[simp] theorem State.settle_power (s : State) : (s.settle).power = s.power := State.settleWith_power s none
@[simp] theorem State.settle_flash (s : State) : (s.settle).flash = s.flash := State.settleWith_flash s none
@[simp] theorem State.settle_effects (s : State) : (s.settle).effects = s.effects := State.settleWith_effects s none
@[simp] theorem State.settle_lanes (s : State) : (s.settle).lanes = s.lanes := State.settleWith_lanes s none
@[simp] theorem State.settle_presented (s : State) : (s.settle).presented = s.presented := State.settleWith_presented s none
@[simp] theorem State.settle_events (s : State) : (s.settle).events = s.events := State.settleWith_events s none
@[simp] theorem State.settle_decision (s : State) : (s.settle).decision = s.decision := State.settleWith_decision s none
@[simp] theorem State.settle_mem (s : State) : (s.settle).mem = s.mem := State.settleWith_mem s none
@[simp] theorem State.settle_trellis (s : State) : (s.settle).trellis = s.trellis := State.settleWith_trellis s none
@[simp] theorem State.settle_spares (s : State) : (s.settle).spares = s.spares := State.settleWith_spares s none
@[simp] theorem State.settle_image (s : State) : (s.settle).image = s.image := State.settleWith_image s none
@[simp] theorem State.settle_links (s : State) : (s.settle).links = s.links := State.settleWith_links s none
@[simp] theorem State.settle_survey (s : State) : (s.settle).survey = s.survey := State.settleWith_survey s none
@[simp] theorem State.settle_groups (s : State) : (s.settle).groups = s.groups := State.settleWith_groups s none
@[simp] theorem State.settle_coll (s : State) : (s.settle).coll = s.coll := State.settleWith_coll s none
@[simp] theorem State.settle_capture (s : State) : (s.settle).capture = s.capture := State.settleWith_capture s none
@[simp] theorem State.settle_replay (s : State) : (s.settle).replay = s.replay := State.settleWith_replay s none
@[simp] theorem State.settle_shadow (s : State) : (s.settle).shadow = s.shadow := State.settleWith_shadow s none
@[simp] theorem State.settle_mgt (s : State) : (s.settle).mgt = s.mgt := State.settleWith_mgt s none

end Sys2Proof.Machine
end

