-- ==== Sys2Proof/Laws/Table.lean ====
section
/-!
SUPPORT. The lemmas of tables: a read after a write of the same key gives the value written, a write leaves every other
key alone, and every write keeps the canonical form.
-/
namespace Sys2Proof.Laws

open Sys2Proof.Machine

variable {α : Type}

theorem tget_tins_same (d : Nat → α) (t : Tbl α) (k : Nat) (v : α) : tget d (tins k v t) k = v := by
  induction t with
  | nil => simp [tins, tget]
  | cons e t ih =>
    obtain ⟨j, w⟩ := e
    by_cases h1 : j < k
    · have : j ≠ k := by omega
      simp [tins, h1, tget, ih, this]
    · by_cases h2 : j = k <;> simp [tins, h1, h2, tget]

theorem tget_tins_ne (d : Nat → α) (t : Tbl α) {k k' : Nat} (v : α) (h : k ≠ k') :
    tget d (tins k v t) k' = tget d t k' := by
  induction t with
  | nil => simp [tins, tget, h]
  | cons e t ih =>
    obtain ⟨j, w⟩ := e
    by_cases h1 : j < k
    · simp [tins, h1, tget, ih]
    · by_cases h2 : j = k
      · subst h2; simp [tins, tget, h]
      · simp [tins, h1, h2, tget, h]

theorem tget_tdel_same (d : Nat → α) (t : Tbl α) (k : Nat) : tget d (tdel k t) k = d k := by
  induction t with
  | nil => rfl
  | cons e t ih =>
    obtain ⟨j, w⟩ := e
    by_cases h : j = k
    · simpa [tdel, h] using ih
    · simpa [tdel, h, tget] using ih

theorem tget_tdel_ne (d : Nat → α) (t : Tbl α) {k k' : Nat} (h : k ≠ k') :
    tget d (tdel k t) k' = tget d t k' := by
  induction t with
  | nil => rfl
  | cons e t ih =>
    obtain ⟨j, w⟩ := e
    by_cases hj : j = k
    · subst hj; simpa [tdel, tget, h] using ih
    · by_cases hk : j = k' <;> simp_all [tdel, tget]

variable [DecidableEq α]

@[simp] theorem tget_tset_same (d : Nat → α) (t : Tbl α) (k : Nat) (v : α) : tget d (tset d t k v) k = v := by
  unfold tset; split
  · next h => rw [tget_tdel_same, h]
  · exact tget_tins_same d t k v

theorem tget_tset_ne (d : Nat → α) (t : Tbl α) {k k' : Nat} (v : α) (h : k ≠ k') :
    tget d (tset d t k v) k' = tget d t k' := by
  unfold tset; split
  · exact tget_tdel_ne d t h
  · exact tget_tins_ne d t v h

theorem twfFrom_tins (d : Nat → α) (k : Nat) (v : α) (hv : v ≠ d k) (t : Tbl α) :
    ∀ b : Option Nat, (∀ c, b = some c → c < k) → twfFrom d b t = true → twfFrom d b (tins k v t) = true := by
  induction t with
  | nil => intro b hb _; cases b <;> simp_all [tins, twfFrom]
  | cons e t ih =>
    obtain ⟨j, w⟩ := e
    intro b hb h
    simp only [twfFrom, Bool.and_eq_true, decide_eq_true_eq] at h
    obtain ⟨⟨h1, h2⟩, h3⟩ := h
    by_cases hjk : j < k
    · simp only [tins, hjk, if_true, twfFrom, Bool.and_eq_true, decide_eq_true_eq]
      exact ⟨⟨h1, h2⟩, ih _ (by intro c hc; cases hc; exact hjk) h3⟩
    · by_cases he : j = k
      · subst he
        simp only [tins, Nat.lt_irrefl, if_false, if_true, twfFrom, Bool.and_eq_true, decide_eq_true_eq]
        exact ⟨⟨h1, hv⟩, h3⟩
      · have hk : k < j := by omega
        have h0 : b.elim true (fun c => decide (c < k)) = true := by
          cases b with
          | none => rfl
          | some c => simpa using hb c rfl
        simp only [tins, hjk, he, if_false, twfFrom, Bool.and_eq_true, decide_eq_true_eq, Option.elim_some]
        exact ⟨⟨h0, hv⟩, ⟨hk, h2⟩, h3⟩

theorem twfFrom_weaken (d : Nat → α) (t : Tbl α) :
    ∀ b j : Nat, b ≤ j → twfFrom d (some j) t = true → twfFrom d (some b) t = true := by
  intro b j hbj h
  cases t with
  | nil => rfl
  | cons e t =>
    simp only [twfFrom, Option.elim_some, Bool.and_eq_true, decide_eq_true_eq] at *
    exact ⟨⟨by omega, h.1.2⟩, h.2⟩

theorem twfFrom_filter (d : Nat → α) (p : Nat × α → Bool) (t : Tbl α) :
    ∀ b : Option Nat, twfFrom d b t = true → twfFrom d b (t.filter p) = true := by
  induction t with
  | nil => intro b h; exact h
  | cons e t ih =>
    intro b h
    obtain ⟨j, w⟩ := e
    simp only [twfFrom, Bool.and_eq_true, decide_eq_true_eq] at h
    obtain ⟨⟨h1, h2⟩, h3⟩ := h
    by_cases hp : p (j, w) = true
    · rw [List.filter_cons_of_pos hp]
      simp only [twfFrom, Bool.and_eq_true, decide_eq_true_eq]
      exact ⟨⟨h1, h2⟩, ih _ h3⟩
    · rw [List.filter_cons_of_neg hp]
      apply ih
      cases b with
      | none =>
        cases t with
        | nil => rfl
        | cons e' t' =>
          simp only [twfFrom, Option.elim_some, Option.elim_none, Bool.and_eq_true, decide_eq_true_eq] at *
          exact ⟨⟨trivial, h3.1.2⟩, h3.2⟩
      | some c =>
        exact twfFrom_weaken d t c j (by simp only [Option.elim_some, decide_eq_true_eq] at h1; omega) h3

/-- Every table write keeps the canonical form. -/
theorem twf_tset (d : Nat → α) (t : Tbl α) (k : Nat) (v : α) (h : twf d t = true) : twf d (tset d t k v) = true := by
  unfold twf tset at *
  split
  · exact twfFrom_filter d _ t none h
  · next hv => exact twfFrom_tins d k v hv t none (by intro c hc; cases hc) h

/-- Clearing a range keeps the canonical form. -/
theorem twf_tclear (d : Nat → α) (t : Tbl α) (lo n : Nat) (h : twf d t = true) : twf d (tclear t lo n) = true :=
  twfFrom_filter d _ t none h

/-- Writing a run of keys keeps the canonical form. -/
theorem twf_tsetMany (d : Nat → α) (step : Nat) (vs : List α) :
    ∀ (t : Tbl α) (k : Nat), twf d t = true → twf d (tsetMany d step t k vs) = true := by
  induction vs with
  | nil => intro t k h; exact h
  | cons v vs ih => intro t k h; exact ih _ _ (twf_tset d t k v h)

/-- Writing a run of keys from `k` on leaves every key below `k` alone. -/
theorem tget_tsetMany_lt (d : Nat → α) (step : Nat) (vs : List α) :
    ∀ (t : Tbl α) (k k' : Nat), k' < k → tget d (tsetMany d step t k vs) k' = tget d t k' := by
  induction vs with
  | nil => intro t k k' _; rfl
  | cons v vs ih =>
    intro t k k' h
    rw [tsetMany, ih _ _ _ (by omega), tget_tset_ne d t v (by omega)]

/-- Writing a run of keys leaves every key at or past its end alone. -/
theorem tget_tsetMany_ge (d : Nat → α) (vs : List α) :
    ∀ (t : Tbl α) (k k' : Nat), k + vs.length ≤ k' → tget d (tsetMany d 1 t k vs) k' = tget d t k' := by
  induction vs with
  | nil => intro t k k' _; rfl
  | cons v vs ih =>
    intro t k k' h
    simp only [List.length_cons] at h
    rw [tsetMany, ih _ _ _ (by omega), tget_tset_ne d t v (by omega)]

end Sys2Proof.Laws
end

