-- ==== Sys2Proof/Laws/Registers.lean ====
section
/-!
SUPPORT. Registers and their fields: what reads back after a write, and that a write leaves every other register and every
other field of the same register alone.
-/
namespace Sys2Proof.Laws

open Sys2Proof.Machine

@[simp] theorem reg_setReg_same (s : State) (o : Nat) (w : Word) : (s.setReg o w).reg o = w :=
  tget_tset_same _ _ _ _

theorem reg_setReg_ne (s : State) {o p : Nat} (w : Word) (h : o ≠ p) : (s.setReg o w).reg p = s.reg p :=
  tget_tset_ne _ _ _ h

theorem reg_setFld_ne (s : State) (f : Fld) (v : Nat) {p : Nat} (h : f.off ≠ p) : (s.setFld f v).reg p = s.reg p :=
  reg_setReg_ne s _ h

/-- A field fits in its register. -/
def Fits (f : Fld) : Prop := f.lo + f.width ≤ 32

theorem put_toNat (f : Fld) (hf : Fits f) (w : Word) (v : Nat) : (Fld.put f w v).toNat =
    w.toNat % 2 ^ f.lo + (v % 2 ^ f.width) * 2 ^ f.lo + w.toNat / 2 ^ (f.lo + f.width) * 2 ^ (f.lo + f.width) := by
  unfold Fld.put
  rw [BitVec.toNat_ofNat, Nat.shiftRight_eq_div_pow]
  apply Nat.mod_eq_of_lt
  have h1 : w.toNat % 2 ^ f.lo < 2 ^ f.lo := Nat.mod_lt _ (Nat.two_pow_pos _)
  have h2 : v % 2 ^ f.width + 1 ≤ 2 ^ f.width := Nat.mod_lt _ (Nat.two_pow_pos _)
  have h3 : w.toNat / 2 ^ (f.lo + f.width) + 1 ≤ 2 ^ (32 - (f.lo + f.width)) := by
    apply Nat.div_lt_of_lt_mul
    rw [← Nat.pow_add, Nat.add_sub_cancel' hf]
    exact w.isLt
  have h4 := Nat.mul_le_mul_right (2 ^ f.lo) h2
  have h5 := Nat.mul_le_mul_right (2 ^ (f.lo + f.width)) h3
  rw [Nat.add_mul, Nat.one_mul, ← Nat.pow_add] at h4 h5
  rw [Nat.sub_add_cancel hf] at h5
  rw [Nat.add_comm f.width f.lo] at h4
  omega

/-- The value written to a field reads back, cut to the field's width. -/
theorem get_put_same (f : Fld) (hf : Fits f) (w : Word) (v : Nat) : Fld.get f (Fld.put f w v) = v % 2 ^ f.width := by
  unfold Fld.get
  rw [put_toNat f hf, Nat.shiftRight_eq_div_pow]
  have hp := Nat.two_pow_pos f.lo
  have h : w.toNat % 2 ^ f.lo + (v % 2 ^ f.width) * 2 ^ f.lo + w.toNat / 2 ^ (f.lo + f.width) * 2 ^ (f.lo + f.width) =
      w.toNat % 2 ^ f.lo + 2 ^ f.lo * (v % 2 ^ f.width + 2 ^ f.width * (w.toNat / 2 ^ (f.lo + f.width))) := by
    rw [Nat.pow_add]; grind
  rw [h, Nat.add_mul_div_left _ _ hp, Nat.div_eq_of_lt (Nat.mod_lt _ hp), Nat.zero_add, Nat.add_mul_mod_self_left, Nat.mod_mod]

theorem fld_setFld_same (s : State) (f : Fld) (hf : Fits f) (v : Nat) : (s.setFld f v).fld f = v % 2 ^ f.width := by
  unfold State.fld State.setFld
  rw [reg_setReg_same, get_put_same f hf]

/-- A field of another register keeps its value. -/
theorem fld_setFld_off (s : State) (f g : Fld) (v : Nat) (h : f.off ≠ g.off) : (s.setFld f v).fld g = s.fld g := by
  unfold State.fld
  rw [reg_setFld_ne s f v h]

/-- A field beside the one written keeps its value. -/
theorem get_put_beside (f g : Fld) (hf : Fits f) (w : Word) (v : Nat)
    (h : g.lo + g.width ≤ f.lo ∨ f.lo + f.width ≤ g.lo) : Fld.get g (Fld.put f w v) = Fld.get g w := by
  unfold Fld.get
  rw [put_toNat f hf, Nat.shiftRight_eq_div_pow, Nat.shiftRight_eq_div_pow]
  rcases h with h | h
  · obtain ⟨k, hk⟩ := Nat.exists_eq_add_of_le h
    have key : ∀ n : Nat, n / 2 ^ g.lo % 2 ^ g.width = (n % 2 ^ f.lo) / 2 ^ g.lo % 2 ^ g.width := by
      intro n
      rw [← Nat.mod_mul_right_div_self, ← Nat.mod_mul_right_div_self, ← Nat.pow_add, hk, Nat.pow_add _ (g.lo + g.width),
        Nat.mod_mul_right_mod]
    rw [key, key w.toNat]
    congr 2
    rw [Nat.pow_add]
    have : w.toNat % 2 ^ f.lo + v % 2 ^ f.width * 2 ^ f.lo + w.toNat / (2 ^ f.lo * 2 ^ f.width) * (2 ^ f.lo * 2 ^ f.width) =
      w.toNat % 2 ^ f.lo + 2 ^ f.lo * (v % 2 ^ f.width + w.toNat / (2 ^ f.lo * 2 ^ f.width) * 2 ^ f.width) := by grind
    rw [this, Nat.add_mul_mod_self_left, Nat.mod_mod]
  · obtain ⟨k, hk⟩ := Nat.exists_eq_add_of_le h
    have key : ∀ n : Nat, n / 2 ^ g.lo = n / 2 ^ (f.lo + f.width) / 2 ^ k := by
      intro n; rw [Nat.div_div_eq_div_mul, ← Nat.pow_add, ← hk]
    rw [key, key w.toNat]
    congr 2
    have h1 : w.toNat % 2 ^ f.lo < 2 ^ f.lo := Nat.mod_lt _ (Nat.two_pow_pos _)
    have h2 : v % 2 ^ f.width + 1 ≤ 2 ^ f.width := Nat.mod_lt _ (Nat.two_pow_pos _)
    have h4 := Nat.mul_le_mul_right (2 ^ f.lo) h2
    rw [Nat.add_mul, Nat.one_mul, ← Nat.pow_add, Nat.add_comm f.width f.lo] at h4
    rw [Nat.add_mul_div_right _ _ (Nat.two_pow_pos _), Nat.div_eq_of_lt (by omega), Nat.zero_add]

theorem fld_setFld_beside (s : State) (f g : Fld) (hf : Fits f) (v : Nat)
    (h : g.lo + g.width ≤ f.lo ∨ f.lo + f.width ≤ g.lo) : (s.setFld f v).fld g = s.fld g := by
  by_cases ho : f.off = g.off
  · unfold State.fld State.setFld
    rw [← ho, reg_setReg_same, get_put_beside f g hf _ _ h]
  · exact fld_setFld_off s f g v ho

/-! Settling reads every register as before -/

@[simp] theorem reg_settleWith (s : State) (e : Option Nat) (o : Nat) : (s.settleWith e).reg o = s.reg o := by
  simp [State.reg]
@[simp] theorem reg_settle (s : State) (o : Nat) : s.settle.reg o = s.reg o := by simp [State.reg]
@[simp] theorem fld_settle (s : State) (f : Fld) : s.settle.fld f = s.fld f := by simp [State.fld]
@[simp] theorem bit_settle (s : State) (f : Fld) : s.settle.bit f = s.bit f := by simp [State.bit]
@[simp] theorem life_settle (s : State) : s.settle.life = s.life := by simp [State.life]
@[simp] theorem up_settle (s : State) : s.settle.up = s.up := by simp [State.up]

end Sys2Proof.Laws
end

