-- ==== Sys2Proof/Laws/Commands.lean ====
section
/-!
SUPPORT. Queue commands: what beginning one touches, and that one which starts runs its body.
-/
namespace Sys2Proof.Laws

open Sys2Proof.Machine

theorem stage_hub (s : State) (id : Nat) (st : Stage) : ∃ h, s.stage id st = { s with hub := h } := by
  simp only [State.stage]
  split
  · exact ⟨_, rfl⟩
  · simp only [State.setCmd]; split <;> exact ⟨_, rfl⟩

/-- Pre-empting touches the table of commands and the engines alone. -/
theorem preemptBelow_touches (s : State) (p : Nat) : ∃ h d, s.preemptBelow p = { s with hub := h, dma := d } := by
  unfold State.preemptBelow
  generalize s.engineIn .running = l
  induction l generalizing s with
  | nil => exact ⟨_, _, rfl⟩
  | cons e l ih =>
    simp only [List.foldl_cons]
    split
    · obtain ⟨h', e'⟩ := stage_hub (s.setEngine e { s.engine e with mode := .preempted }) (s.engine e).cmd .preempted
      rw [e']
      obtain ⟨h, d, e''⟩ := ih { s.setEngine e { s.engine e with mode := .preempted } with hub := h' }
      exact ⟨h, d, e''⟩
    · exact ih s

/-- A command that begins touches the table of commands and the engines alone. -/
theorem begun_touches (s : State) (q : Nat) (c : Cmd) : ∃ h d, s.begun q c = { s with hub := h, dma := d } := by
  unfold State.begun State.when
  split
  · obtain ⟨h, d, e⟩ := preemptBelow_touches (s.serve q) ((s.serve q).prio q)
    obtain ⟨h', e'⟩ := stage_hub ((s.serve q).preemptBelow ((s.serve q).prio q)) c.id .running
    exact ⟨h', d, e'.trans (by rw [e]; rfl)⟩
  · obtain ⟨h', e'⟩ := stage_hub (s.serve q) c.id .running
    rw [e']
    exact ⟨_, _, rfl⟩

/-- A command that starts runs its body on the state in which it has begun. -/
theorem command_starts {s : State} {op q : Nat} {lives : List Nat} {c : Cmd} (h : s.Starts op q lives c)
    (body : Cmd → State → State) : s.command op q (fun _ => lives) body = body c (s.begun q c) := by
  obtain ⟨h1, h2, h3, hi, hr⟩ := h
  obtain ⟨h, d, e⟩ := begun_touches s q c
  have h4 : (s.begun q c).lifeIn lives = true := by rw [e]; exact h2
  have h5 : (s.begun q c).power.rom = false := by rw [e]; exact h3
  simp [State.command, Cmd.checked, h1, h4, h5, hi, hr]

/-- Counting a free number of corrected errors takes one free value, changes CFM_ECC_STAT.corr and nothing else. -/
theorem corrected_frame (s : State) (n : Nat) :
    ∃ k, k ≤ n ∧ s.corrected n = State.satAdd { s with free := s.free + 1 } F.CFM_ECC_STAT.corr k :=
  ⟨_, Nat.lt_succ_iff.mp (Nat.mod_lt _ (Nat.succ_pos n)), rfl⟩

theorem corrected_reg (s : State) (n : Nat) {o : Nat} (h : F.CFM_ECC_STAT.corr.off ≠ o) : (s.corrected n).reg o = s.reg o := by
  obtain ⟨k, -, h1⟩ := corrected_frame s n
  rw [h1]
  exact reg_setFld_ne _ _ _ h

@[simp] theorem corrected_power (s : State) (n : Nat) : (s.corrected n).power = s.power := rfl
@[simp] theorem corrected_image (s : State) (n : Nat) : (s.corrected n).image = s.image := rfl
@[simp] theorem corrected_capture (s : State) (n : Nat) : (s.corrected n).capture = s.capture := rfl
@[simp] theorem corrected_mem (s : State) (n : Nat) : (s.corrected n).mem = s.mem := rfl

end Sys2Proof.Laws
end

