-- ==== Sys2Proof/Laws/Interrupts.lean ====
section
/-!
SUPPORT. Maps of interrupt sources, and what settling the interrupt controller does to each source and target.
-/
namespace Sys2Proof.Laws

open Sys2Proof.Machine

theorem nbit_eq_testBit (v i : Nat) : nbit v i = v.testBit i := by
  simp [nbit, Nat.testBit, Nat.shiftRight_eq_div_pow, Nat.one_and_eq_mod_two]

theorem sourceFold_testBit (p : Nat → Bool) (n : Nat) :
    ((List.range n).foldl (fun a i => if p (i + 1) then a + 2 ^ (i + 1) else a) 0) < 2 ^ (n + 1) ∧
    ∀ x, ((List.range n).foldl (fun a i => if p (i + 1) then a + 2 ^ (i + 1) else a) 0).testBit x =
      (decide (1 ≤ x ∧ x ≤ n) && p x) := by
  induction n with
  | zero =>
    refine ⟨by simp, fun x => ?_⟩
    simp; omega
  | succ n ih =>
    rw [List.range_succ, List.foldl_append]
    simp only [List.foldl_cons, List.foldl_nil]
    obtain ⟨h2, h1⟩ := ih
    generalize (List.range n).foldl (fun a i => if p (i + 1) then a + 2 ^ (i + 1) else a) 0 = a at *
    by_cases hp : p (n + 1) = true
    · simp only [hp, if_true]
      have hlt : a + 2 ^ (n + 1) < 2 ^ (n + 2) := by rw [Nat.pow_succ 2 (n + 1)]; omega
      refine ⟨hlt, fun x => ?_⟩
      rcases Nat.lt_trichotomy x (n + 1) with hx | hx | hx
      · rw [Nat.add_comm, Nat.testBit_two_pow_add_gt hx, h1]
        have : (1 ≤ x ∧ x ≤ n) ↔ (1 ≤ x ∧ x ≤ n + 1) := by omega
        simp [this]
      · subst hx
        rw [Nat.add_comm, Nat.testBit_two_pow_add_eq, Nat.testBit_lt_two_pow h2]
        simp [hp]
      · rw [Nat.testBit_lt_two_pow (Nat.lt_of_lt_of_le hlt (Nat.pow_le_pow_right (by decide) hx))]
        have : ¬ (1 ≤ x ∧ x ≤ n + 1) := by omega
        simp [this]
    · simp only [hp]
      refine ⟨by simp; rw [Nat.pow_succ]; omega, fun x => ?_⟩
      simp only [Bool.false_eq_true, if_false, h1]
      by_cases hx : x = n + 1
      · subst hx; simp [hp]
      · have : (1 ≤ x ∧ x ≤ n) ↔ (1 ≤ x ∧ x ≤ n + 1) := by omega
        simp [this]

/-- Source `x` is in a map made from a predicate exactly when the predicate holds of it. -/
theorem inMap_sourceMap (p : Nat → Bool) (x : Nat) (h1 : 1 ≤ x) (h2 : x < 256) : inMap (sourceMap p) x = p x := by
  have h := sourceFold_testBit p 255
  unfold inMap sourceMap
  rw [nbit_eq_testBit, BitVec.toNat_ofNat, Nat.mod_eq_of_lt h.1, h.2]
  have : 1 ≤ x ∧ x ≤ 255 := by omega
  simp [this]

theorem inMap_getLsbD (m : BitVec 256) (x : Nat) : inMap m x = m.getLsbD x := by
  unfold inMap; rw [nbit_eq_testBit]; rfl

/-- What one target's signalling does: it remembers the best priority, and changes nothing that decides it. -/
theorem signal_intc (s : State) (e : Option Nat) (cm : Intc × Msix) (k : Nat) :
    (s.signal e cm k).1 = { cm.1 with best := tset (fun _ => 0) cm.1.best k (s.bestOf cm.1 k).2 } := by
  unfold State.signal; simp only; split <;> rfl

theorem bestOf_best (s : State) (c : Intc) (b : Tbl Nat) (k : Nat) : s.bestOf { c with best := b } k = s.bestOf c k := rfl

/-- Origins, claimability and best priorities are decided by the registers alone. -/
theorem origin_regs {s t : State} (h : t.regs = s.regs) (x : Nat) : t.origin x = s.origin x := by
  unfold State.origin State.gated State.bit State.fld State.reg
  rw [h]

theorem claimable_regs {s t : State} (h : t.regs = s.regs) (c : Intc) (k x : Nat) : t.claimable c k x = s.claimable c k x := by
  unfold State.claimable State.bit State.fld State.reg
  rw [h]

theorem bestOf_regs {s t : State} (h : t.regs = s.regs) (c : Intc) (k : Nat) : t.bestOf c k = s.bestOf c k := by
  unfold State.bestOf State.claimable State.bit State.fld State.reg
  rw [h]

/-- The controller after pending has followed the origins, before the targets signal (R494). -/
def followed (s : State) : Intc := { s.intc with pend := nextPend s.intc s.edgeMap s.origins, origin := s.origins }

/-- What settling does to the controller: pending follows, and each target remembers its best priority. -/
theorem settledInts_intc (s : State) (e : Option Nat) : (s.settledInts e).1 = { followed s with
    best := tset (fun _ => 0) (tset (fun _ => 0) (tset (fun _ => 0) (tset (fun _ => 0) s.intc.best 0
      (s.bestOf (followed s) 0).2) 1 (s.bestOf (followed s) 1).2) 2 (s.bestOf (followed s) 2).2) 3
      (s.bestOf (followed s) 3).2 } := by
  simp only [State.settledInts, List.foldl_cons, List.foldl_nil, signal_intc]
  rfl

/-- A change of one field is a change of the registers. -/
theorem setFld_regs (s : State) (f : Fld) (v : Nat) : ∃ r, s.setFld f v = { s with regs := r } := ⟨_, rfl⟩

/-- Recording a fault changes registers alone. -/
theorem recordFault_regs (s : State) (ws : List Word) : ∃ r, s.recordFault ws = { s with regs := r } := by
  have hl : ∀ (h t : Fld) (b k n : Nat), ∃ r, (s.logWrite h t b k n ws).2 = { s with regs := r } := by
    intro h t b k n
    unfold State.logWrite
    dsimp only
    split
    · exact ⟨_, rfl⟩
    · exact ⟨s.regs, rfl⟩
  unfold State.recordFault
  obtain ⟨r, hr⟩ := hl F.DMA_FAULT_HEAD.head F.DMA_FAULT_TAIL.tail (Reg.DMA_FAULT_LOG 0 0) 0x20 64
  generalize s.logWrite F.DMA_FAULT_HEAD.head F.DMA_FAULT_TAIL.tail (Reg.DMA_FAULT_LOG 0 0) 0x20 64 ws = x at hr
  obtain ⟨ok, t⟩ := x
  simp only at hr
  subst hr
  dsimp only
  split
  · obtain ⟨r', h'⟩ := setFld_regs { s with regs := r } F.DMA_EVT.fault 1
    exact ⟨r', h'⟩
  · obtain ⟨r', h'⟩ : ∃ r', State.satInc { s with regs := r } F.DMA_FAULT_STAT.overflow = { s with regs := r' } :=
      setFld_regs { s with regs := r } _ _
    obtain ⟨r2, h2⟩ := setFld_regs { s with regs := r' } F.DMA_EVT.overflow 1
    refine ⟨r2, ?_⟩
    rw [h']
    exact h2

/-- A translation changes its counters and the cache alone. -/
theorem translate_frame (s : State) (va : Nat) (write : Bool) :
    ∃ r d, (s.translate va write).2 = { s with regs := r, dma := d } := by
  unfold State.translate
  split
  · exact ⟨s.regs, s.dma, rfl⟩
  · split
    · obtain ⟨r, h⟩ : ∃ r, s.satInc F.DAT_HIT.count = { s with regs := r } := setFld_regs s _ _
      exact ⟨r, s.dma, h⟩
    · obtain ⟨r, h⟩ : ∃ r, s.satInc F.DAT_MISS.count = { s with regs := r } := setFld_regs s _ _
      rw [h]
      dsimp only
      split
      · exact ⟨r, s.dma, rfl⟩
      · exact ⟨r, _, rfl⟩

/-- What sending one MSI-X message may change: registers, the translation cache and the messages sent. -/
theorem postMsix_frame (s : State) (m : Nat × Word) :
    ∃ r d x, s.postMsix m = { s with regs := r, dma := d, msix := x } := by
  obtain ⟨r, d, ht⟩ := translate_frame s m.1 true
  unfold State.postMsix
  generalize s.translate m.1 true = x at ht
  obtain ⟨a, t⟩ := x
  simp only at ht
  subst ht
  cases a with
  | ok b => exact ⟨r, d, _, rfl⟩
  | error f =>
    obtain ⟨r', h'⟩ := recordFault_regs { s with regs := r, dma := d }
      (State.faultWords { s with regs := r, dma := d } { engine := 0xF, queue := 0, op := 0, seq := 0 } f)
    exact ⟨r', d, s.msix, h'⟩

/-- Sending the messages that wait changes registers, the translation cache and the messages alone. -/
theorem postAllMsix_frame (s : State) : ∃ r d x, s.postAllMsix = { s with regs := r, dma := d, msix := x } := by
  unfold State.postAllMsix
  have h : ∀ (l : List (Nat × Word)) (t : State), ∃ r d x, l.foldl State.postMsix t = { t with regs := r, dma := d, msix := x } := by
    intro l
    induction l with
    | nil => intro t; exact ⟨_, _, _, rfl⟩
    | cons a l ih =>
      intro t
      obtain ⟨r, d, x, h1⟩ := postMsix_frame t a
      obtain ⟨r', d', x', h2⟩ := ih (t.postMsix a)
      refine ⟨r', d', x', ?_⟩
      rw [List.foldl_cons, h2, h1]
  obtain ⟨r, d, x, h⟩ := h s.msix.due.reverse { s with msix := { s.msix with due := [] } }
  exact ⟨r, d, x, h⟩

end Sys2Proof.Laws
end

