-- ==== Sys2Proof/Laws/Memory.lean ====
section
/-!
SUPPORT. The memories and the register table: a read after a write gives what was written, a write leaves every other byte
alone, and every operation over them keeps the canonical form, which the state after reset has.
-/
namespace Sys2Proof.Laws

open Sys2Proof.Machine

/-! Runs of keys -/

theorem length_tgetMany {α : Type} (d : Nat → α) (step : Nat) (t : Tbl α) (k n : Nat) : (tgetMany d step t k n).length = n := by
  simp [tgetMany]

/-- What a run of writes put at its `i`th key is read back there. -/
theorem tget_tsetMany_at {α : Type} [DecidableEq α] (d : Nat → α) (vs : List α) :
    ∀ (t : Tbl α) (k i : Nat) (h : i < vs.length), tget d (tsetMany d 1 t k vs) (k + i) = vs[i] := by
  induction vs with
  | nil => intro t k i h; exact absurd h (Nat.not_lt_zero i)
  | cons v vs ih =>
    intro t k i h
    cases i with
    | zero => simp [tsetMany, tget_tsetMany_lt]
    | succ i =>
      have e : k + (i + 1) = k + 1 + i := by omega
      simpa [tsetMany, e] using ih (tset d t k v) (k + 1) i (by simpa using h)

/-! Bytes -/

/-- A read of what was just written gives it. -/
theorem memRead_memWrite (s : State) (a : Nat) (bs : List Byte) : (s.memWrite a bs).memRead a bs.length = bs := by
  apply List.ext_getElem
  · simp [State.memRead, length_tgetMany]
  · intro i h1 h2
    simp [State.memRead, State.memWrite, tgetMany, tget_tsetMany_at memDflt bs s.mem a i h2]

/-- A write leaves every byte outside it alone. -/
theorem memRead_memWrite_outside (s : State) (a : Nat) (bs : List Byte) {x : Nat} (h : x < a ∨ a + bs.length ≤ x) :
    (s.memWrite a bs).memRead x 1 = s.memRead x 1 := by
  have key : tget memDflt (tsetMany memDflt 1 s.mem a bs) x = tget memDflt s.mem x := by
    rcases h with h | h
    · exact tget_tsetMany_lt _ _ _ _ _ _ h
    · exact tget_tsetMany_ge _ _ _ _ _ h
  simp [State.memRead, State.memWrite, tgetMany, key]

/-- A write of host memory leaves every byte outside it alone. -/
theorem hostRead_hostWrite_outside (s : State) (a : Nat) (bs : List Byte) {x : Nat} (h : x < a ∨ a + bs.length ≤ x) :
    (s.hostWrite a bs).hostRead x 1 = s.hostRead x 1 := by
  have key : tget hostDflt (tsetMany hostDflt 1 s.host.mem a bs) x = tget hostDflt s.host.mem x := by
    rcases h with h | h
    · exact tget_tsetMany_lt _ _ _ _ _ _ h
    · exact tget_tsetMany_ge _ _ _ _ _ h
  simp [State.hostRead, State.hostWrite, tgetMany, key]

/-- A read of host memory that was just written gives what was written. -/
theorem hostRead_hostWrite (s : State) (a : Nat) (bs : List Byte) : (s.hostWrite a bs).hostRead a bs.length = bs := by
  apply List.ext_getElem
  · simp [State.hostRead, length_tgetMany]
  · intro i h1 h2
    simp [State.hostRead, State.hostWrite, tgetMany, tget_tsetMany_at hostDflt bs s.host.mem a i h2]

/-! The canonical form -/

/-- Keeping the keys and dropping or changing values, to none that is the default, keeps the canonical form. -/
theorem twfFrom_filterMap {α : Type} [DecidableEq α] (d : Nat → α) (f : Nat × α → Option (Nat × α))
    (hf : ∀ e r, e.2 ≠ d e.1 → f e = some r → r.1 = e.1 ∧ r.2 ≠ d e.1) (t : Tbl α) :
    ∀ b : Option Nat, twfFrom d b t = true → twfFrom d b (t.filterMap f) = true := by
  induction t with
  | nil => intro b h; exact h
  | cons e t ih =>
    intro b h
    obtain ⟨j, w⟩ := e
    simp only [twfFrom, Bool.and_eq_true, decide_eq_true_eq] at h
    obtain ⟨⟨h1, h2⟩, h3⟩ := h
    cases hr : f (j, w) with
    | none =>
      rw [List.filterMap_cons_none hr]
      apply ih
      cases b with
      | none =>
        cases t with
        | nil => rfl
        | cons x t => simp only [twfFrom, Option.elim_some, Option.elim_none, Bool.and_eq_true, decide_eq_true_eq] at *; exact ⟨⟨trivial, h3.1.2⟩, h3.2⟩
      | some c => exact twfFrom_weaken d t c j (by simp only [Option.elim_some, decide_eq_true_eq] at h1; omega) h3
    | some r =>
      obtain ⟨k, v⟩ := r
      obtain ⟨hk, hv⟩ := hf _ _ h2 hr
      simp only at hk hv
      subst hk
      rw [List.filterMap_cons_some hr]
      simp only [twfFrom, Bool.and_eq_true, decide_eq_true_eq]
      exact ⟨⟨h1, hv⟩, ih _ h3⟩

/-- The form is that of the four tables. -/
theorem memoryWf_iff (s : State) : s.memoryWf = true ↔ twf hostDflt s.host.mem = true ∧ twf memDflt s.mem = true ∧
    twf flashDflt s.flash = true ∧ twf RegMap.resetVal s.regs = true := by
  simp [State.memoryWf, and_assoc]

theorem memoryWf_reset : State.reset.memoryWf = true := by decide +kernel

theorem memoryWf_setReg (s : State) (o : Nat) (w : Word) (h : s.memoryWf = true) : (s.setReg o w).memoryWf = true := by
  rw [memoryWf_iff] at *; exact ⟨h.1, h.2.1, h.2.2.1, twf_tset _ _ _ _ h.2.2.2⟩

theorem memoryWf_setFld (s : State) (f : Fld) (v : Nat) (h : s.memoryWf = true) : (s.setFld f v).memoryWf = true :=
  memoryWf_setReg s _ _ h

theorem memoryWf_setRegs (s : State) (o : Nat) (ws : List Word) (h : s.memoryWf = true) : (s.setRegs o ws).memoryWf = true := by
  rw [memoryWf_iff] at *; exact ⟨h.1, h.2.1, h.2.2.1, twf_tsetMany _ _ _ _ _ h.2.2.2⟩

theorem memoryWf_resetRegs (s : State) (lo n : Nat) (h : s.memoryWf = true) : (s.resetRegs lo n).memoryWf = true := by
  rw [memoryWf_iff] at *; exact ⟨h.1, h.2.1, h.2.2.1, twf_tclear _ _ _ _ h.2.2.2⟩

theorem memoryWf_hostWrite (s : State) (a : Nat) (bs : List Byte) (h : s.memoryWf = true) : (s.hostWrite a bs).memoryWf = true := by
  rw [memoryWf_iff] at *; exact ⟨twf_tsetMany _ _ _ _ _ h.1, h.2⟩

theorem memoryWf_memWrite (s : State) (a : Nat) (bs : List Byte) (h : s.memoryWf = true) : (s.memWrite a bs).memoryWf = true := by
  rw [memoryWf_iff] at *; exact ⟨h.1, twf_tsetMany _ _ _ _ _ h.2.1, h.2.2⟩

theorem memoryWf_memZero (s : State) (a n : Nat) (h : s.memoryWf = true) : (s.memZero a n).memoryWf = true := by
  rw [memoryWf_iff] at *; exact ⟨h.1, twf_tclear _ _ _ _ h.2.1, h.2.2⟩

theorem memoryWf_flashProgram (s : State) (a : Nat) (bs : List Byte) (h : s.memoryWf = true) :
    (s.flashProgram a bs).memoryWf = true := by
  rw [memoryWf_iff] at *; exact ⟨h.1, h.2.1, twf_tsetMany _ _ _ _ _ h.2.2.1, h.2.2.2⟩

theorem memoryWf_flashErase (s : State) (a n : Nat) (h : s.memoryWf = true) : (s.flashErase a n).memoryWf = true := by
  rw [memoryWf_iff] at *; exact ⟨h.1, h.2.1, twf_tclear _ _ _ _ h.2.2.1, h.2.2.2⟩

/-- Clearing the slots of a bank keeps the form. -/
theorem memoryWf_clearBank (s : State) (b : Nat) (h : s.memoryWf = true) : (s.clearBank b).memoryWf = true := by
  rw [memoryWf_iff] at *
  refine ⟨h.1, twfFrom_filterMap memDflt _ ?_ s.mem none h.2.1, h.2.2⟩
  intro e r he hr
  dsimp only at hr
  split at hr
  · split at hr
    · cases hr
    · next hv => cases hr; exact ⟨rfl, hv⟩
  · cases hr; exact ⟨rfl, he⟩

/-- What a flash part came to hold instead keeps the form. -/
theorem memoryWf_flashFaults (l : List FlashAct) (fs : List (Nat × Byte)) :
    ∀ s : State, s.memoryWf = true → (s.flashFaults l fs).memoryWf = true := by
  induction fs with
  | nil => intro s h; exact h
  | cons e fs ih =>
    intro s h
    rw [State.flashFaults, List.foldl_cons]
    apply ih
    split
    · rw [memoryWf_iff] at *; exact ⟨h.1, h.2.1, twf_tset _ _ _ _ h.2.2.1, h.2.2.2⟩
    · exact h

/-- Keeping some registers keeps their form. -/
theorem twf_keepRegs (p : Nat → Bool) (t : Tbl Word) (h : twf RegMap.resetVal t = true) : twf RegMap.resetVal (keepRegs p t) = true :=
  twfFrom_filter _ _ t none h

end Sys2Proof.Laws
end

