-- ==== Sys2Proof/Tests/Slice0.lean ====
section
/-!
SUPPORT. Tests. Ill-formed operands are refused; and for every statement that has premises a state and operands that meet
them, each of its clauses at a boundary of its range (`premises_…`). Expected values come from the spec's own examples.
-/
namespace Sys2Proof.Tests

open Sys2Proof.Machine

set_option Elab.async false

/-! Ill-formed commands: one for each check of `Instr.wf`. -/

theorem test_refused_accesses :
    ¬ (Instr.registerWrite .pcie 6 0).WellFormed ∧ ¬ (Instr.wideLowWordRead .smb 0x2000000).WellFormed ∧
    ¬ (Instr.badAccess .bar0 4 0 true).WellFormed ∧ ¬ (Instr.atlasAccess 2 (.read none)).WellFormed ∧
    ¬ (Instr.bar4Write 0 []).WellFormed ∧ (Instr.registerWrite .pcie 4 0).WellFormed := by decide

theorem test_refused_events :
    ¬ (Instr.rawTrialFrame 0 0 [1]).WellFormed ∧ ¬ (Instr.laneFrame 0 [1]).WellFormed ∧
    ¬ (Instr.flitReceived 0 [] []).WellFormed ∧ ¬ (Instr.identityReply 1 true []).WellFormed ∧
    ¬ (Instr.identityReply 1 false [0]).WellFormed ∧ ¬ (Instr.rollCallRecord 1 0 (2 ^ 32) 0 0 0 0 0 0).WellFormed ∧
    ¬ (Instr.captureRead 0 0 [3, 3]).WellFormed ∧ ¬ (Instr.flashOpDone [(2 ^ 25, 0)]).WellFormed ∧
    ¬ (Instr.thermalRefresh []).WellFormed ∧ (Instr.laneFrame 0 []).WellFormed := by decide

theorem test_refused_bus :
    ¬ (Instr.modSclTimeout 0 (List.replicate 33 0)).WellFormed ∧
    ¬ (Instr.modTransactionDone 0 (List.replicate 33 0) false).WellFormed ∧ (Instr.modTransactionDone 32 [] true).WellFormed := by decide

theorem test_no_word_spells_a_command (nbits w : Nat) : decodeTableWord nbits w = none := rfl

/-! States of the tests -/

/-- The block with firmware running, the counters running, in a lifecycle state. -/
def at_ (life : Nat) : State :=
  State.setLife { State.reset with power := { boot := 6, firmware := true }, time := { held := false, started := true } } life

/-- A command of queue 0 at stage 1. -/
def cmd (op : Nat) (ws : List Word) (sub : Nat := 0) (cls : Cls := .brief) : Cmd :=
  { id := 7, seq := 1, op := op, sub := sub, queue := 0, cls := cls, stage := .fetched, digest := 0, notify := false, words := ws, sqHead := 0 }

/-- A state with one command in flight. -/
def with_ (s : State) (c : Cmd) : State := { s with hub := { s.hub with table := [(0, some c)], nextId := 8 } }

/-- `State.Starts` as a check. -/
def starts (s : State) (op : Nat) (lives : List Nat) (c : Cmd) : Bool :=
  decide (s.startable op 0 = some c) && s.lifeIn lives && !s.power.rom && c.internal.isNone && !c.reserved

theorem starts_means {s : State} {op : Nat} {lives : List Nat} {c : Cmd} (h : starts s op lives c = true) :
    s.Starts op 0 lives c := by
  simp only [starts, Bool.and_eq_true, decide_eq_true_eq, Bool.not_eq_true', Option.isNone_iff_eq_none] at h
  exact ⟨h.1.1.1.1, h.1.1.1.2, h.1.1.2, h.1.2, h.2⟩

/-! Steps, accesses (first group of statements) -/

/-- A running block at spool count `n`. -/
def atSpool (life n : Nat) : State := { at_ life with time := { spool := n, crossing := n / 32, held := false, started := true } }

theorem premises_step :
    step { State.reset with pending := [.ppsMissing] } = exec .ppsMissing State.reset := rfl

theorem premises_idle :
    (atSpool 2 30).pending = [] ∧ (atSpool 2 30).time.started = true ∧ (atSpool 2 30).time.held = false ∧
    (atSpool 2 30).time.relock = false ∧ (atSpool 2 30).time.spool % 32 < 31 ∧ State.reset.time.held = true ∧
    (atSpool 2 31).time.spool % 32 = 31 := by decide +kernel

theorem premises_settled : step { State.reset with pending := [] } = State.reset.idleTick := rfl

theorem premises_access :
    ((RegMap.find (Reg.HUB_SCRATCH 0)).map fun d => d.words) = some 0 ∧ RegMap.find 4 ≠ none ∧ RegMap.find 0x3C = none ∧ (at_ 2).up = true := by
  decide +kernel

theorem premises_access_clauses :
    ((RegMap.find Reg.CFM_INT_EN).map fun d => (d.words, d.back, rowWritable d)) = some (0, 0, true) ∧ Reg.CFM_INT_EN / 0x100000 = 14 ∧
    ((RegMap.find Reg.TIM_WALL_RATE_LO).map fun d => (d.words, d.back, rowWritable d)) = some (2, 0, true) ∧
    claimTarget Reg.TIM_WALL_RATE_LO = none ∧ ((RegMap.find (Reg.TIM_WALL_RATE_LO + 4)).map fun d => d.back) = some 4 := by
  decide +kernel

theorem premises_access_types :
    (8 : Nat).testBit 3 = true ∧ (8 : Nat).testBit 4 = false ∧
    (rowWrite ⟨0, [], 0, 1, 0, 0, 0, 0, 0⟩ 3 1).getLsbD 0 = false := by decide +kernel

theorem premises_bad_access :
    (at_ 2).up = true ∧ accessFits 2 4 = false ∧ accessFits 0 2 = false ∧ State.reset.up = false := by decide +kernel

/-! Time -/

theorem premises_lock :
    ({ State.reset with power := { boot := 3 } }).time.started = false ∧
    ({ at_ 2 with time := { started := true, held := true } }).time.held = true ∧ (at_ 2).power.boot ≠ 0 ∧
    (at_ 2).liveOrDraining = false ∧ (at_ 2).time.launch = none ∧ (at_ 2).time.align = none ∧
    19000 ≤ (19000 : BitVec 16).toNat ∧ (18999 : BitVec 16).toNat < 19000 ∧ 51000 < (51001 : BitVec 16).toNat := by decide +kernel

/-- An orbit of 4 crossings, at crossing 2 and at its last. -/
theorem premises_counter :
    (⟨2, 4, none, none⟩ : Counter).crossing + 1 < 4 ∧
    (⟨3, 4, some 5, none⟩ : Counter).next = ⟨0, 5, none, none⟩ ∧
    (⟨3, 4, none, some 1⟩ : Counter).next = ⟨3, 4, none, none⟩ ∧
    Nat.repeat Counter.next 3 (⟨0, 4, none, none⟩ : Counter) = ⟨3, 4, none, none⟩ := by decide +kernel

/-- An orbit of length 1 is at its end in every crossing. -/
theorem premises_orbit :
    let s := (at_ 2).setReg Reg.TIM_ORBIT_LEN 1
    s.time.started = true ∧ s.time.held = false ∧ s.time.boundaryDone = false ∧ s.fld F.TIM_ORBIT_LEN.len ≤ s.time.crossing + 1 ∧
    State.reset.time.held = true ∧ s.up = true ∧ (0x10001 : Word).toNat % 65536 ≠ 0 ∧ (0x10000 : Word).toNat % 65536 = 0 := by
  decide +kernel

/-- A block that takes ORBIT markers, in crossing `c`. -/
def marked (c : Nat) : State :=
  let s := (at_ 2).setFld F.TIM_CTRL.orbit_en 1
  { s with time := { s.time with crossing := c, spool := 32 * c } }

theorem premises_markers :
    (marked 0).orbitOn = true ∧ (marked 0).time.crossing = 0 ∧ (marked 1).time.crossing ≠ 0 ∧ (marked 1).orbitOn = true ∧
    (marked 0).time.offSeen = false ∧ (marked 0).time.lastMarker ≠ some (marked 0).xindex ∧ (marked 0).markerHigh = false ∧
    (marked 1).markerHigh = false ∧ (marked 0).time.align = none ∧ (marked 0).time.missed ≠ some (marked 0).xindex ∧
    (∃ k, ({ (marked 1).time with lastMarker := some 0 }).lastMarker = some k ∧ (k + 1) % 2 ^ 59 = (marked 1).xindex) := by
  refine ⟨?_, ?_, ?_, ?_, ?_, ?_, ?_, ?_, ?_, ?_, 0, ?_, ?_⟩ <;> decide +kernel

theorem premises_pps :
    let s := { at_ 2 with time := { (at_ 2).time with lastPps := some 5, wallSet := some 9, wallAcc := 2 ^ 64 - 1 } }
    let r := s.setWide Reg.TIM_WALL_RATE_LO 1
    (9 : Nat) ≠ 0 ∧ (9 : Nat) < 10 ∧ s.time.lastPps = some 5 ∧ 90000004 < 5 + 90000000 ∧ 5 + 90000000 ≤ 90000005 ∧
    r.time.started = true ∧ r.time.relock = false ∧ r.time.spool % 32 < 31 ∧
    2 ^ 64 ≤ r.time.wallAcc + r.wide Reg.TIM_WALL_RATE_LO ∧ r.up = true ∧ r.decision.lastRelease ≠ some r.xindex ∧
    ({ r with decision := { lastRelease := some 0 } }).decision.lastRelease = some r.xindex ∧ r.time.wallAcc < 2 ^ 64 ∧
    (at_ 2).time.wallSet = none ∧ ((at_ 2).raise F.TIM_CTRL.align_on_pps).bit F.TIM_CTRL.align_on_pps = true ∧
    (at_ 2).time.wallAcc + (at_ 2).wide Reg.TIM_WALL_RATE_LO < 2 ^ 64 ∧ State.reset.up = false := by decide +kernel

theorem premises_clears : (at_ 2).up = true ∧ (1 : BitVec 8).getLsbD 0 = true ∧ (1 : BitVec 8).getLsbD 7 = false := by decide +kernel

/-- A TIME_ALIGN to spool count 64 that was accepted at crossing index 0, at tick `t` of crossing `x`. -/
def aligning (x : Nat) (t : Nat := 0) : State :=
  { marked 1 with time := { (marked 1).time with spool := 32 * x + t, align := some ⟨64, 0, 0, 7, 7130⟩ } }

theorem premises_align :
    let c := cmd 0x38 [64, 0, 0]
    let s := with_ (marked 1) c
    starts s 0x38 [lifeSafe, lifeLoaded, lifeArmed] c = true ∧ c.w64 0 % 32 = 0 ∧ (s.begun 0 c).orbitOn = true ∧
    (s.begun 0 c).bit F.TIM_STATUS.launch_pending = false ∧ (s.begun 0 c).time.align = none ∧
    7130 < (aligning 7131).sinceAlign ⟨64, 0, 0, 7, 7130⟩ ∧ (aligning 7130 16).sinceAlign ⟨64, 0, 0, 7, 7130⟩ = 7130 ∧
    16 ≤ (aligning 7130 16).time.spool % 32 ∧ (aligning 7130 15).time.spool % 32 < 16 ∧
    (aligning 7129).sinceAlign ⟨64, 0, 0, 7, 7130⟩ < 7130 ∧ (aligning 0).alignOpen ⟨64, 0, 0, 7, 7130⟩ = false ∧
    (aligning 7130).counts = true ∧ (aligning 7130).orbitOn = true ∧ (aligning 7130).markerHigh = false ∧
    (aligning 7130).sinceAlign ⟨64, 0, 0, 7, 7130⟩ ≠ 0 ∧ (aligning 7130).sinceAlign ⟨64, 0, 0, 7, 7130⟩ ≤ 7130 ∧
    (aligning 7130).life ≠ lifeLive ∧ (aligning 7130).time.align = some ⟨64, 0, 0, 7, 7130⟩ := by decide +kernel

theorem premises_launch :
    let c := cmd 0x39 [64, 0]
    let s := with_ (at_ 4) c
    let r := { at_ 4 with time := { (at_ 4).time with launch := some (0, 7) } }
    starts s 0x39 [lifeArmed] c = true ∧ c.w64 0 % 32 = 0 ∧ (s.begun 0 c).time.spool + 64 ≤ c.w64 0 ∧
    (s.begun 0 c).bit F.TIM_STATUS.launch_pending = false ∧ r.launchDue = some (0, 7) ∧ (at_ 4).launchDue = none := by decide +kernel

theorem premises_governor :
    nbit (((at_ 2).setFld F.TIM_CTRL.gov_en 0x80).fld F.TIM_CTRL.gov_en) 7 = true ∧ (at_ 2).bit (F.TIM_GOV_STAT.avs_err 7) = false ∧ ((at_ 2).gov 7).writing = none ∧
    ((at_ 2).raise (F.TIM_GOV_STAT.avs_err 7)).bit (F.TIM_GOV_STAT.avs_err 7) = true ∧
    nbit (((at_ 2).setFld F.TIM_CTRL.gov_en 0).fld F.TIM_CTRL.gov_en) 7 = false ∧ (at_ 2).slacks 7 = [] := by decide +kernel

theorem premises_rails :
    let s := (at_ 2).setGov 0 { writing := some 750, committed := some 700, fails := 2, reading := true }
    let due := (at_ 2).setGov 0 { writing := some 750, due := some 760 }
    (due.gov 0).due = some 760 ∧ due.bit (F.TIM_GOV_STAT.avs_err 0) = false ∧ (s.gov 0).due = none ∧
    (s.gov 0).writing = some 750 ∧ 2 ≤ (s.gov 0).fails ∧ (s.gov 0).committed.isSome = true ∧ (s.gov 0).reading = true ∧
    (((at_ 2).setGov 0 { committed := some 700 }).gov 0).committed.isSome = true ∧
    (((at_ 2).setGov 0 { committed := some 700 }).gov 0).writing = none ∧
    (((at_ 2).setGov 0 { writing := some 750, fails := 1 }).gov 0).fails + 1 < 3 := by decide +kernel

/-! Lanes and the riddle -/

/-- A block whose lane 95 is in a receiver state. -/
def laneIn (st : Nat) (l : Lane) : State := ((at_ 2).setLane 95 l).setLaneState 95 st

theorem premises_lane_states :
    ((laneIn lsCdr {}).setReg Reg.TIM_MCLK_FREQ 25000).laneRateOk 95 = true ∧ (laneIn lsCdr {}).laneState 95 = lsCdr ∧
    (laneIn lsLocked {}).laneState 95 ≠ lsDown ∧
    (let s := laneIn lsBlockHunt { hdrCount := 63 }
     s.laneState 95 = lsBlockHunt ∧ s.rawMode 95 = false ∧ s.bit (F.INL_LANE_CFG.rx_invert 1 47) = false ∧ (s.lane 95).hdrCount = 63 ∧
     ((laneIn lsBlockHunt { hdrCount := 62 }).lane 95).hdrCount < 63) ∧
    (let s := laneIn lsFrameHunt { newest := some (2, 0xE5), cand := some (12, 7) }
     s.laneState 95 = lsFrameHunt ∧ (s.lane 95).newest = some (2, 0xE5) ∧ isHeaderBlock (2, 0xE5) = true ∧
     (s.lane 95).cand = some (12, 7)) := by decide +kernel

/-- A Raw-W trial frame of lane 95 with the marker of reset and the CRC of its words. -/
def trial (good : Bool) : List Word :=
  let b := (at_ 2).reg (Reg.INL_LANE_MARKER 1 47) :: List.replicate 22 0
  b ++ [if good then crc32c (wordBytes (List.replicate 22 0)) else crc32c (wordBytes (List.replicate 22 0)) + 1]

theorem premises_candidates :
    let one := laneIn lsCand { cands := [{ phase := 767, frames := 7, fails := 2 }] }
    let four := laneIn lsCand { cands := [{ phase := 1 }, { phase := 2 }, { phase := 3 }, { phase := 4 }] }
    one.laneState 95 = lsCand ∧ (∀ c ∈ (one.lane 95).cands, c.phase ≠ 0) ∧ (one.lane 95).cands.length < 4 ∧
    (∀ c ∈ (four.lane 95).cands, c.phase ≠ 0) ∧ 4 ≤ (four.lane 95).cands.length ∧
    (∃ c ∈ (one.lane 95).cands, c.phase = 767) ∧ ((laneIn lsCand { cands := [{ phase := 767, frames := 6 }] }).lane 95).cands = [{ phase := 767, frames := 6 }] ∧
    (one.lane 95).cands.find? (fun c => c.phase == 767) = some { phase := 767, frames := 7, fails := 2 } ∧
    one.rawMarker 95 (one.rawWords 95 (trial true)) = true ∧ rawCrcOk (one.rawWords 95 (trial true)) = true ∧
    rawCrcOk (one.rawWords 95 (trial false)) = false ∧ one.rawMarker 95 (one.rawWords 95 []) = false := by decide +kernel

/-! Frames, lane registers, channels -/

theorem premises_frames :
    let raw := (laneIn lsLocked {}).setFld (F.INL_LANE_CFG.mode 1 47) 1
    let six := laneIn lsLocked { blocks := List.replicate 12 (1, 0) }
    raw.laneState 95 = lsLocked ∧ raw.rawMode 95 = true ∧ six.rawMode 95 = false ∧ (six.lane 95).blocks.length = 12 ∧
    ((laneIn lsLocked {}).lane 95).blocks.length < 12 ∧ (laneIn lsCdr {}).laneState 95 ≠ lsLocked := by decide +kernel

/-- Frames of header value 1, in crossing 0 with depth and window 0: the value expected next; the value 9 is not in the window. -/
def seen (form crc : Bool) (x plen : Nat) : Seen := ⟨true, form, crc, 80, ⟨x, plen, 0, 0, [], [], 0⟩⟩

theorem premises_checks :
    let s := (laneIn lsLocked {}).setReg (Reg.INL_LANE_ALIGN 1 47) 0
    (seen false true 1 0).formOk = false ∧ (seen true false 1 0).crcOk = false ∧ (seen true true 1 81).capacity < (seen true true 1 81).data.plen ∧
    (seen true true 1 80).data.plen ≤ (seen true true 1 80).capacity ∧
    s.fileAt 95 9 = none ∧ s.fileAt 95 1 = some 1 ∧ s.slot 95 1 = .empty ∧ s.joined 95 (s.nominal 95) = true ∧
    (s.setSlot 95 1 (.good (seen true true 1 0).data)).slot 95 1 = .good (seen true true 1 0).data := by decide +kernel

theorem premises_lane_registers :
    (at_ 5).liveOrDraining = true ∧ (at_ 2).liveOrDraining = false ∧ 63 < (0x13F : Word).toNat % 64 + (0x13F : Word).toNat / 256 % 4 ∧
    (0x13E : Word).toNat % 64 + (0x13E : Word).toNat / 256 % 4 ≤ 63 ∧
    nbit ((at_ 5).reg (Reg.INL_LANE_CFG 1 47) ^^^ ((2 : Word) &&& 0x1FF)).toNat 1 = true ∧
    nbit ((at_ 5).reg (Reg.INL_LANE_CFG 1 47) ^^^ ((1 : Word) &&& 0x1FF)).toNat 1 = false ∧ (laneIn lsCdr {}).laneState 95 ≠ lsDown ∧
    (at_ 2).laneState 95 = lsDown ∧ nbit ((laneIn lsCdr {}).reg (Reg.INL_LANE_CFG 1 47) ^^^ ((3 : Word) &&& 0x1FF)).toNat 1 = true ∧
    (laneIn lsCdr {}).liveOrDraining = false := by
  decide +kernel

theorem premises_rounding : (0 : Nat) < 1 ∧ roundHalfEven 5 2 = 2 ∧ roundHalfEven (-5) 2 = -2 ∧ roundHalfEven 3 2 = 2 ∧
    limitTo 1 true 128 = (127, true) ∧ limitTo 1 true (-129) = (-128, true) := by decide +kernel

/-- A menu of tag 0 in bank 0, and an event of it that is presented at crossing index 0. -/
def menu0 : Menu :=
  { number := 0, tag := 0, set := 0, fold := 1, dlat := 60, maskPolicy := false, entry := 0, queue := 0, mask := 0, claimed := 10
    lanesIn := [], lanesOut := [], taps := [], dies := 1 }
def event0 : EventEntry := { index := 0, orbit := 0, crossing := 0, tag := 0, menu := 0, cut := 60, maskPolicy := false, mask := 0 }
def menus (s : State) : State := { s with image := { s.image with menus := [menu0], bank0 := some 0, weighted := [0], sets := [0], staged := true, dies := 1 } }

theorem premises_riddle :
    let s := { menus (at_ 5) with presented := some ⟨0, 0, {}, [], [], [], true⟩, events := [event0] }
    s.stalled = false ∧ ({ at_ lifeReplay with time := { held := true } }).stalled = true ∧
    (at_ 5).liveOrDraining = true ∧ (0x400 : Word).toNat % 1024 = 0 ∧ (0x3FF : Word).toNat % 1024 ≠ 0 ∧
    (0x10001 : Word).toNat / 65536 % 1024 ≠ 0 ∧ (0x7FF5FFFF : Word).toNat / 2 ^ 31 = 0 ∧ (0x7FD5FFFF : Word).toNat / 2 ^ 17 % 4 ≠ 3 ∧
    (0x7FD5FFFF : Word).toNat / 2 ^ 20 % 4 ≠ 3 ∧ (at_ 5).presented = none ∧ s.presented ≠ none ∧
    s.events.find? (fun e => e.index == 0) = some event0 ∧ s.image.menus.find? (fun m => some m.number == some event0.menu) = some menu0 := by
  decide +kernel

/-- A pending effect that is due now. -/
def due (k : EffectKind) (s : State) : State := { s with effects := [⟨0, 7, k⟩] }

theorem premises_scales :
    let c := cmd 0x30 [2, 0, 0x000017FF, 1]
    let s := with_ (at_ 3) c
    starts s 0x30 [lifeLoaded, lifeArmed, lifeLive, lifeDraining] c = true ∧ scalePairsOk (c.words.drop 2) = true ∧
    s.farEnough (c.w64 0) = true ∧ (∀ e ∈ scaleEntries (c.words.drop 2), e.1 < 6144 ∧ e.2.2.toNat % 1024 ≠ 0) ∧
    (at_ 3).boundaryWaits = false ∧ (at_ 3).presented = none ∧ (((due (.setScales []) (at_ 3)).takeDue isSetScales).map fun r => r.1) = some ⟨0, 7, .setScales []⟩ ∧
    (((due (.qstats 0 1 false 0) (at_ 3)).takeDue isQstats).map fun r => r.1) = some ⟨0, 7, .qstats 0 1 false 0⟩ := by decide +kernel

theorem premises_statistics :
    let c := cmd 0x31 [6143, 6144, 0, 0] 0 .chunked
    let s := with_ (at_ 3) c
    let u := (s.begun 0 c).startEngine c [⟨.buffer, .hostVirtual, 0, 0, c.w64 2, 16⟩]
    starts s 0x31 [lifeLoaded, lifeArmed, lifeLive, lifeDraining, lifeReplay] c = true ∧ c.only [0x1FFF, 0x11FFF] = true ∧
    c.w 1 % 8192 ≠ 0 ∧ c.w 1 % 8192 ≤ 6144 ∧ c.w 0 < 6144 ∧ min (c.w 1 % 8192) (6144 - c.w 0) = 1 ∧ hostRange (c.w64 2) 16 = true ∧
    (u.engineIn .running).find? (fun e => (u.engine e).cmd == c.id) = some 0 := by decide +kernel

/-! The trellis -/

/-- A data token and a control token of tag 0. -/
def dat : Token := ⟨0, 0, 0, 0, [], {}⟩
def ctl (code : Nat) : Token := ⟨1, 0, 0, code, [], {}⟩

/-- The block in LIVE with the state of one unit, and the bytes of its tray slot 0: valid, tag 0, primary input 0. -/
def unitIn (u : Nat) (v : TUnit) (bs : List Byte := [1]) : State := ((at_ 5).setUnit u v).memWrite (slotAddr 0 (at_ 5 |>.site u) 0) bs

/-- A token on its way to input 1 of unit 0, from die 1. -/
def flying (s : State) (t : Token) (fails : Nat := 0) : State :=
  { s with trellis := { s.trellis with flight := [{ dest := .unit 0 1, tok := t, origin := some 1, fails := fails }] } }

theorem premises_tokens :
    let s := flying (unitIn 0 { queues := [(1, List.replicate 7 dat)] }) dat
    let full := flying (unitIn 0 { queues := [(1, List.replicate 8 dat)] }) dat
    let paused : State := { s with spares := { pauses := [(0, some ⟨0, 0, 0, []⟩)] } }
    let opened := unitIn 0 { opened := [(1, {})] }
    s.stalled = false ∧ ((s.takeFlight (.unit 0 1)).map fun r => r.1.tok) = some dat ∧ s.waitsAt 0 { dest := .unit 0 1, tok := dat } = false ∧
    ((s.unit 0).queue 1).length < 8 ∧ 8 ≤ ((full.unit 0).queue 1).length ∧ paused.waitsAt 0 { dest := .unit 0 1, tok := dat } = true ∧
    (((flying s (ctl 4)).takeFlight (.unit 0 1)).map fun r => r.1.tok.isCtl 4) = some true ∧ (at_ 5).takeFlight (.unit 0 1) = none ∧
    s.traced = false ∧ dat.operand = true ∧ dat.defined = true ∧ (s.unit 0).discard = false ∧ s.primaryFor 0 0 0 1 ≠ 1 ∧
    (opened.unit 0).opened.contains (1, dat.ev) = true ∧ (s.unit 0).opened.contains (1, dat.ev) = false ∧
    s.primaryFor 0 0 0 0 = 0 ∧ s.startedOn 0 0 = false := by decide +kernel

theorem premises_bridges :
    let s := flying (unitIn 0 { inEvent := true }) dat 2
    s.trellis.flight.findIdx? (fun f => f.dest == .unit 0 1) = some 0 ∧
    (s.trellis.flight.getD 0 { dest := .unit 0 1, tok := dat }).fails = 2 ∧ (s.unit 0).inEvent = true ∧ (s.unit 0).ev = dat.ev ∧
    (s.trellis.flight.getD 0 { dest := .unit 0 1, tok := dat }).crosses 0 = true ∧
    ({ dest := .unit 0 1, tok := dat, path := some [2, 1] } : Flight).crosses 1 = true ∧
    ((flying s dat 1).trellis.flight.getD 0 { dest := .unit 0 1, tok := dat }).fails < 2 := by decide +kernel

theorem premises_events :
    let start_ := unitIn 0 { queues := [(0, [ctl 0])] }
    let again := unitIn 0 { queues := [(0, [ctl 0])], slot := some 0, inEvent := true }
    let ended := unitIn 0 { queues := [(0, [ctl 1])], slot := some 0, inEvent := true }
    let busy := unitIn 0 { queues := [(0, [ctl 1])], slot := some 0, inEvent := true, wraps := [0] }
    let open_ := unitIn 0 { queues := [(0, [ctl 1])], slot := some 0, inEvent := true, opened := [(1, {})] }
    let leave (s : State) : State := (s.followToken 0 (ctl 1) 0).consume 0 0
    let begin_ (s : State) : State := State.quarantineEvent (State.select ((s.setUnit 0 { s.unit 0 with inEvent := true }).consume 0 0) 0 0 0 5) 0
    start_.headOf 0 (fun t => t.isCtl 0) = some (0, ctl 0) ∧ (start_.unit 0).inEvent = false ∧ (start_.unit 0).side = [] ∧
    ((begin_ start_).unit 0).discard = false ∧
    ((begin_ (unitIn 0 { queues := [(0, [ctl 0])] } [0])).unit 0).discard = true ∧
    again.headOf 0 (fun t => t.isCtl 0) = some (0, ctl 0) ∧ (again.unit 0).inEvent = true ∧ again.primaryNow 0 = some 0 ∧
    ended.headOf 0 (fun t => t.isCtl 1) = some (0, ctl 1) ∧ ended.unitQuiet 0 = true ∧ ended.sidesDone 0 = true ∧ open_.sidesDone 0 = false ∧
    ((ended.followToken 0 (ctl 1) 0).unit 0).discard = false ∧ ((leave ended).unit 0).subst = false ∧ (leave ended).nonZero 0 = none ∧
    busy.unitQuiet 0 = false ∧
    (unitIn 0 { queues := [(0, [ctl 1])] }).headOf 0 (fun t => t.isCtl 1) = some (0, ctl 1) := by decide +kernel

/-- A counter that stands above 0 at EVENT_END is the fault. -/
theorem premises_event_end_counter :
    let s := unitIn 0 { queues := [(0, [ctl 1])], slot := some 0, want := (0, 0), inEvent := true, cnt := [1, 0, 0, 0] }
      (1 :: (List.replicate 31 0 ++ [1, 0, 9, 0]))
    let s1 := (s.followToken 0 (ctl 1) 0).consume 0 0
    s.headOf 0 (fun t => t.isCtl 1) = some (0, ctl 1) ∧ s.unitQuiet 0 = true ∧ (s1.unit 0).subst = false ∧ s1.nonZero 0 = some (0, 0) := by
  decide +kernel

/-- A slot whose counter 0 counts data firings to 0 and gives a wrap token: a fold leader. -/
def leader : List Byte := 1 :: (List.replicate 33 0 ++ [1, 1])

theorem premises_contexts :
    let s := unitIn 0 { queues := [(0, [ctl 2])], slot := some 0, inEvent := true }
    let l := unitIn 0 { queues := [(0, [ctl 2])], slot := some 0, inEvent := true } leader
    let after (s : State) : State := (s.followToken 0 (ctl 2) 0).consume 0 0
    s.headOf 0 (fun t => t.isCtl 2 || t.standIn) = some (0, ctl 2) ∧ (ctl 2).standIn = false ∧ s.primaryNow 0 = some 0 ∧ s.unitQuiet 0 = true ∧
    ((s.followToken 0 (ctl 2) 0).unit 0).slot = some 0 ∧ isLeader ((after s).slotBytes 0 0) = false ∧
    isLeader ((after l).slotBytes 0 0) = true ∧ l.headOf 0 (fun t => t.isCtl 2 || t.standIn) = some (0, ctl 2) ∧ l.unitQuiet 0 = true ∧
    l.primaryNow 0 = some 0 ∧ ((l.followToken 0 (ctl 2) 0).unit 0).slot = some 0 := by decide +kernel

/-- A counter with limit 2 that counts data, and one chained to it. -/
theorem premises_counters :
    let c : Ctr := ⟨2, 1, false, 0, 0, 0⟩
    let d : Ctr := ⟨2, 2, false, 0, 0, 0⟩
    c.source = 1 ∧ 1 < c.limit ∧ c.limit ≤ 2 ∧ d.source ≠ 1 ∧ (0 + 1 < [c, d].length) ∧ (2 : Nat) ≠ 1 ∧ [c, d][1]? = some d ∧ d.source = 2 ∧
    advance [c, d] 1 [1, 0] = ([2, 0], []) ∧ advance [c, d] 1 [2, 0] = ([0, 1], [0]) := by decide +kernel

theorem premises_firing :
    let s := unitIn 0 { queues := [(0, [dat])], slot := some 0, want := (0, 0), inEvent := true }
    let e := unitIn 0 { queues := [(0, [ctl 3])], slot := some 0, want := (0, 0), inEvent := true }
    let idle := unitIn 0 { slot := some 0, inEvent := true }
    let sub := unitIn 0 { queues := [(0, [dat])], slot := some 0, want := (0, 0), inEvent := true, subst := true }
    isMu 2 = true ∧ isMu 0 = false ∧ idle.headOf 0 Token.operand = none ∧ (idle.unit 0).wraps = [] ∧ (idle.unit 0).inEvent = true ∧
    s.headOf 0 Token.operand = some (0, dat) ∧ ((s.followToken 0 dat 1).unit 0).slot = some 0 ∧
    (((s.followToken 0 dat 1).operands 0 0 0).map fun o => (o.a, o.b, o.error)) = some ([dat], none, none) ∧
    ((s.followToken 0 dat 1).unit 0).subst = false ∧
    ((sub.followToken 0 dat 1).unit 0).subst = true ∧ e.headOf 0 Token.operand = some (0, ctl 3) ∧
    (((e.followToken 0 (ctl 3) 1).operands 0 0 0).map fun o => (o.a, o.b, o.error)) = some ([ctl 3], none, some (ctl 3)) := by decide +kernel

/-- A memory-unit slot whose generator 0 writes one row a token of input 0 into rows `lo` to 4095, from row 0. -/
def writer (lo : Byte) : List Byte :=
  [1, 1] ++ List.replicate 32 0 ++ [1] ++ List.replicate 29 0 ++ [0, 0x10, 0, 0, lo, 0, 0xFF, 0x0F]

theorem premises_wraps :
    let s := unitIn 0 { slot := some 0, wraps := [0], inEvent := true }
    let m := unitIn 2 { slot := some 0, gens := [(0, { wraps := [0] })] } (writer 0)
    (s.unit 0).wraps = [0] ∧ ((s.wrapCu 0 0 0 none).map fun t => t.fits (readRoutes (s.slotBytes 0 0))) = some true ∧
    [0, 1].find? (fun g => !((m.unit 2).gen g).wraps.isEmpty) = some 0 ∧
    (m.wrapMu 2 0).fits (readRoutes (m.slotBytes 2 ((m.unit 2).gen 0).slot)) = true := by decide +kernel

theorem premises_generators :
    let s := unitIn 2 { slot := some 0, inEvent := true, gens := [(0, { trig := [(0, 0)] })] } (writer 0)
    let r := unitIn 2 { slot := some 0, inEvent := true, queues := [(0, [dat])], gens := [(0, { active := true })] } (writer 0)
    let o := unitIn 2 { slot := some 0, inEvent := true, queues := [(0, [dat])], gens := [(0, { active := true })] } (writer 1)
    let a := readGen (r.slotBytes 2 0) 0
    ((s.unit 2).gen 0).trig = [(0, 0)] ∧ ((s.unit 2).gen 0).active = false ∧ ((s.unit 2).gen 0).wraps = [] ∧ (s.unit 2).slot = some 0 ∧
    (s.unit 2).inEvent = true ∧ (s.unit 2).discard = false ∧ s.headOf 2 Token.operand = none ∧ ((r.unit 2).gen 0).wraps = [] ∧ (r.unit 2).subst = false ∧
    unordered (readGen (s.slotBytes 2 0) 0) (readGen (s.slotBytes 2 0) 1) = false ∧
    ((r.unit 2).gen 0).active = true ∧ ((r.unit 2).gen 0).held = false ∧ a.write = true ∧
    (a.ctrs.getD 0 ⟨0, 0, false, 0, 0, 0⟩).source ≠ 4 ∧ ((r.unit 2).tokens a.sel).head? = some dat ∧ dat.isData = true ∧
    (a.lo : Int) = a.row [0, 0, 0, 0] ∧ a.row [0, 0, 0, 0] ≤ (a.hi : Int) ∧
    (readGen (o.slotBytes 2 0) 0).row [0, 0, 0, 0] < ((readGen (o.slotBytes 2 0) 0).lo : Int) ∧ (o.unit 2).faulted = false := by decide +kernel

/-- A unit whose input 0 is full, with EVENT_START at its head, and whose route 0 leads to the full input 0 of unit 1. -/
def stalled : State :=
  let bs : List Byte := 1 :: List.replicate 127 0 ++ [1, 0xC0]
  (unitIn 0 { queues := [(0, ctl 0 :: List.replicate 7 dat)] } bs).setUnit 1 { queues := [(0, List.replicate 8 dat)] }

theorem premises_spills :
    let long := { stalled with time := { stalled.time with spool := 32 }, trellis := { stalled.trellis with moved := [(0, some 0)] } }
    long.stillFor 0 (max 32 (long.fld (F.TRL_STALL_CFG.stall_ticks 0))) = decide (long.fld (F.TRL_STALL_CFG.stall_ticks 0) ≤ 32) ∧
    stalled.stillFor 0 (max 32 (stalled.fld (F.TRL_STALL_CFG.stall_ticks 0))) = false ∧ long.victim 0 = some (0, 0) ∧
    stalled.victim 0 = some (0, 0) ∧ stalled.traced = false ∧ ((stalled.unit 0).queue 0).length ≤ (stalled.spillFree 0).length ∧
    (let full := stalled.setUnit 0 { stalled.unit 0 with spilled := [(1, (List.range 120).map fun j => (j, dat))] }
     (full.spillFree 0).length < ((full.unit 0).queue 0).length) ∧
    stalled.up = true ∧ (1 : Word).toNat % 2 = 1 := by decide +kernel

/-- A unit that waits for its operand, whose slot has the bound 100; with the margin of 20 % a wait of 121 is past it. -/
def waiting (life margin : Nat) (bound : Byte := 100) : State :=
  let s := ((unitIn 0 { slot := some 0, inEvent := true } [1, 0, 0, 0, bound, 0]).setFld (F.TRL_SCHED_CFG.margin_pct 0) margin).setFld
    (F.TRL_SCHED_CFG.sched_en 0) 1
  (s.setLife life).setFld F.TIM_MCLK_FREQ.khz 0

theorem premises_wait_timers :
    let shown (s : State) (x : Nat) : State := s.setFld (F.TRL_SITE_WAITMAX.max 0 0) (max (s.fld (F.TRL_SITE_WAITMAX.max 0 0)) (min x 0xFFFF))
    let s := waiting 5 20
    let s1 := shown s 121
    let r := shown (waiting lifeReplay 20) 121
    (s.unit 0).slot = some 0 ∧ s.site 0 = 0 ∧ s.timerRuns 0 = true ∧ s.timerCan 0 121 = true ∧ (s1.slotHeader 0 0).bound = 100 ∧
    100 * (100 + s1.fld (F.TRL_SCHED_CFG.margin_pct 0)) < 121 * 100 ∧ ¬ 100 * (100 + s1.fld (F.TRL_SCHED_CFG.margin_pct 0)) < 120 * 100 ∧
    s1.replayDie 0 = false ∧ s1.liveOrDraining = true ∧ s1.bit (F.TRL_SCHED_CFG.sched_en 0) = true ∧ r.replayDie 0 = true ∧
    (r.slotHeader 0 0).bound = 100 ∧ (waiting lifeReplay 20).timerRuns 0 = true ∧ (shown (waiting 4 20) 121).liveOrDraining = false ∧
    (unitIn 0 { slot := some 0 }).timerRuns 0 = false ∧ (s.setFld F.TIM_MCLK_FREQ.khz 40000).timerCan 0 1 = false ∧
    ((shown (waiting 5 20 0) 121).slotHeader 0 0).bound = 0 := by decide +kernel

/-! Images and menus -/

/-- An engine that has moved everything for command 7. -/
def movedAll (s : State) : State := s.setEngine 0 { mode := .running, cmd := 7 }

theorem premises_images :
    let c := cmd 0x08 [0, 0, 0x1000] 0 .chunked
    let s := with_ (at_ 2) c
    let m := movedAll { at_ 2 with image := { load := some ⟨7, none, 64, [], false⟩, fallow := some ⟨7, 0⟩, fill := some ⟨7, 0, 0⟩ } }
    starts s 0x08 [lifeSafe, lifeLoaded, lifeFault] c = true ∧ hostRange (c.w64 0) (c.w 2) = true ∧ c.w 2 ≤ stagingSize ∧
    (s.begun 0 c).image.load = none ∧ (s.begun 0 c).life ≠ lifeFault ∧ (s.begun 0 c).engineIn .idle ≠ [] ∧
    ((s.begun 0 c).cancelFill.cancelFallow.life == lifeFault) = false ∧
    m.image.load = some ⟨7, none, 64, [], false⟩ ∧ m.moved 7 = true ∧ m.image.fill = some ⟨7, 0, 0⟩ ∧ m.image.fallow = some ⟨7, 0⟩ := by decide +kernel

/-- The image is staged and bank 0 is empty. -/
def empty (s : State) : State := let s := menus s; { s with image := { s.image with bank0 := none } }

theorem premises_fills :
    let c := cmd 0x09 [1]
    let s := with_ (empty (at_ 3)) c
    starts s 0x09 [lifeLoaded, lifeArmed, lifeLive, lifeDraining] c = true ∧ c.only [0x701] = true ∧
    (s.begun 0 c).image.sets.contains (bits (c.w 0) 8 3) = true ∧ (s.begun 0 c).tagClash 1 0 = false ∧ (s.begun 0 c).image.fill = none ∧
    (s.begun 0 c).bankInUse 1 = false ∧ (s.begun 0 c).stagingClosed = false := by decide +kernel

/-- A staged image with one weight block: one row of unit 2 for menu 0. -/
def blocks (life : Nat) : State :=
  let s := empty (at_ life)
  { s with image := { s.image with sections := [⟨3, true, 1, 0, 144⟩] } }.memWrite (cold 0) [2, 0, 0, 0, 1, 0, 0]

theorem premises_fallow :
    let c := cmd 0x0B [0] 0 .chunked
    let s := with_ (blocks 3) c
    let b := s.begun 0 c
    let s1 := b.startEngine c (b.fallowDescs 0)
    starts s 0x0B [lifeLoaded, lifeArmed, lifeLive, lifeDraining] c = true ∧ c.only [0xF] = true ∧
    b.image.menus.any (fun m => m.number == 0) = true ∧ b.image.fallow = none ∧ b.stagingClosed = false ∧
    (b.stagedBlocks.filter (fun x => x.owner == 0)).all (b.blockFallow b.stagedBlocks) = true ∧ b.fallowDescs 0 ≠ [] ∧
    (s1.engineIn .running).any (fun e => (s1.engine e).cmd == c.id) = true ∧
    ((with_ (menus (at_ 3)) c).begun 0 c).fallowDescs 0 = [] := by decide +kernel

/-- Tag 1 beside tag 0 in bank 0. -/
def twoMenus (life : Nat) : State :=
  let s := menus (at_ life)
  { s with image := { s.image with menus := [menu0, { menu0 with number := 1, tag := 1 }], weighted := [0, 1] } }

theorem premises_menus :
    let c := cmd 0x0A [1, 2, 0]
    let d := cmd 0x0A [0, 2, 0]
    let b (life : Nat) (c : Cmd) := (with_ (twoMenus life) c).begun 0 c
    starts (with_ (twoMenus 5) c) 0x0A [lifeLoaded, lifeArmed, lifeLive] c = true ∧ c.only [7] = true ∧
    ((b 5 c).residentAt 1).isSome = true ∧ ((b 5 c).residentAt 1).all (fun m => !(b 5 c).menuUnfit m) = true ∧
    (b 5 c).fld F.HUB_MENU_CUR.cur_tag = 0 ∧ (b 5 c).switchPending = false ∧ (b 5 c).farEnough (c.w64 1) = true ∧
    starts (with_ (twoMenus 3) c) 0x0A [lifeLoaded, lifeArmed, lifeLive] c = true ∧ ((b 3 c).residentAt 1).isSome = true ∧
    ((b 3 d).residentAt 0).isSome = true ∧ starts (with_ (twoMenus 3) d) 0x0A [lifeLoaded, lifeArmed, lifeLive] d = true ∧
    (((due (.selectMenu 1) (twoMenus 5)).takeDue isSelectMenu).map fun r =>
      (r.1.kind, r.2.effects.any (fun d => isDrain d.kind && r.2.due d))) = some (.selectMenu 1, false) ∧
    (let s : State := { twoMenus 5 with effects := [⟨0, 7, .selectMenu 1⟩, ⟨0, 8, .drain true⟩] }
     (s.takeDue isSelectMenu).map fun r => r.2.effects.any (fun d => isDrain d.kind && r.2.due d)) = some true ∧
    (twoMenus 5).takeDue isSelectMenu = none := by decide +kernel

/-! Decisions and the wired lines -/

theorem premises_late :
    policyApplies 1 = true ∧ policyApplies 0 = false ∧ (∃ d ∈ [(0, (none : Option (BitVec 64)))], d.2 = none) ∧ (0 : Nat) < 2 ^ 58 := by
  refine ⟨by decide +kernel, by decide +kernel, ⟨_, List.mem_singleton.mpr rfl, rfl⟩, by decide⟩

theorem premises_results :
    let s := { at_ 5 with trellis := { flight := [{ dest := .decision 1, tok := ctl 0 }, { dest := .decision 1, tok := ctl 1 }] } }
    let p := { at_ 5 with trellis := { pieces := [⟨{}, 0, 0, [], false⟩] }, events := [event0] }
    ((s.trellis.flight.filter (fun f => f.dest == .decision 1)).map (fun f => f.tok)).findIdx? (fun t => t.isCtl 1) = some 1 ∧
    ([ctl 0] : List Token).findIdx? (fun t => t.isCtl 1) = none ∧ s.stalled = false ∧ ({ at_ lifeReplay with time := { held := true } }).stalled = true ∧ ({} : EvRef).shadow = false ∧
    State.reset.time.started = false ∧ p.trellis.pieces = [⟨{}, 0, 0, [], false⟩] ∧ p.events.find? (fun e => e.index == 0) = some event0 ∧
    State.reset.time.held = true ∧ ({ at_ 5 with decision := { lastRelease := some 0 } }).decision.lastRelease = some (at_ 5).xindex ∧
    (at_ 5).time.held = false ∧ (at_ 5).time.started = true ∧ (at_ 5).decision.lastRelease ≠ some (at_ 5).xindex := by decide +kernel

theorem premises_veto :
    true ≠ (at_ 5).decision.vetoLow ∧ false = (at_ 5).decision.vetoLow ∧ (3 : Nat) < 4 ∧ 4 ≤ (4 : Nat) ∧
    ({ at_ 5 with decision := { vetoLow := true } }).decision.warned = false ∧
    ({ at_ 5 with decision := { vetoLow := true, warned := true } }).decision.warned = true := by decide +kernel

/-- A package at the barrier, at tick `t` of crossing index `x` after a rise in crossing 0. -/
def barrier (st x : Nat) (driven : Bool) (t : Nat := 0) : State :=
  let s := ((((at_ 4).setFld F.DEC_SYNC_CFG.mode 2).setFld F.DEC_SYNC_STAT.state st).raise F.TIM_STATUS.pll_lock)
  { s with decision := { s.decision with syncDriven := driven, stuckDue := t = 5 }, time := { s.time with spool := 32 * x + t } }

theorem premises_barrier :
    (barrier syHolding 0 true).syncReady = true ∧ (barrier syHolding 0 true).sync = syHolding ∧ (barrier syHolding 0 true).atTick0 = true ∧
    (barrier syHolding 0 true 31).atTick0 = true ∧ (barrier syHolding 0 true 30).atTick0 = false ∧
    (barrier syWaiting 0 false).syncMode = 2 ∧ (barrier syWaiting 0 false).sync = syWaiting ∧
    (barrier syWaiting 0 false).decision.syncDriven = false ∧ (barrier syRisen 1 false).xindex = (barrier syRisen 1 false).decision.riseXing + 1 ∧
    (barrier syRisen 1 false).sync = syRisen ∧ (barrier syConfirmed 2 false).sync = syConfirmed ∧
    (barrier syConfirmed 2 false).xindex = (barrier syConfirmed 2 false).decision.riseXing + 2 ∧
    (barrier syWaiting 0 true).syncN = false ∧ (barrier syWaiting 0 true 5).decision.stuckDue = true ∧ (barrier syWaiting 0 true 5).sync = syWaiting ∧
    (barrier syConfirmed 3 false).syncDue = true ∧ (barrier syConfirmed 2 false).syncDue = false ∧ (at_ 4).up = true := by decide +kernel

/-! Ports, messages, the survey -/

/-- Port 5 in a state. -/
def portIn (st : Nat) (v : Port := {}) : State := ((at_ 2).setPort 5 v).setFld (F.TTH_PORT_STATE.state 5) st

theorem premises_ports :
    (portIn psTrain).portState 5 = psTrain ∧ (portIn psAlign).portState 5 = psAlign ∧ (portIn psParam).portState 5 = psParam ∧
    ((portIn psParam).port 5).mode = 0 ∧ (1 : Nat) ≠ ((portIn psParam).port 5).mode ∧ (portIn psMeasure).portState 5 = psMeasure := by
  decide +kernel

theorem premises_flits :
    let s := portIn psUp { unacked := [(0, { kind := 2 })], accepted := 1, timerReplays := 7 }
    let w := ((at_ 2).setFld (F.TTH_PORT_STATE.state 5) psUp).setReg (Reg.TTH_PORT_CFG 5) ((1 : Word) &&& 0x0FFFF1F3)
    s.portUp 5 = true ∧ (s.port 5).accepted ≠ 0 ∧ (s.port 5).unacked ≠ [] ∧ (s.port 5).timerReplays < 8 ∧
    8 ≤ ((portIn psUp { unacked := [(0, { kind := 2 })], timerReplays := 8 }).port 5).timerReplays ∧
    (portIn psAlign).portState 5 = psAlign ∧ (portIn psTrain).portState 5 = psTrain ∧ ((portIn psUp).port 5).unacked = [] ∧ (portIn psDown).portUp 5 = false ∧
    s.up = true ∧ w.bit (F.TTH_PORT_CFG.en 5) = true ∧ w.portState 5 ≠ psDown ∧
    ((at_ 2).setReg (Reg.TTH_PORT_CFG 5) 0).bit (F.TTH_PORT_CFG.en 5) = false ∧
    ((at_ 2).setReg (Reg.TTH_PORT_CFG 5) 1).portState 5 = psDown := by decide +kernel

theorem premises_sequence :
    crc32c (([] : List Byte).take 60) ≠ BitVec.ofNat 32 (leNat (([1] : List Byte).drop 0)) ∧
    (let v : Port := { expect := 256 }
     (0 + 4096 - v.expect) % 4096 ≠ 0 ∧ (v.expect + 4096 - 0) % 4096 = 256 ∧ 256 < (v.expect + 4096 - 257) % 4096 ∧
     (511 + 4096 - v.expect) % 4096 = 255 ∧ (512 + 4096 - v.expect) % 4096 = 256 ∧ 256 < (v.expect + 4096 - 512) % 4096 ∧ (256 + 4096 - v.expect) % 4096 = 0) := by decide +kernel

theorem premises_routes :
    (∀ k, k < 3 → coord k 5 = coord k 5) ∧ (coord 0 1 = coord 0 2 ∧ coord 1 1 = coord 1 2 ∧ coord 2 1 ≠ coord 2 2) := by decide +kernel

/-- A message waits here, in a block whose window 0 holds the cold frame's first 256 bytes. -/
def mail (life : Nat) (bs : List Byte) : State :=
  let s := ((at_ life).setReg (Reg.TTH_WIN_BASE 0) (BitVec.ofNat 32 (cold 0 / 256))).setReg (Reg.TTH_WIN_SIZE 0) 1
  { s.setFld F.PWR_DOM_STAT.on 0xFFFFFF with links := { s.links with inbox := [{ port := 0, tc := 2, bytes := bs }], reads := [⟨3, 9⟩] } }

theorem premises_messages :
    let w := mail 2 (msgHead 1 0 0 9 0 (cold 252) 4 ++ [1, 2, 3, 4])
    let out := mail 2 (msgHead 1 0 0 9 0 (cold 254) 4 ++ [1, 2, 3, 4])
    let resp := mail 2 (msgHead 3 0 0 9 3 0 4 ++ [1, 2, 3, 4])
    let e := (mail 2 (msgHead 3 0 0 9 3 0 4 ++ [1, 2, 3, 4])).setEngine 0
      { mode := .running, waitTag := some 3, descs := [⟨.remote, .atlas, 9, 0, 0, 4⟩] }
    ((w.takeMessage (w.isHere 1)).map fun r => (r.1.bytes.length, r.2.remoteCode (cold 252) 4 false, (r.2.writeWords (cold 252) [0]).1)) =
      some (20, 0, false) ∧
    ((out.takeMessage (out.isHere 1)).map fun r => r.2.remoteCode (msgAddr r.1.bytes) (msgLen r.1.bytes) false) = some 1 ∧
    (((mail 2 (msgHead 2 0 0 9 0 (cold 0) 4)).takeMessage ((mail 2 (msgHead 2 0 0 9 0 (cold 0) 4)).isHere 2)).map fun r =>
      r.2.remoteCode (cold 0) 4 false) = some 0 ∧
    ((resp.takeMessage (resp.isHere 3)).map fun r => (r.1.port, msgStatus r.1.bytes, r.2.links.reads.any (fun x => x.tag == 3 && x.far == 9))) =
      some (0, 0, true) ∧
    (e.endRead 3).reader 3 = some 0 ∧ ({ resp with links := { resp.links with reads := [] } }).links.reads.any (fun r => r.tag == 3) = false ∧
    ((mail 2 (msgHead 4 1 0 9 0 0 4)).takeMessage ((mail 2 (msgHead 4 1 0 9 0 0 4)).isHere 4)).isSome = true ∧
    ((mail 2 (msgHead 1 0 5 9 0 0 0)).links.inbox.find? (fun m => msgDst m.bytes != (mail 2 (msgHead 1 0 5 9 0 0 0)).self)).isSome = true ∧
    (mail 2 []).life = lifeSafe ∧ (mail 3 []).life = lifeLoaded ∧ (mail 4 []).life ≠ lifeSafe ∧ (mail 4 []).life ≠ lifeLoaded := by decide +kernel

/-- A survey in a phase, in a torus of two packages. -/
def survey_ (phase : Nat) (v : Survey := {}) : State :=
  { (at_ 2).setReg Reg.COL_TORUS 1 with survey := { v with phase := phase } }

theorem premises_survey :
    let c := cmd 0x18 []
    starts (with_ (at_ 2) c) 0x18 [lifeSafe, lifeLoaded, lifeArmed, lifeLive, lifeDraining, lifeReplay] c = true ∧
    ((with_ (at_ 2) c).begun 0 c).survey.cmds = [] ∧
    (survey_ 0 { holdoff := true }).survey.holdoff = true ∧ (survey_ 0).life ≠ lifeBoot ∧ (survey_ 0).life ≠ lifeFault ∧
    (survey_ 1).survey.phase = 1 ∧ (survey_ 2).asked.contains 1 = false ∧ (survey_ 2).asked = [64] ∧ (survey_ 2).asked.contains 64 = true ∧
    ((survey_ 3 { replies := [(64, some [0, 0, 0, 0, 0, 7])] }).walkReply 64).isSome = true ∧
    (survey_ 3 { replies := [(64, some [0, 0, 0, 0, 0, 7])], confirms := [(64, some 7)], changes := (survey_ 3).portChanges }).unstable = false ∧
    (survey_ 3 { replies := [(64, some [0, 0, 0, 0, 0, 7])], confirms := [(64, some 8)], changes := (survey_ 3).portChanges }).unstable = true ∧
    8 ≤ (((survey_ 3).setFld F.COL_SURVEY_STAT.unstable_run 7).satInc F.COL_SURVEY_STAT.unstable_run).fld F.COL_SURVEY_STAT.unstable_run ∧
    (((survey_ 3).setFld F.COL_SURVEY_STAT.unstable_run 6).satInc F.COL_SURVEY_STAT.unstable_run).fld F.COL_SURVEY_STAT.unstable_run < 8 ∧
    (survey_ 3).surveyCancelled = false := by decide +kernel

/-! Groups and collectives -/

/-- Group 3 of the packages 0 and 64, both published as reachable, in a state. -/
def grouped (life st : Nat) : State :=
  let s := (((at_ life).setBitmap 3 ([1, 0, 0, 0, 0, 0, 0, 0, 1] ++ List.replicate 55 0)).setFld (brState 3) st).setFld (brCount 3) 2
  (s.setFld (F.COL_TOPO.word 0 0) 3).setFld (F.COL_TOPO.word 64 0) 3

/-- The group in a roll call that package 64 calls (this package is 0), or this package. -/
def called (far : Bool) : State :=
  if far then (grouped 2 grForming).setBitmap 3 (List.replicate 8 0 ++ [3] ++ List.replicate 55 0) else grouped 2 grForming

theorem premises_groups :
    let c := cmd 0x19 [3, 1, 0]
    let b := (with_ (grouped 3 grRetired) c).begun 0 c
    let r := cmd 0x1B [3]
    let e := (with_ (grouped 3 grReady) r).begun 0 r
    starts (with_ (grouped 3 grRetired) c) 0x19 [lifeLoaded, lifeArmed, lifeLive, lifeReplay] c = true ∧ c.only [0x3F, 0xFFFF, 0] = true ∧
    c.w 1 ≠ 0 ∧ b.fld (brState 3) = grRetired ∧ b.isMember 3 = true ∧ ((b.takeVc 3).map fun r => r.1) = some 0 ∧
    (b.members 3).find? (fun m => b.topoWord m % 4 != 3) = none ∧ (at_ 2).up = true ∧
    (called false).callerOf 3 = (called false).self ∧ (called false).calling 3 = true ∧ ((called false).group 3).sentOutcome = false ∧
    ((called false).party 3).find? (fun m => ((called false).recordOf 3 m).isNone) = some 0 ∧
    (called true).callerOf 3 ≠ (called true).self ∧ (called true).calling 3 = true ∧
    starts (with_ (grouped 3 grReady) r) 0x1B [lifeLoaded, lifeArmed, lifeLive, lifeDraining, lifeReplay, lifeFault] r = true ∧
    r.only [0x3F] = true ∧ e.coll.runs.any (fun r => r.group == 3 && r.open) = false ∧ e.fld (brState 3) = grReady ∧
    (e.life == lifeLive && e.groupInUse 3) = false := by decide +kernel

/-- The graft of group 3 without package 64, with its outcome. -/
def grafted (x : Graft) : State := (grouped 3 grGrafting).setGroup 3 { graft := some x }

theorem premises_grafts :
    let c := cmd 0x1A [3 + 64 * 65536, 2, 9]
    let v : Variant := ⟨3, 64, 0xFF, [1]⟩
    let s := with_ { grouped 3 grAborted with image := { (grouped 3 grAborted).image with variants := [v] } } c
    let b := s.begun 0 c
    starts s 0x1A [lifeLoaded, lifeArmed, lifeLive] c = true ∧ c.only [0x01FF003F, full, 0xFFFF] = true ∧ c.w 2 ≠ 0 ∧
    b.fld (brState 3) = grAborted ∧ b.variant 3 64 = some v ∧ b.variantFits v = true ∧ (b.members 3).contains 64 = true ∧ 64 ≠ b.self ∧
    b.time.orbit + 1 < c.w 1 ∧ b.switchPending = false ∧ (List.range 64).any (fun k => b.fld (brState k) == grGrafting) = false ∧
    (grafted ⟨[1], 64, 0xFF, 0, some 9⟩).dueGraft = some (3, ⟨[1], 64, 0xFF, 0, some 9⟩, 9) := by decide +kernel

/-- A run of schedule entry 0, an EXCHANGE_V of group 3 that lands in zone 2. -/
def run0 : Run := { id := 1, entry := 0, group := 3, ordinal := 0, gen := 0, ev := {}, ready := true, deadline := 5, commit := 9 }
def chunk0 : Chunk := { group := 3, zone := 2, ordinal := 0, gen := 0, src := 0, dst := 64, row := 0, flags := 1, attempt := 0, data := [] }
def running (life x : Nat) (r : Run) : State :=
  let s := (((grouped life grReady).setReg (Reg.COL_SCHED 0 0) 0x01000203).setReg (Reg.COL_SCHED 0 1) 0x00040200).setReg Reg.COL_TORUS 1
  let s := (s.setFld (F.TTH_PORT_STATE.state 0) psUp).setFld (F.TTH_PORT_STATE.state 1) psUp
  let s := ((s.raise (F.COL_VC.held 5)).setFld (F.COL_VC.group 5) 3)
  { s with coll := { s.coll with runs := [r], landing := [⟨2, 0, 0, [], false⟩], retry := [(0, chunk0)] }
           time := { s.time with spool := x } }

theorem premises_collectives :
    let s := running 5 0 run0
    let f := { s with trellis := { s.trellis with flight := [{ dest := .feed 0 0, tok := dat }] } }
    let u := running 5 0 { run0 with unsent := [chunk0] }
    ((f.takeFlight (.feed 0 0)).map fun r => (r.1.tok.operand, r.2.feedRuns 0 0 r.1.tok.ev, r.2.feedNeed run0)) = some (true, [run0], 1) ∧
    (run0.feed.length < 1) ∧
    ((List.range 16).map (fun i => (u.coll.lastServed + 1 + i) % 16)).find? (fun v => (u.sendable v).isSome) = some 5 ∧
    ((u.sendable 5).map fun r => r.2.1) = some chunk0 ∧
    ((takeFirst (fun l => l.zone == 2) s.coll.landing).map fun r => r.2) = some [] ∧
    (State.landRow { s with coll := { s.coll with landing := [] } } ⟨2, 0, 0, [], false⟩).entryOfZone 2 = some 0 ∧
    (let x := running 5 6 run0
     x.settleOver.coll.runs.find? x.settleOver.deadlineDue) = some run0 ∧
    (let x := running 5 5 run0
     x.settleOver.coll.runs.find? x.settleOver.deadlineDue) = none ∧
    (let x := running 5 9 run0
     x.settleOver.coll.runs.find? x.settleOver.commitDue) = some run0 ∧
    (let x := running 5 8 run0
     x.settleOver.coll.runs.find? x.settleOver.commitDue) = none ∧
    ((running lifeReplay 0 run0).takeMgmt 64).life = lifeReplay ∧ s.stalled = false ∧ f.retryFull 0 = false ∧
    ({ s with links := { s.links with chunks := [{ port := 0, tc := 1, bytes := [] }] } }).links.chunks = [{ port := 0, tc := 1, bytes := [] }] ∧
    ((running lifeReplay 0 run0).takeMgmt 64).coll.retry.find? (fun e => e.2.dst == 64 && e.2.group == 3 && e.2.ordinal == 0 && e.2.row == 0) = some (0, chunk0) ∧
    nbit (((at_ 2).setMapBit F.COL_TRANSIT_MAP.transit 15 true).fld F.COL_TRANSIT_MAP.transit) 15 = true := by decide +kernel

/-! Memories, spare units, capture, replay, shadow dies -/

theorem premises_window :
    let s := (at_ 2).setFld F.PWR_DOM_STAT.on 0xFFFFFF
    let w := s.setReg Reg.HUB_ATLAS_BASE 0x100
    s.up = true ∧ 0x2000000 ≤ (w.reg Reg.HUB_ATLAS_BASE).toNat * 2 ^ 25 + alignDown (0x100007 % 0x2000000) ∧
    w.memWritable (0x200000000 + 0x100004) = true ∧ w.memWritable 0x2000000 = false ∧ State.reset.up = false ∧
    s.memWritable (cold 0x1FFFFFFF) = true ∧ s.memWritable (cold 0x20000000) = false ∧
    s.memWritable (cold 0xF7FFFFFF) = true ∧ s.memWritable (cold 0xF8000000) = false ∧
    (∀ i, i < [1].length → 0x1FFFFFFF + i < 2 ^ 32 ∧ s.memWritable (cold (0x1FFFFFFF + i)) = true) ∧
    (∃ i, i < [1, 2].length ∧ s.memWritable (cold (0x1FFFFFFF + i)) = false) := by
  refine ⟨?_, ?_, ?_, ?_, ?_, ?_, ?_, ?_, ?_, ?_, 1, ?_, ?_⟩ <;> decide +kernel

theorem premises_prunes :
    let c := cmd 0x20 [0]
    let d := cmd 0x21 [0]
    let m := cmd 0x21 [2]
    let lives := [lifeSafe, lifeLoaded, lifeArmed, lifeLive, lifeDraining, lifeReplay]
    let s := with_ (at_ 5) c
    let p := with_ ((at_ 5).setFld (F.DET_ROW_MAP.pruned 0) 1) d
    let h := with_ ((at_ 5).raise (F.TRL_SITE_FSTAT.quarantined 0 2)) m
    let j := (at_ 5).setJobs [{ die := 15, row := 7, pos := 8 }]
    let o := { (at_ 5).setReg Reg.TIM_ORBIT_LEN 1 with time := { (at_ 5).time with spool := 31, boundaryDone := true } }
    let x : Pause := ⟨4, 0, 0, []⟩
    let a := { at_ 5 with spares := { pauses := [(15, some x)] } }
    starts s 0x20 lives c = true ∧ c.only [0x7FF] = true ∧ c.cu = some (0, 0, 0) ∧ (s.begun 0 c).available 0 0 0 = true ∧
    ((s.begun 0 c).logicalOf 0 0 0).isSome = true ∧ (s.begun 0 c).jobOn 0 = false ∧
    starts p 0x21 lives d = true ∧ d.cu = some (0, 0, 0) ∧ isUnit (bits (d.w 0) 0 11) = true ∧ nbit ((p.begun 0 d).fusedMask 0 0) 0 = false ∧
    (p.begun 0 d).jobOn 0 = false ∧ nbit ((p.begun 0 d).prunedMask 0 0) 0 = true ∧
    starts h 0x21 lives m = true ∧ isUnit (bits (m.w 0) 0 11) = true ∧ isMuCol (uCol (bits (m.w 0) 0 11)) = true ∧
    (h.begun 0 m).jobOn 0 = false ∧ (h.begun 0 m).bit (F.TRL_SITE_FSTAT.quarantined 0 (13 * uRow 2 + uCol 2)) = true ∧
    takeFirst (fun j => !j.prepared && !j.restore) j.spares.jobs = some ({ die := 15, row := 7, pos := 8 }, []) ∧
    o.atBoundary = true ∧ a.stalled = false ∧ a.pauseOf 15 = some x ∧ a.dieHolds 15 4 = false ∧
    ({ a with trellis := { flight := [{ dest := .unit (unitAddr 15 0 0) 0, tok := dat }] } }).dieHolds 15 4 = true := by decide +kernel

/-- A frozen capture of 4 crossings that holds the crossings 2 to 5. -/
def frozen (life : Nat) : State :=
  let s := ((at_ life).setFld F.CFM_CAP_STAT.state capFrozen).setFld F.PWR_DOM_STAT.on 0xFFFFFF
  { s with capture := { oldest := some 2, newest := some 5 } }

theorem premises_capture :
    let a (n : Word) := cmd 0x28 [n, 0xFFFFF, 0x303FF]
    let s (n : Word) := with_ (at_ 3) (a n)
    let f := cmd 0x28 [] 1
    let r := with_ ((at_ 5).setFld F.CFM_CAP_STAT.state capRunning) f
    let c := cmd 0x29 [2, 0, 4, 0, 0] 0 .chunked
    let z := with_ (frozen 3) c
    let b := z.begun 0 c
    starts (s 1) 0x28 [lifeLoaded, lifeArmed, lifeLive] (a 1) = true ∧ starts (s 336) 0x28 [lifeLoaded, lifeArmed, lifeLive] (a 336) = true ∧
    (a 336).only [0x1FF, 0xFFFFF, 0x303FF] = true ∧ bits ((a 1).w 0) 0 9 = 1 ∧ bits ((a 336).w 0) 0 9 = 336 ∧
    ((s 1).begun 0 (a 1)).reading = false ∧ starts r 0x28 [lifeLoaded, lifeArmed, lifeLive, lifeDraining] f = true ∧
    (r.begun 0 f).reading = false ∧ (r.begun 0 f).capState = capRunning ∧ ({ atSpool 5 31 with capture := { freezeDue := true } }).capture.freezeDue = true ∧ (atSpool 5 31).time.spool % 32 = 31 ∧
    starts z 0x29 [2, 3, 4, 5, 6, 7, 15] c = true ∧ c.w 2 ≠ 0 ∧ c.w 2 ≤ 344064 ∧
    hostRange (c.w64 3) (((b.captureRanges (c.w64 0) (c.w 2)).map (fun r => r.2)).sum) = true ∧ b.capState = capFrozen ∧
    b.cmds.any (fun x => x.op == 0x29 && x.stage != .fetched && x.id != c.id) = false ∧
    b.capture.oldest = some 2 ∧ 2 ≤ c.w64 0 ∧ b.capture.newest = some 5 ∧ c.w64 0 + c.w 2 ≤ 5 + 1 ∧ b.engineIn .idle ≠ [] := by decide +kernel

/-- A replay of one record of the capture, of tag `t`. -/
def replaying (t : Byte) (warned : Bool) : State :=
  let s := menus (frozen lifeReplay)
  { s with replay := some { cmd := 7, source := 0, next := 2, left := 1, warned := warned } }.memWrite (cold (s.recordAddr 2))
    ([2] ++ List.replicate 13 0 ++ [t])

/-- A START_REPLAY of the capture, whose first crossing's group holds the snapshot, and of the cold frame. -/
theorem premises_start_replay :
    let c := cmd 0x13 [2, 0, 4, 0, 0]
    let d := cmd 0x13 [0xF0000000, 0, 1, 0, 0] 1
    let t := cmd 0x13 [2, 0, 4, 0, 1, 1]
    let f := { frozen 3 with capture := { (frozen 3).capture with groups := [(2, 0, 0, true)] } }
    let p (c : Cmd) : State := (with_ f c).begun 0 c
    starts (with_ f c) 0x13 [lifeLoaded] c = true ∧ starts (with_ f d) 0x13 [lifeLoaded] d = true ∧ c.w 2 ≠ 0 ∧ d.w 2 ≠ 0 ∧
    (p c).bit F.HUB_IMG_STAT.unfit = false ∧ c.w64 3 = 0 ∧ t.w64 3 ≠ 0 ∧ hostRange (t.w64 3) (16 * t.w 5) = true ∧
    ((p t).readHost true (t.w64 3) (16 * t.w 5)).2.1 = none ∧ hostRange (d.w64 0) 0 = true ∧
    (p c).captureOk (c.w64 0) (c.w 2) = true := by decide +kernel

/-- Counting corrected errors leaves the capture as it is. -/
theorem premises_captured (s : State) (n a k : Nat) (h : s.captureOk a k = true) : (s.corrected n).captureOk a k = true := by
  have hs : (s.corrected n).capState = s.capState := by
    unfold State.capState State.fld
    rw [Laws.corrected_reg s n (by decide)]
  unfold State.captureOk at h ⊢
  rw [hs]
  exact h

/-- The records of zeros at the start of the host buffer region are read, and hold no snapshot. -/
theorem premises_records (s : State) (h : s.mem = []) : s.recordsOk 1 1 0xF0000000 = (true, none, s) ∧
    s.sourceRead 1 0xF0000000 128 = (List.replicate 128 0, none, s) ∧
    s.sourceSides 1 0xF0000000 (List.replicate 128 0) = ((0, []), none, s) := by
  have z : ∀ a n, s.memRead a n = List.replicate n 0 := by
    intro a n
    unfold State.memRead tgetMany
    rw [h]
    exact List.ext_getElem (by simp) (by simp [tget, memDflt])
  refine ⟨?_, ?_, ?_⟩
  · have z15 : nbit (u8 (List.replicate 128 0#8) 15) 0 = false ∧ nbit (u8 (List.replicate 128 0#8) 15) 1 = false := by decide +kernel
    simp [State.recordsOk, State.sourceRead, State.sourceSides, z, z15.1, z15.2, inSource, -List.reduceReplicate]
  · simp [State.sourceRead, z]
  · rfl

theorem premises_replay :
    let r : Replay := { cmd := 7, source := 0, next := 2, left := 1 }
    let x := ((replaying 0 false).nextRecord r).1
    (replaying 0 false).replay = some r ∧ (replaying 0 false).life = lifeReplay ∧ r.shown ≠ some (replaying 0 false).xindex ∧
    (replaying 0 false).withheld none = false ∧ ((replaying 0 false).nextRecord r).2.1 = none ∧ (replaying 0 false).residentAt (u8 x.1 14) = some menu0 ∧
    (replaying 0 false).withheld (some menu0) = false ∧
    (replaying 1 false).residentAt (u8 ((replaying 1 false).nextRecord r).1.1 14) = none ∧ (replaying 1 false).withheld none = false ∧
    (replaying 0 true).replay = some { r with warned := true } := by decide +kernel

/-- An entry of the shadow queue: an event of tag 0 and menu 0. -/
def entry0 : ShadowEntry := ⟨{}, 0, 0, [], [], [], [], [], 0⟩
/-- Die 4 shadows die 0, and menu 0 is mirrored. -/
def shadowing (life : Nat) (v : Shadow) : State :=
  let s := menus (at_ life)
  { ((s.setFld F.CFM_SHD_CFG.dies 0x30).setFld F.CFM_SHD_CFG.delta 1).setFld F.CFM_SHD_CFG.ready 1 with shadow := v }

theorem premises_shadow :
    let c := cmd 0x50 [0x14010030]
    let live := shadowing 5 {}
    starts (with_ (menus (at_ 3)) c) 0x50 [lifeLoaded, lifeArmed, lifeLive] c = true ∧ c.only [0x1F03FFFF] = true ∧
    bits (c.w 0) 24 5 = 20 ∧ shadowOk 0x30 1 = true ∧ shadowOk 0x70 1 = false ∧ bits (c.w 0) 0 16 &&& ((with_ (menus (at_ 3)) c).begun 0 c).image.dies = 0 ∧
    starts (with_ live c) 0x50 [lifeLoaded, lifeArmed, lifeLive] c = true ∧ ((with_ live c).begun 0 c).life = lifeLive ∧
    bits (c.w 0) 0 16 = ((with_ live c).begun 0 c).fld F.CFM_SHD_CFG.dies ∧ bits (c.w 0) 16 2 = ((with_ live c).begun 0 c).fld F.CFM_SHD_CFG.delta ∧
    (shadowing 5 { mirrors := [0] }).shadow.mirrors.contains 0 = true ∧ (shadowing 5 { mirrors := [0] }).residentAt 0 = some menu0 ∧
    (shadowing 6 { queue := [entry0] }).liveOrDraining = true ∧ (shadowing 6 { queue := [entry0] }).shadowPaused = false ∧
    (shadowing 6 { queue := [entry0] }).shadow.run = none ∧ ((shadowing 6 {}).residentAt 0).any (fun r => r.number == entry0.menu) = true ∧
    (shadowing 6 {}).image.menus.find? (fun m => m.number == entry0.menu) = some menu0 ∧ nbit ((shadowing 6 {}).fld F.CFM_SHD_CFG.ready) 0 = true ∧
    (shadowing 5 { run := some entry0, ended := true }).trellis.pieces = [] ∧ entry0.taps = [] := by decide +kernel

/-! Rings and entries -/

/-- Queue 15 enabled, with a depth of 4 entries. -/
def ring (en : Nat) : State :=
  (((at_ 2).setFld (F.HUB_QP_CFG.en 15) en).setFld (F.HUB_QP_CFG.depth_m1 15) 3).setFld (F.HUB_QP_CFG.phys 15) 1

theorem premises_rings :
    let s := (ring 1).setQueue 15 { (ring 1).queue 15 with used := 3 }
    let f := (ring 1).setFld (F.HUB_QP_SQ_TAIL.tail 15) 1
    s.up = true ∧ s.bit (F.HUB_QP_CFG.en 15) = true ∧ (3 : Word).toNat % 4096 < s.depth 15 ∧ s.depth 15 ≤ (4 : Word).toNat % 4096 ∧
    ((3 : Word).toNat % 4096 + s.depth 15 - s.fld (F.HUB_QP_CQ.head 15)) % s.depth 15 ≤ (s.queue 15).used ∧
    ((ring 1).queue 15).used < ((3 : Word).toNat % 4096 + s.depth 15 - s.fld (F.HUB_QP_CQ.head 15)) % s.depth 15 ∧
    f.mayFetch 15 = true ∧ (f.readHost (!f.bit (F.HUB_QP_CFG.phys 15))
      (f.wide (Reg.HUB_QP_SQ_BASE_LO 15) + 64 * f.fld (F.HUB_QP_STAT.sq_head 15)) 64).2.1 = none ∧
    (let g := (f.setFld (F.HUB_QP_CFG.phys 15) 0).setFld F.DAT_CFG.en 1
     g.mayFetch 15 = true ∧ (g.readHost (!g.bit (F.HUB_QP_CFG.phys 15))
       (g.wide (Reg.HUB_QP_SQ_BASE_LO 15) + 64 * g.fld (F.HUB_QP_STAT.sq_head 15)) 64).2.1.isSome = true) ∧
    s.mayFetch 15 = false ∧ (1 : Word).getLsbD 0 = true ∧ (0 : Word).getLsbD 0 = false ∧ (ring 0).bit (F.HUB_QP_CFG.en 15) = false ∧
    ((ring 0).queue 15).held = [] := by decide +kernel

theorem premises_entries :
    let c := { cmd 0x01 [] with id := 9 }
    let other := { c with id := 7 }
    let s := with_ (at_ 2) other
    let k (d : Word) : State := (at_ 2).setQueue 0 { (at_ 2).queue 0 with store := [⟨other.completion 0 0 [], d, 1⟩] }
    (s.queueCmds 0).find? (fun x => x.seq == c.seq && x.id != c.id) = some other ∧ other.op = c.op ∧ other.digest = c.digest ∧
    ({ c with op := 2 }).op ≠ other.op ∧ ((k 0).queueCmds 0).find? (fun x => x.seq == c.seq && x.id != c.id) = none ∧
    (((k 0).queue 0).store.find? (fun e => e.comp.seq == c.seq)) = some ⟨other.completion 0 0 [], 0, 1⟩ ∧ (other.completion 0 0 []).op = c.op ∧
    ((k 1).queue 0).store.any (fun e => e.digest != c.digest) = true ∧ ((at_ 2).queue 0).store.find? (fun e => e.comp.seq == c.seq) = none ∧
    opInfo 0xFF 0 0 = none ∧ opInfo 0x01 0 0 = some (.brief, .exact 0) ∧ LenRule.ok (.exact 0) 1 = false ∧ LenRule.ok (.exact 0) 0 = true ∧
    (s.cmds.map (fun x => x.id)).Nodup := by decide +kernel

/-! Lifecycle, flash, power -/

theorem premises_lifecycle :
    let any := [1, 2, 3, 4, 5, 6, 7, 15]
    let i := cmd 0x01 []
    let w0 := cmd 0x03 [0, 0, 0x4, 5]
    let w1 := cmd 0x03 [2, 0]
    let a := cmd 0x10 []
    let l := cmd 0x11 []
    let d := cmd 0x12 [0, 0] 0 .waiting
    let m := cmd 0x48 [0, 0, 336]
    let armable := (at_ 3).raise F.TIM_STATUS.pll_lock
    let st := due .startLive (at_ 4)
    starts (with_ (at_ 15) i) 0x01 any i = true ∧ starts (with_ (at_ 1) i) 0x01 any i = true ∧
    starts (with_ (at_ 15) w0) 0x03 [2, 3, 4, 5, 6, 7, 15] w0 = true ∧ (∀ e ∈ wordPairs (w1.words.drop 2), pairOk e.1 = true) ∧ w0.w64 0 = 0 ∧
    starts (with_ (at_ 2) w1) 0x03 [2, 3, 4, 5, 6, 7, 15] w1 = true ∧ w1.w64 0 ≠ 0 ∧ ((with_ (at_ 2) w1).begun 0 w1).farEnough (w1.w64 0) = true ∧
    (((due (.writeControl []) (at_ 2)).takeDue isWriteControl).map fun r => r.1.kind) = some (.writeControl []) ∧
    starts (with_ armable a) 0x10 [lifeLoaded] a = true ∧ ((with_ armable a).begun 0 a).bit F.TIM_STATUS.pll_lock = true ∧
    ((with_ armable a).begun 0 a).tooFast = false ∧ ((with_ armable a).begun 0 a).bit F.HUB_IMG_STAT.unfit = false ∧
    starts (with_ (at_ 4) l) 0x11 [lifeArmed] l = true ∧ ((with_ (at_ 4) l).begun 0 l).bit F.TIM_STATUS.launch_pending = false ∧
    st.counts = true ∧ ((st.takeDue EffectKind.isStart).map fun r => r.2.life) = some lifeArmed ∧
    (((due .startLive (at_ 3)).takeDue EffectKind.isStart).map fun r => r.2.life) = some lifeLoaded ∧
    starts (with_ (at_ 4) d) 0x12 [lifeArmed, lifeLive, lifeReplay] d = true ∧ starts (with_ (at_ 7) d) 0x12 [lifeArmed, lifeLive, lifeReplay] d = true ∧
    starts (with_ (at_ 5) d) 0x12 [lifeArmed, lifeLive, lifeReplay] d = true ∧
    ((with_ (at_ 5) d).begun 0 d).farEnough ((with_ (at_ 5) d).begun 0 d).firstFar = true ∧
    (((due (.drain true) (at_ 5)).takeDue isDrain).map fun r => r.1.kind) = some (.drain true) ∧
    starts (with_ (at_ 1) m) 0x48 any m = true ∧ hostRange (m.w64 0) 336 = true ∧
    (((with_ (at_ 1) m).begun 0 m).writeHost true (m.w64 0) ((with_ (at_ 1) m).begun 0 m).measRecord).2.1 = none := by decide +kernel

/-- A STORE or ERASE of command 7 that runs. -/
def flashing (wait : Option Nat) : State :=
  { at_ 2 with power := { (at_ 2).power with flashOp := some ⟨7, true, 0, 0, 0, [], true, false, false⟩, resetWait := wait } }

theorem premises_flash :
    let c := cmd 0x40 [0, 0, 1, 0]
    let e := cmd 0x41 [0] 3
    let b := (with_ (at_ 2) c).begun 0 c
    starts (with_ (at_ 2) c) 0x40 (flashLives c) c = true ∧ hostRange (c.w64 0) (c.w 2) = true ∧ c.w 2 ≠ 0 ∧ c.w 2 ≤ storeMax c.sub ∧
    b.flashBusy = false ∧ (b.readHost true (c.w64 0) (c.w 2)).2.1 = none ∧
    starts (with_ (at_ 15) e) 0x41 (flashLives e) e = true ∧ ((with_ (at_ 15) e).begun 0 e).flashBusy = false ∧
    (flashing none).power.flashOp = some ⟨7, true, 0, 0, 0, [], true, false, false⟩ ∧
    ((flashing none).endFlash ⟨7, true, 0, 0, 0, [], true, false, false⟩ []).power.resetWait = none ∧
    ((flashing (some 3)).endFlash ⟨7, true, 0, 0, 0, [], true, false, false⟩ []).power.resetWait = some 3 := by decide +kernel

/-- SAFE, with domains on that are not configured. -/
def domains (on : Nat) : State := (at_ 2).setFld F.PWR_DOM_STAT.on on

theorem premises_power :
    let v : Word := 0xFFFFF8
    let s := domains 0xFFFFF0
    let a := (domains 0).setSwitch 23 (some true)
    s.up = true ∧ s.maySwitch 3 = true ∧ s.switchOf 3 = none ∧ v.getLsbD 3 = !s.domOn 3 ∧
    (∀ k, 3 ≤ k → k < 24 → k ≠ 3 → s.switchOf k = none ∧ v.getLsbD k = s.domOn k) ∧ v.getLsbD 3 = true ∧
    s.switchOf 23 = none ∧ a.switchOf 23 = some true ∧ ((domains 0).setSwitch 23 (some false)).switchOf 23 = some false ∧
    (domains 0x100).railUsed 0 = true ∧ (domains 0x100).railWindow 0 = (8000, 9500) ∧ (at_ 2).life > lifeBoot ∧ (at_ 1).life ≤ lifeBoot ∧
    (domains 0).railUsed 0 = false ∧ ((at_ 2).raise F.PWR_CFG.shed_on_fail).bit F.PWR_CFG.shed_on_fail = true := by
  refine ⟨?_, ?_, ?_, ?_, ?_, ?_, ?_, ?_, ?_, ?_, ?_, ?_, ?_, ?_, ?_⟩
  case refine_5 =>
    have h : ∀ k : Fin 24, 3 ≤ k.val → k.val ≠ 3 → (domains 0xFFFFF0).switchOf k = none ∧ (0xFFFFF8 : Word).getLsbD k = (domains 0xFFFFF0).domOn k := by
      decide +kernel
    intro k h1 h2 h3
    exact h ⟨k, h2⟩ h1 h3
  all_goals decide +kernel

/-! DMA -/

theorem premises_dma :
    let any := [1, 2, 3, 4, 5, 6, 7, 15]
    let c := cmd 0x02 [0, 0, 4, 0, 0] 0 .chunked
    let x (sub : Nat) := cmd 0x58 [0, 0, 1] sub
    let r (sub : Nat) := cmd 0x68 [7] sub
    let f (sub : Nat) := with_ (((at_ 2).setEngine 7 { mode := .faulted, cmd := 3 })) (r sub)
    let g := { f 1 with hub := { (f 1).hub with table := (f 1).hub.table ++ [(1, some { r 1 with id := 3, op := 2, queue := 1, cls := .chunked, stage := .running })] } }
    let e := (at_ 2).setEngine 7 { mode := .running, waitTag := some 4095, descs := [⟨.atlas, .remote, 9, 0, 0, 4⟩] }
    let t := e.setTagEntry 4095 { e.tagEntry 4095 with held := false }
    starts (with_ (at_ 15) c) 0x02 any c = true ∧ c.only [full, 0xFF, full, full, full] = true ∧ c.w64 0 % 4 = 0 ∧ c.w 2 % 4 = 0 ∧ c.w 2 ≠ 0 ∧
    c.w64 0 + c.w 2 ≤ 2 ^ 40 ∧ hostRange (c.w64 3) (c.w 2) = true ∧ starts (with_ (at_ 1) (x 0)) 0x58 any (x 0) = true ∧
    starts (with_ (at_ 1) (x 1)) 0x58 any (x 1) = true ∧ (x 1).only [full, full, full] = true ∧ hostRange ((x 1).w64 0) ((x 1).w 2) = true ∧ (x 1).w 2 ≠ 0 ∧
    ((with_ (at_ 2) { x 0 with stage := .running }).queueCmds 0).find? (fun c => c.op == 0x58 && c.stage == .running) = some { x 0 with stage := .running } ∧
    starts (f 0) 0x68 any (r 0) = true ∧ (r 0).only [7] = true ∧ bits ((r 0).w 0) 0 3 = 7 ∧ (((f 0).begun 0 (r 0)).engine 7).mode = .faulted ∧
    starts g 0x68 any (r 1) = true ∧ (((g.begun 0 (r 1)).finish (r 1).id stOk []).cmd (((g.begun 0 (r 1)).finish (r 1).id stOk []).engine 7).cmd).isSome = true ∧
    (e.engine 7).mode = .running ∧ (e.engine 7).dataWait = false ∧ e.readsCold 7 = false ∧ ((at_ 2).engine 7).mode ≠ .running ∧
    (t.engineIn .running).find? (fun e => (t.engine e).waitTag == some 4095 && (t.engine e).desc.any (fun d => d.dstKind == .remote)) = some 7 ∧
    (t.engineIn .running).find? (fun e => (t.engine e).waitTag == some 4094 && (t.engine e).desc.any (fun d => d.dstKind == .remote)) = none := by
  decide +kernel

/-! Interrupts -/

/-- Source `x` pending with priority 5 for target 0. -/
def pending_ (x : Nat) : State :=
  let s := ((at_ 2).setFld (F.INT_SRC_CFG.prio x) 5).setFld (F.INT_SRC_CFG.en x) 1
  { s with intc := { s.intc with pend := putMap s.intc.pend x true } }

theorem premises_interrupts :
    let s := pending_ 255
    let n := { s with intc := { s.intc with nested := tset (fun _ => []) s.intc.nested 0 [(255, 5)] } }
    let f := { s with intc := { s.intc with nested := tset (fun _ => []) s.intc.nested 0 (List.replicate 8 (1, 1)) } }
    (at_ 2).up = true ∧ (0xF3F : Word).toNat % 64 + max 1 ((0xF3F : Word).toNat / 256 % 16) - 1 = 77 ∧
    (0x03F : Word).toNat % 64 + max 1 ((0x03F : Word).toNat / 256 % 16) - 1 = 63 ∧ s.claimable s.intc 0 255 = true ∧ s.bestOf s.intc 0 = (255, 5) ∧
    (s.intc.stack 0).length < 8 ∧ ((at_ 2).bestOf (at_ 2).intc 0).1 = 0 ∧ 8 ≤ (f.intc.stack 0).length ∧
    n.intc.stack 0 = [(255, 5)] ∧ (0x1FF : Word).toNat % 256 = 255 ∧ (0x100 : Word).toNat % 256 = 0 ∧ s.intc.stack 0 = [] := by decide +kernel

/-! Resets -/

theorem premises_resets :
    let key : Word := 0xA5000001
    let d (life die : Nat) : State := (at_ life).setReg Reg.HUB_DIE_RESET (BitVec.ofNat 32 (0xA5000000 + 2 ^ die))
    let used := menus (at_ 5)
    State.reset.power.boot = 0 ∧ (at_ 2).power.boot ≠ 0 ∧ (at_ 2).power.flashOp = none ∧ (at_ 2).mayWarm .bar0 = true ∧ (at_ 2).mayWarm .smbus = true ∧
    (at_ 2).mayWarm .firmware = true ∧ ({ at_ 2 with power := { (at_ 2).power with wdtDue := true } }).mayWarm .watchdog = true ∧
    key.getLsbD 0 = true ∧ key.toNat / 0x1000000 = 0xA5 ∧ (0xA4000001 : Word).toNat / 0x1000000 ≠ 0xA5 ∧ (0xA5000000 : Word).getLsbD 0 = false ∧
    cold 0 ≤ cold 0xFFFFFFFF ∧ cold 0xFFFFFFFF < cold 0x100000000 ∧ twf memDflt (at_ 2).mem = true ∧ (at_ 2).cmds = [] ∧ 3 ≤ (at_ 2).power.boot ∧
    (d 2 15).mayReset 15 = true ∧ (used.setReg Reg.HUB_DIE_RESET 0xA5000001).mayReset 0 = false ∧ (at_ 2).power.dieReset = [] ∧
    ({ at_ 2 with power := { (at_ 2).power with dieReset := [15], dieNext := [[14]] } }).power.dieReset ≠ [] ∧
    ({ at_ 2 with power := { (at_ 2).power with dieReset := [15] } }).power.dieReset.contains 15 = true ∧
    ({ State.reset with power := { boot := 3 } }).bootSlot.1 = none ∧ ({ State.reset with power := { boot := 3 } }).power.test = false ∧
    ({ at_ 1 with power := { boot := 4, firmware := true } }).life = lifeBoot ∧ ((at_ 2).raise F.HUB_WDT_CFG.en).bit F.HUB_WDT_CFG.en = true := by
  decide +kernel

/-- Die 15 is in reset, and a reset of die 14 waits. -/
def dieWaits : State := { at_ 2 with power := { (at_ 2).power with dieReset := [15], dieNext := [[14]] } }

theorem premises_die_resets :
    let r := ((dieWaits.corrected 0x4000000).rewriteDie 15).mirrorAgain 15
    r.power.dieReset.filter (fun x => x != 15) = [] ∧ r.power.dieNext = [14] :: [] := by
  have h : (((dieWaits.corrected 0x4000000).rewriteDie 15).mirrorAgain 15).power = dieWaits.power := by
    have a : (dieWaits.corrected 0x4000000).rewriteDie 15 = dieWaits.corrected 0x4000000 := by
      unfold State.rewriteDie
      rw [show nbit (dieWaits.corrected 0x4000000).image.dies 15 = false from rfl]
      simp
    rw [a]
    unfold State.mirrorAgain
    split <;> rfl
  simp only [h]
  decide +kernel

/-! Management buses -/

/-- A module transaction is on the bus. -/
def onBus : State :=
  let c := cmd 0x60 [0x01010150]
  let s := with_ (at_ 2) { c with stage := .waiting }
  { s with mgt := { s.mgt with modNow := some { cmd := 7 } } }

theorem premises_management :
    let c := cmd 0x60 [0x00142050] 0 .waiting
    let s := with_ (at_ 2) c
    let e := (at_ 2).raise F.MGT_SMB_CFG.mctp_en
    let q := { at_ 2 with mgt := { (at_ 2).mgt with modQueue := [{ cmd := 7 }] } }
    let t := ((onBus.leaveBus.satInc F.MGT_MOD_CNT.arb_lost).raise F.MGT_EVT.mod_arb_lost)
    let one := t.setFld F.MGT_MOD_CFG.arb_retries 1
    (at_ 2).pecOk 0x10 0 none = true ∧ (at_ 2).pecOk 0x10 0 (some (pec ((at_ 2).smbWriteBytes 0x10 0) + 1)) = false ∧
    (at_ 2).pecOk 0x11 0 none = true ∧ (at_ 2).pecOk 0x12 0 none = true ∧ e.bit F.MGT_SMB_CFG.mctp_en = true ∧ e.power.rom = false ∧
    mbyte [0x80] 0 % 128 = 0 ∧ mbyte [0x85] 0 % 128 = 5 ∧ mbyte [1] 0 % 128 ≠ 0 ∧ mbyte [1] 0 % 128 ≠ 5 ∧
    mhalf [1, 0, 0, 0, 0, 0, 0, 0] 0 = 1 ∧ mbyte [1, 0, 1, 0, 0, 0, 0, 0] 2 = 1 ∧ (at_ 2).power.firmware = true ∧ (at_ 2).mgt.mctpSending = false ∧
    starts s 0x60 [2, 3, 4, 5, 6, 7, 15] c = true ∧ c.only [0x013F3F7F] = true ∧ bits (c.w 0) 8 6 = 32 ∧ bits (c.w 0) 16 6 = 20 ∧
    q.mgt.modNow = none ∧ q.mgt.clearDue = false ∧ (q.modLines true true).modReady = true ∧ q.mgt.modQueue = [{ cmd := 7 }] ∧
    onBus.mgt.modNow = some { cmd := 7 } ∧ t.xferCancelled { cmd := 7, losses := 1 } = false ∧ 1 < max 1 (t.fld F.MGT_MOD_CFG.arb_retries) ∧
    max 1 (one.fld F.MGT_MOD_CFG.arb_retries) ≤ 1 ∧ onBus.xferCounts { cmd := 7 } = (1, 1) ∧ onBus.xferCancelled { cmd := 7 } = false ∧
    ({ at_ 2 with mgt := { clearDue := true, pulse := true } }).mgt.modNow = none := by decide +kernel

end Sys2Proof.Tests
end

section
/-!
SUPPORT. The interrupt controller and the registers right after reset (R6, R494, R525).
-/
namespace Sys2Proof.Laws

open Sys2Proof.Machine

@[simp] theorem inMap_zero (x : Nat) : inMap 0#256 x = false := by
  simp [inMap, nbit]

/-- With no source pending nothing is claimable, so the best priority of every target is 0 (R497). -/
theorem bestOf_of_pend_zero (s : State) {c : Intc} (h : c.pend = 0) (k : Nat) : s.bestOf c k = (0, 0) := by
  have hc : ∀ x, s.claimable c k x = false := fun x => by simp [State.claimable, h]
  have hfold : ∀ l : List Nat, l.foldl (fun b x =>
      if s.claimable c k x && b.2 < s.fld (F.INT_SRC_CFG.prio x) then (x, s.fld (F.INT_SRC_CFG.prio x)) else b)
      ((0, 0) : Nat × Nat) = (0, 0) := by
    intro l
    induction l with
    | nil => rfl
    | cons x l ih =>
      rw [List.foldl_cons, hc x, Bool.false_and, if_neg Bool.false_ne_true]
      exact ih
  exact hfold (List.range 256)

/-- Every event and error bit that is the origin of a source has reset value 0 in its table. -/
theorem origin_reset : ∀ x, x < 256 → State.reset.origin x = false := by decide +kernel

theorem intSettled_reset : State.reset.IntSettled where
  level x hx _ := by
    have hlt : x < 256 := by
      simp only [State.levelSource, Bool.and_eq_true, decide_eq_true_eq] at hx
      exact hx.1.1.2
    have hsoft : inMap State.reset.intc.soft x = false := inMap_zero x
    rw [origin_reset x hlt, hsoft]
    exact inMap_zero x
  best k _ := by
    rw [bestOf_of_pend_zero State.reset rfl k]
    rfl

theorem life_reset : State.reset.life = lifeBoot := by decide +kernel

/-- Settles O5: right after power no source is pending and no origin is asserted, and the register table is empty, so that
every register reads its reset value. -/
theorem resetIsSettled : Obligations.ResetIsSettled :=
  ⟨intSettled_reset, memoryWf_reset, rfl, life_reset, rfl, fun _ => rfl⟩

end Sys2Proof.Laws
end

section
/-!
SUPPORT. What a write does to each bit of a register, by the access types of its row (R7, R8).
-/
namespace Sys2Proof.Laws

open Sys2Proof.Machine

/-- Bit `i` after a write: RW and WL bits take the bit written, then a 1 clears a W1C bit and sets a W1S bit. -/
theorem getLsbD_rowWrite (d : RegDesc) (old v : Word) {i : Nat} (hi : i < 32) :
    (rowWrite d old v).getLsbD i =
      ((if d.rw.testBit i || d.wl.testBit i then v.getLsbD i else old.getLsbD i) && !(v.getLsbD i && d.w1c.testBit i) ||
        (v.getLsbD i && d.w1s.testBit i)) := by
  simp only [rowWrite, BitVec.getLsbD_or, BitVec.getLsbD_and, BitVec.getLsbD_not, BitVec.getLsbD_ofNat, Nat.testBit_or, hi,
    decide_true, Bool.true_and]
  cases d.rw.testBit i || d.wl.testBit i <;> simp

/-- Settles O6, from the bit of a written word: one clause for each access type. -/
theorem accessTypesAct : Obligations.AccessTypesAct := by
  intro d old v i hi
  rw [getLsbD_rowWrite d old v hi]
  refine ⟨fun hm hc hs => ?_, fun hc hrw hwl hs => ?_, fun hs hrw hwl hc => ?_, fun hrw hwl hc hs => ?_⟩
  · rcases hm with hm | hm <;> simp [hm, hc, hs]
  · simp [hc, hrw, hwl, hs]
  · simp [hc, hrw, hwl, hs]
  · simp [hc, hrw, hwl, hs]

end Sys2Proof.Laws
end

section
/-!
SUPPORT. Register accesses on the three paths (R9, R10, R408): the copies of a path, and what a read and a write come to in
each case of the register row at the offset. One lemma for each case, so that later proofs do not unfold the accesses.
-/
namespace Sys2Proof.Laws

open Sys2Proof.Machine

/-! Runs of table writes -/

/-- Keys written one after another, at distinct places, each hold the value written there. -/
theorem tget_foldl_tset {α : Type} [DecidableEq α] (d : Nat → α) (key : Nat → Nat) (val : Nat → α)
    (hkey : ∀ {i j}, key i = key j → i = j) (t : Tbl α) {n k : Nat} (h : k < n) :
    tget d ((List.range n).foldl (fun t i => tset d t (key i) (val i)) t) (key k) = val k := by
  induction n with
  | zero => exact absurd h (Nat.not_lt_zero k)
  | succ n ih =>
    rw [List.range_succ, List.foldl_append, List.foldl_cons, List.foldl_nil]
    by_cases hk : k = n
    · subst hk; exact tget_tset_same _ _ _ _
    · rw [tget_tset_ne _ _ _ (fun he => hk (hkey he).symm)]
      exact ih (by omega)

/-! The copies of a path -/

@[simp] theorem path_setPath_same (s : State) (p : Path) (c : PathCopy) : (s.setPath p c).path p = c := by
  cases p <;> rfl

theorem path_setPath_ne (s : State) {p p' : Path} (c : PathCopy) (h : p' ≠ p) : (s.setPath p c).path p' = s.path p' := by
  revert h
  cases p <;> cases p' <;> simp [State.setPath, State.path]

@[simp] theorem setPath_regs (s : State) (p : Path) (c : PathCopy) : (s.setPath p c).regs = s.regs := by
  cases p <;> rfl

/-! The rows -/

theorem alignDown_of_aligned {o : Nat} (h : o % 4 = 0) : alignDown o = o := by
  unfold alignDown; omega

theorem readable_of_up {s : State} (h : s.up = true) (o : Nat) : s.readable o = true := by
  simp [State.readable, h]

/-- REGISTER_WRITE at an aligned offset is the write of that register. -/
theorem exec_registerWrite (p : Path) {o : Nat} (v : Word) (s : State) (h : o % 4 = 0) :
    exec (.registerWrite p o v) s = .next (s.writeReg p o v).settle :=
  congrArg (fun a => done (s.writeReg p a v)) (alignDown_of_aligned h)

/-- WIDE_LOW_WORD_READ at an aligned offset is the read of that register. -/
theorem exec_wideLowWordRead (p : Path) {o : Nat} (s : State) (h : o % 4 = 0) :
    exec (.wideLowWordRead p o) s = .next (s.readReg p o).settle :=
  congrArg (fun a => done (s.readReg p a)) (alignDown_of_aligned h)

/-! Writes -/

section
variable {s : State} {o : Nat} (hup : s.up = true)
include hup

theorem writeReg_unassigned (p : Path) (v : Word) (hf : RegMap.find o = none) : s.writeReg p o v = s.accessError o := by
  simp [State.writeReg, readable_of_up hup, hf]

theorem writeReg_oneWord (p : Path) (v : Word) {d : RegDesc} (hf : RegMap.find o = some d) (hw : d.words < 2) :
    s.writeReg p o v = s.writeOne p o v := by
  simp [State.writeReg, readable_of_up hup, hf, hw]

/-- A lower word of a wide value waits in the pending copy of its path (R9). -/
theorem writeReg_lowWord (p : Path) (v : Word) {d : RegDesc} (hf : RegMap.find o = some d) (hw : 2 ≤ d.words)
    (ha : rowWritable d = true) (hb : d.back = 0) :
    s.writeReg p o v = s.setPath p { s.path p with low := tset noWord (s.path p).low o (some v) } := by
  simp [State.writeReg, readable_of_up hup, hf, ha, hb, Nat.not_lt.mpr hw]

end

/-- No register of the SEC, CFM and DET blocks does more on a write than its access types say. -/
theorem writeOne_plainBlock (s : State) (p : Path) {o : Nat} (v : Word)
    (h : o / 0x100000 = 6 ∨ o / 0x100000 = 14 ∨ o / 0x100000 = 15) : s.writeOne p o v = s.writePlain o v := by
  rcases h with h | h | h <;> simp [State.writeOne, h]

/-! A write by access type changes one register -/

theorem reg_writePlain_same (s : State) {o : Nat} (v : Word) {d : RegDesc} (hf : RegMap.find o = some d) :
    (s.writePlain o v).reg o = if rowWritable d then rowWrite d (s.reg o) v ||| s.freshBits o else s.reg o := by
  simp only [State.writePlain, hf]
  split
  · exact reg_setReg_same s o _
  · rfl

theorem reg_writePlain_ne (s : State) {o o' : Nat} (v : Word) (h : o' ≠ o) : (s.writePlain o v).reg o' = s.reg o' := by
  unfold State.writePlain
  split
  · rfl
  · split
    · exact reg_setReg_ne s _ h.symm
    · rfl

theorem writePlain_frame (s : State) (o : Nat) (v : Word) : { s.writePlain o v with regs := s.regs } = s := by
  unfold State.writePlain
  split
  · rfl
  · split <;> rfl

/-! Reads -/

section
variable {s : State} {o : Nat} (hup : s.up = true)
include hup

theorem readReg_unassigned (p : Path) (hf : RegMap.find o = none) : s.readReg p o = { s.accessError o with rdata := 0 } := by
  simp [State.readReg, readable_of_up hup, hf]

theorem readReg_assigned (p : Path) {d : RegDesc} (hf : RegMap.find o = some d) (hc : claimTarget o = none) :
    s.readReg p o = s.readWord p o d := by
  simp [State.readReg, readable_of_up hup, hf, hc]

end

theorem readWord_oneWord (s : State) (p : Path) (o : Nat) {d : RegDesc} (hw : d.words < 2) (hb : d.back = 0) :
    s.readWord p o d = { s with rdata := s.view o } := by
  have h1 : ¬ 1 < d.words := by omega
  simp [State.readWord, State.when, hb, h1]

/-- The read of a lowest word answers it and latches the higher words (R9). -/
theorem readWord_lowWord (s : State) (p : Path) (o : Nat) {d : RegDesc} (hw : 2 ≤ d.words) (hb : d.back = 0) :
    s.readWord p o d = { s.latch p o d.words with rdata := s.view o } := by
  have h1 : 1 < d.words := hw
  simp [State.readWord, State.when, hb, h1]

/-- The read of a higher word answers the holding copy of its path, or the live word where nothing is held (R9, R14). -/
theorem readWord_highWord (s : State) (p : Path) (o : Nat) {d : RegDesc} (hb : d.back ≠ 0) :
    (s.readWord p o d).rdata = (tget noWord (s.path p).hold o).getD (s.view o) := by
  simp [State.readWord, hb]

/-- After latching a value of `n` words, the holding copy of its path has each higher word as it read then. -/
theorem hold_latch (s : State) (p : Path) (o : Nat) {n k : Nat} (h1 : 1 ≤ k) (h2 : k < n) :
    tget noWord ((s.latch p o n).path p).hold (o + 4 * k) = some (s.view (o + 4 * k)) := by
  obtain ⟨k, rfl⟩ := Nat.exists_eq_add_of_le' h1
  rw [State.latch, path_setPath_same]
  exact tget_foldl_tset noWord (fun i => o + 4 * (i + 1)) (fun i => some (s.view (o + 4 * (i + 1))))
    (fun {_ _} hab => by omega) _ (by omega)

theorem path_latch_ne (s : State) {p p' : Path} (o n : Nat) (h : p' ≠ p) : (s.latch p o n).path p' = s.path p' :=
  path_setPath_ne s _ h

@[simp] theorem latch_regs (s : State) (p : Path) (o n : Nat) : (s.latch p o n).regs = s.regs := setPath_regs s p _

/-- What a read answered is no part of the copies of a path. -/
@[simp] theorem path_rdata (s : State) (w : Word) (p : Path) : State.path { s with rdata := w } p = s.path p := by
  cases p <;> rfl

/-! The statements -/

/-- Settles O7: each kind of offset has one case lemma for the write and one for the read. -/
theorem registerAccesses : Obligations.RegisterAccesses := by
  intro p o v s hup ho
  rw [exec_registerWrite p v s ho, exec_wideLowWordRead p s ho]
  refine ⟨fun d hf hw hblock => ?_, fun d hf hw ha hb => ?_, fun d hf hw hb hc => ?_, fun hf => ⟨?_, ?_⟩⟩
  · refine ⟨s.writePlain o v, ?_, reg_writePlain_same s v hf, fun o' h => reg_writePlain_ne s v h, writePlain_frame s o v⟩
    rw [writeReg_oneWord hup p v hf hw, writeOne_plainBlock s p v hblock]
  · refine ⟨_, rfl, ?_⟩
    rw [writeReg_lowWord hup p v hf hw ha hb, path_setPath_same]
    exact ⟨setPath_regs s p _, tget_tset_same noWord (s.path p).low o (some v), fun p' h => path_setPath_ne s _ h⟩
  · rw [readReg_assigned hup p hf hc, readWord_oneWord s p o hw hb]
  · rw [writeReg_unassigned hup p v hf]
  · rw [readReg_unassigned hup p hf]

/-- Settles O8: the holding copy of the path has the higher words as they stood, and a later read of one answers from it. -/
theorem wideReadLatches : Obligations.WideReadLatches := by
  intro p o k s d hup ho hf hb h1 h2 hc
  have hhold := hold_latch s p o h1 h2
  refine ⟨{ s.latch p o d.words with rdata := s.view o }, ?_, rfl, latch_regs s p o _, ?_, fun p' h => ?_, fun d' r hr hb' => ?_⟩
  · rw [exec_wideLowWordRead p s ho, readReg_assigned hup p hf hc, readWord_lowWord s p o (by omega) hb]
  · rw [path_rdata, hhold]
  · rw [path_rdata, path_latch_ne s o _ h]
  · rw [readWord_highWord r p _ hb', hr, path_rdata, hhold, Option.getD_some]

end Sys2Proof.Laws
end

section
/-!
SUPPORT. What a decision frame carries: the late policy's bits alone where R20 applies (R56, R57, R354), and the decision
digest, the XOR of 16-bit quarters of the tap digests (R359).
-/
namespace Sys2Proof.Laws

open Sys2Proof.Machine

/-! The late policy -/

theorem policyBits_of_applies (e : EventEntry) {fl : Nat} (h : policyApplies fl = true) :
    policyBits e fl = if e.maskPolicy then e.mask.toNat else 0 := if_pos h

theorem policyBits_of_not_applies (e : EventEntry) {fl : Nat} (h : policyApplies fl = false) :
    policyBits e fl = acceptBits e := if_neg (ne_true_of_eq_false h)

/-- A number of 0 spells zero bytes. -/
@[simp] theorem leBytes_zero (n : Nat) : leBytes n 0 = List.replicate n 0#8 := by
  simp [leBytes, List.map_const']

/-- Every feature word is 0 where R20 applies (R56). -/
theorem featureBytes_of_applies (s : State) (e : EventEntry) {fl : Nat} (n k : Nat) (h : policyApplies fl = true) :
    s.featureBytes e fl n k = List.replicate (2 * k) 0#8 := by
  simp only [State.featureBytes, h, if_true, leBytes_zero]
  rw [List.flatMap_def, List.map_const', List.length_range, List.flatten_replicate_replicate, Nat.mul_comm]

/-! The decision digest -/

theorem decisionDigest_of_applies {fl : Nat} (ds : List (Nat × Option (BitVec 64))) (h : policyApplies fl = true) :
    decisionDigest fl ds = 0 := by
  simp [decisionDigest, h]

/-- A tap without a valid digest leaves none for the decision (R359). -/
theorem decisionDigest_of_invalid_tap (fl : Nat) {ds : List (Nat × Option (BitVec 64))} (h : ∃ d ∈ ds, d.2 = none) :
    decisionDigest fl ds = 0 := by
  have hany : ds.any (fun d => d.2.isNone) = true := by simpa using h
  simp [decisionDigest, hany]

theorem foldQuarters_lt (d : BitVec 64) : foldQuarters d < 2 ^ 16 := by
  have hq : ∀ lo, bits d.toNat lo 16 < 2 ^ 16 := fun lo => Nat.mod_lt _ (Nat.two_pow_pos 16)
  exact Nat.xor_lt_two_pow (Nat.xor_lt_two_pow (hq 0) (hq 16)) (Nat.xor_lt_two_pow (hq 32) (hq 48))

/-- The XOR of numbers of `n` bits has `n` bits. -/
theorem foldl_xor_lt {α : Type} {n : Nat} {f : α → Nat} (hf : ∀ x, f x < 2 ^ n) (l : List α) {a : Nat} (ha : a < 2 ^ n) :
    l.foldl (fun a x => a ^^^ f x) a < 2 ^ n := by
  induction l generalizing a with
  | nil => exact ha
  | cons x l ih => exact ih (Nat.xor_lt_two_pow ha (hf x))

theorem decisionDigest_lt (fl : Nat) (ds : List (Nat × Option (BitVec 64))) : decisionDigest fl ds < 65536 := by
  have hd : ∀ d : Nat × Option (BitVec 64), d.2.elim 0 foldQuarters < 2 ^ 16 := by
    rintro ⟨i, _ | d⟩
    · exact Nat.two_pow_pos 16
    · exact foldQuarters_lt d
  unfold decisionDigest
  split
  · decide
  · exact foldl_xor_lt hd ds (Nat.two_pow_pos 16)

/-- Settles O36: one lemma for each part of the frame. -/
theorem latePolicyReplacesTheResult : Obligations.LatePolicyReplacesTheResult := fun e fl ds s n k =>
  ⟨fun h => ⟨policyBits_of_applies e h, featureBytes_of_applies s e n k h, decisionDigest_of_applies ds h⟩,
    policyBits_of_not_applies e, decisionDigest_of_invalid_tap fl, decisionDigest_lt fl ds⟩

end Sys2Proof.Laws
end

section
/-!
SUPPORT. The lifecycle and control commands (R27, R441-R447, R453): what each row comes to in a state in which its command
starts, and what an effect that is due does at its crossing.
-/
namespace Sys2Proof.Laws

open Sys2Proof.Machine

/-! The rows of queue commands -/

section
variable {q : Fin 16} {c : Cmd} {s : State}

theorem exec_identify (h : s.Starts 0x01 q anyLife c) (hsub : c.sub = 0) : exec (.identify q) s =
    done ((s.begun q c).finish c.id stOk
      ([Reg.HUB_ID, Reg.HUB_REV, Reg.HUB_FW_VER, Reg.HUB_SERIAL_LO, Reg.HUB_SERIAL_HI, Reg.HUB_IMG_ID].map (s.begun q c).view)) := by
  change execIdentify q s = _
  rw [execIdentify, command_starts h, if_neg (by simp [hsub])]

/-- The checks that WRITE_CONTROL makes of its operands before it writes or waits (R444). -/
theorem writeControl_accepted (hsub : c.sub = 0) {ps : List (Nat × Word)} (hps : ∀ e ∈ ps, pairOk e.1 = true) {far : Bool}
    (hfar : c.w64 0 ≠ 0 → far = true) : ¬(c.sub != 0 || !ps.all (fun e => pairOk e.1) || (c.w64 0 != 0 && !far)) = true := by
  have hall : ps.all (fun e => pairOk e.1) = true := List.all_eq_true.mpr hps
  by_cases hx : c.w64 0 = 0
  · simp [hsub, hall, hx]
  · simp [hsub, hall, hfar hx]

/-- A WRITE_CONTROL of crossing 0 writes at once (R444). -/
theorem exec_writeControl_now (h : s.Starts 0x03 q notBoot c) (hsub : c.sub = 0)
    (hps : ∀ e ∈ wordPairs (c.words.drop 2), pairOk e.1 = true) (hx : c.w64 0 = 0) : exec (.writeControl q) s =
    done (((s.begun q c).writePairs (wordPairs (c.words.drop 2))).finish c.id stOk
      [BitVec.ofNat 32 (wordPairs (c.words.drop 2)).length]) := by
  change execWriteControl q s = _
  rw [execWriteControl, command_starts h]
  dsimp only
  rw [if_neg (writeControl_accepted hsub hps fun hne => absurd hx hne), if_pos hx]

/-- One that names a crossing far enough ahead waits for it. -/
theorem exec_writeControl_later (h : s.Starts 0x03 q notBoot c) (hsub : c.sub = 0)
    (hps : ∀ e ∈ wordPairs (c.words.drop 2), pairOk e.1 = true) (hx : c.w64 0 ≠ 0)
    (hfar : (s.begun q c).farEnough (c.w64 0) = true) : exec (.writeControl q) s =
    done (((s.begun q c).addEffect ⟨c.w64 0, c.id, .writeControl (wordPairs (c.words.drop 2))⟩).wait c.id) := by
  change execWriteControl q s = _
  rw [execWriteControl, command_starts h]
  dsimp only
  rw [if_neg (writeControl_accepted hsub hps fun _ => hfar), if_neg hx]

theorem exec_arm (h : s.Starts 0x10 q [lifeLoaded] c) (hsub : c.sub = 0)
    (hlock : (s.begun q c).bit F.TIM_STATUS.pll_lock = true) (hfast : (s.begun q c).tooFast = false)
    (hfit : (s.begun q c).bit F.HUB_IMG_STAT.unfit = false) : exec (.arm q) s =
    done (((s.begun q c).enter lifeArmed).finish c.id stOk [((s.begun q c).enter lifeArmed).reg Reg.HUB_STATE]) := by
  change execArm q s = _
  rw [execArm, command_starts h, if_neg (by simp [hsub]), if_neg (by simp [hlock]), if_neg (by simp [hfast, hfit])]

/-- START_LIVE waits for the first crossing far enough ahead, and holds the engine until then (R446). -/
theorem exec_startLive (h : s.Starts 0x11 q [lifeArmed] c) (hsub : c.sub = 0)
    (hidle : (s.begun q c).bit F.TIM_STATUS.launch_pending = false) (hfit : (s.begun q c).bit F.HUB_IMG_STAT.unfit = false) :
    exec (.startLive q) s = done ((s.begun q c).addEffect ⟨(s.begun q c).firstFar, c.id, .startLive⟩) := by
  change execStartLive q s = _
  rw [execStartLive, command_starts h, if_neg (by simp [hsub]), if_neg (by simp [hidle]), if_neg (by simp [hfit])]

section
variable (h : s.Starts 0x12 q [lifeArmed, lifeLive, lifeReplay] c) (hsub : c.sub = 0)
include h hsub

theorem exec_drain_armed (hlife : (s.begun q c).life = lifeArmed) : exec (.drain q) s =
    done ((((s.begun q c).overtake 0).dropGraftSwitch.enter lifeLoaded).drained c) := by
  change execDrain q s = _
  rw [execDrain, command_starts h]
  dsimp only
  rw [if_neg (by simp [hsub]), if_neg (by rw [hlife]; decide), if_pos hlife]

theorem exec_drain_replay (hlife : (s.begun q c).life = lifeReplay) : exec (.drain q) s =
    done ((s.begun q c).drainReplay.drained c) := by
  change execDrain q s = _
  rw [execDrain, command_starts h]
  dsimp only
  rw [if_neg (by simp [hsub]), if_pos hlife]

/-- In LIVE a DRAIN waits for the crossing that it names, or for the first far enough ahead (R447). -/
theorem exec_drain_live (hlife : (s.begun q c).life = lifeLive) {x : Nat}
    (hx : (if c.w64 0 = 0 then (s.begun q c).firstFar else c.w64 0) = x) (hfar : (s.begun q c).farEnough x = true) :
    exec (.drain q) s = done (((s.begun q c).setCmd { c with progress := x, stage := .waiting }).addEffect
      ⟨x, c.id, .drain (c.w64 0 != 0)⟩).resume := by
  change execDrain q s = _
  rw [execDrain, command_starts h]
  dsimp only
  rw [hx, if_neg (by simp [hsub]), if_neg (by rw [hlife]; decide), if_neg (by rw [hlife]; decide), if_neg (by simp [hfar])]

end

/-- A MEASURE_REPORT whose record can be written answers its length (R453). -/
theorem exec_measureReport {n : Nat} {t : State} (h : s.Starts 0x48 q anyLife c) (hsub : c.sub = 0)
    (hrange : hostRange (c.w64 0) 336 = true) (hroom : 336 ≤ c.w 2)
    (hwrite : (s.begun q c).writeHost true (c.w64 0) (s.begun q c).measRecord = (n, none, t)) :
    exec (.measureReport q) s = done (t.finish c.id stOk [336]) := by
  change execMeasureReport q s = _
  rw [execMeasureReport, command_starts h]
  dsimp only
  rw [if_neg (by simp [hsub, hrange]), if_neg (Nat.not_lt.mpr hroom), hwrite]

end

/-! Effects at their crossing -/

/-- What is noted at a tick 0 differs from what is done there in the bits noted alone (R11). -/
theorem noting_frame (s : State) (f : State → State) : ∃ m, s.noting f = { f s with time := { (f s).time with fresh := m } } :=
  ⟨_, rfl⟩

theorem runStart_of_armed {s : State} (e : Effect) (h : s.life = lifeArmed) :
    s.runStart e = (s.enterLive e.cmd).finish e.cmd stOk (loHi e.crossing) := by
  simp [State.runStart, h]

/-- A START_LIVE that finds the device no longer ARMED is aborted. -/
theorem runStart_of_not_armed {s : State} (e : Effect) (h : s.life ≠ lifeArmed) :
    s.runStart e = s.finish e.cmd stAborted [] := by
  simp [State.runStart, h]

section
variable {s r : State} {e : Effect}

theorem exec_writeControlApply {ps : List (Nat × Word)} (h : s.takeDue isWriteControl = some (e, r)) (hk : e.kind = .writeControl ps) :
    exec .writeControlApply s = done (r.runWrites e ps) := by
  change execWriteControlApply s = _
  rw [execWriteControlApply, h]
  dsimp only
  rw [hk]

theorem exec_liveStart (hc : s.counts = true) (h : s.takeDue EffectKind.isStart = some (e, r)) :
    ∃ m, exec .liveStart s = done { r.runStart e with time := { (r.runStart e).time with fresh := m } } := by
  obtain ⟨m, hm⟩ := noting_frame r (fun s => s.runStart e)
  refine ⟨m, ?_⟩
  change execLiveStart s = _
  rw [execLiveStart, if_neg (by simp [hc]), h, ← hm]

theorem exec_drainApply (h : s.takeDue isDrain = some (e, r)) :
    ∃ m, exec .drainApply s = done { r.runDrain e with time := { (r.runDrain e).time with fresh := m } } := by
  obtain ⟨m, hm⟩ := noting_frame r (fun s => s.runDrain e)
  refine ⟨m, ?_⟩
  change execDrainApply s = _
  rw [execDrainApply, h, ← hm]

end

/-- Settles O55: one lemma for each row that starts a command, and one for each row at which an effect is due. -/
theorem lifecycleAndControlCommands : Obligations.LifecycleAndControlCommands := by
  intro q c s b
  refine ⟨exec_identify, fun h hsub hps => ⟨exec_writeControl_now h hsub hps, exec_writeControl_later h hsub hps⟩,
    fun e r ps => exec_writeControlApply, exec_arm, exec_startLive, fun e r hc h => ⟨fun hlife => ?_, fun hlife => ?_⟩,
    fun h hsub => ⟨exec_drain_armed h hsub, exec_drain_replay h hsub, fun hlife => exec_drain_live h hsub hlife rfl⟩,
    fun e r => exec_drainApply, fun n t h => exec_measureReport h⟩
  · rw [← runStart_of_armed e hlife]
    exact exec_liveStart hc h
  · rw [← runStart_of_not_armed e hlife]
    exact exec_liveStart hc h

end Sys2Proof.Laws
end

section
/-!
SUPPORT. The counters (R31, R34, R35, R42, R48): a spool tick, the idle step that is one, and the crossing counter's way through an orbit.
-/
namespace Sys2Proof.Laws

open Sys2Proof.Machine

/-! The spool tick -/

/-- The time unit one tick later, where the frames of tick 0 do not change it. -/
def tickedTime (s : State) : Time := { s.time with
  spool := wrap64 (s.time.spool + 1)
  wallAcc := (s.time.wallAcc + s.wide Reg.TIM_WALL_RATE_LO) % 2 ^ 64
  wallSec := (s.time.wallSec + (s.time.wallAcc + s.wide Reg.TIM_WALL_RATE_LO) / 2 ^ 64) % 2 ^ 48 }

/-- The frames of a crossing leave once (R16). -/
theorem releaseFrames_of_left {s : State} (h : s.decision.lastRelease = some s.xindex) : s.releaseFrames = s := by
  simp [State.releaseFrames, h]

/-- What a tick samples changes the line's register and the decision unit alone (R238, R242). -/
theorem samples_frame (s : State) (a b : Bool) : ∃ r d,
    State.when (s.when a (fun s => s.setFld F.DEC_SYNC_STAT.line (b2n s.syncN))) b State.sampleVeto =
      { s with regs := r, decision := d } := by
  cases a <;> cases b <;> exact ⟨_, _, rfl⟩

/-- A tick once the frames of its crossing have left: time goes on, SYNC_N and VETO_N are sampled, nothing else changes. -/
theorem tick_frame {s : State} (h : s.time.spool % 32 ≠ 0 ∨ s.decision.lastRelease = some s.xindex) :
    ∃ r d, s.tick = { s with time := tickedTime s, regs := r, decision := d } := by
  have hleft : s.when (s.time.spool % 32 == 0) State.releaseFrames = s := by
    unfold State.when
    split
    · next h0 => exact releaseFrames_of_left (h.resolve_left (by simpa using h0))
    · rfl
  have htime : { (s.runWall 1) with time := { (s.runWall 1).time with spool := wrap64 ((s.runWall 1).time.spool + 1) } } =
      { s with time := tickedTime s } := by
    simp [State.runWall, tickedTime]
  unfold State.tick
  rw [hleft]
  dsimp only
  rw [htime]
  obtain ⟨r, d, hs⟩ := samples_frame { s with time := tickedTime s } _ _
  exact ⟨r, d, hs⟩

/-- The time after such a tick. -/
theorem tick_time {s : State} (h : s.time.spool % 32 ≠ 0 ∨ s.decision.lastRelease = some s.xindex) : s.tick.time = tickedTime s := by
  obtain ⟨r, d, e⟩ := tick_frame h
  rw [e]

/-! The idle step (log 5) -/

theorem postAllMsix_of_none {s : State} (h : s.msix.due = []) : s.postAllMsix = s := by
  rw [State.postAllMsix, h]
  change { s with msix := { s.msix with due := [] } } = s
  rw [← h]

/-- An idle step passes a tick exactly while the counters run inside a crossing. -/
theorem step_idle {s : State} (h : s.pending = []) : step s =
    done (State.postAllMsix (if s.counts && !s.time.relock && s.time.spool % 32 < 31 then s.tick else s)) := by
  rw [step, h]
  rfl

/-- Settles O2: the idle step is a case split on whether the counters run inside a crossing; a tick is `tick_frame`. -/
theorem idleStepIsOneTick : Obligations.IdleStepIsOneTick := by
  intro s
  refine ⟨fun hp hst hh hr hlt => ?_, fun hp h => ?_, postAllMsix_of_none, fun h hmax => ?_⟩
  · rw [step_idle hp, if_pos (by simp [State.counts, hst, hh, hr, hlt])]
    rfl
  · rw [step_idle hp, if_neg]
    · rfl
    · simp only [State.counts, Bool.and_eq_true, Bool.not_eq_true', decide_eq_true_eq]
      rintro ⟨⟨⟨hst, hh⟩, hr⟩, hlt⟩
      rcases h with h | h | h | h
      · simp [hst] at h
      · simp [hh] at h
      · simp [hr] at h
      · omega
  · obtain ⟨r, d, e⟩ := tick_frame h
    rw [e]
    exact ⟨by rw [tickedTime, wrap64, Nat.mod_eq_of_lt hmax], rfl, rfl, rfl, rfl, rfl, rfl, rfl⟩

/-! The crossing counter -/

/-- k crossings on from crossing 0, inside the orbit. -/
theorem repeat_next_inside {c : Counter} (h0 : c.crossing = 0) {k : Nat} (hk : k < c.len) :
    Nat.repeat Counter.next k c = { c with crossing := k } := by
  induction k with
  | zero => rw [Nat.repeat, ← h0]
  | succ k ih =>
    have hin : ¬ c.len ≤ k + 1 := by omega
    simp [Nat.repeat, ih (by omega), Counter.next, Counter.atEnd, hin]

/-- Settles O11: the two branches of `Counter.next`, and an induction over the crossings of an orbit. -/
theorem counterRunsThroughTheOrbit : Obligations.CounterRunsThroughTheOrbit := by
  refine ⟨fun c h => ?_, fun c h => ?_, fun c k h0 hk => repeat_next_inside h0 hk⟩
  · have hin : ¬ c.len ≤ c.crossing + 1 := by omega
    simp [Counter.next, Counter.atEnd, hin]
  · have hnext : c.next = ⟨c.reload, c.nextLen, none, none⟩ := by simp [Counter.next, Counter.atEnd, h]
    rw [hnext]
    exact ⟨rfl, rfl, rfl, fun hr => by simp [Counter.reload, hr], fun m hr => by simp [Counter.reload, Counter.nextLen, hr]⟩

end Sys2Proof.Laws
end

section
/-!
SUPPORT. MCLK, orbit boundaries and the ORBIT marker (R31-R43, R73): what each row comes to in the states that its statement names.
-/
namespace Sys2Proof.Laws

open Sys2Proof.Machine

/-! Conditions on the state -/

theorem counts_of_running {s : State} (hst : s.time.started = true) (hh : s.time.held = false) : s.counts = true := by
  simp [State.counts, hst, hh]

theorem not_counts_of_held {s : State} (hh : s.time.held = true) : s.counts = false := by
  simp [State.counts, hh]

/-- A write of a field outside HUB_STATE leaves the lifecycle state. -/
theorem life_setFld (s : State) {f : Fld} (v : Nat) (h : f.off ≠ F.HUB_STATE.state.off) : (s.setFld f v).life = s.life :=
  fld_setFld_off s f _ v h

theorem liveOrDraining_of_life {s t : State} (h : t.life = s.life) : t.liveOrDraining = s.liveOrDraining := by
  rw [State.liveOrDraining, State.liveOrDraining, h]

/-! Register updates and updates of the time unit commute -/

theorem setFld_withTime (s : State) (t : Time) (f : Fld) (v : Nat) :
    State.setFld { s with time := t } f v = { s.setFld f v with time := t } := rfl

theorem raise_withTime (s : State) (t : Time) (f : Fld) : State.raise { s with time := t } f = { s.raise f with time := t } :=
  setFld_withTime s t f 1

theorem satInc_withTime (s : State) (t : Time) (f : Fld) : State.satInc { s with time := t } f = { s.satInc f with time := t } :=
  setFld_withTime s t f _

/-! MCLK (R31, R32, R73) -/

section
variable {s : State}

theorem exec_pllLock_first (hb : s.power.boot ≠ 0) (hh : s.time.held = true) (hst : s.time.started = false) :
    exec .pllLock s = done (State.raise { s with time := { s.time with
      held := false, started := true, spool := 0, crossing := 0, orbit := 0 } } F.TIM_STATUS.pll_lock) := by
  change execPllLock s = _
  simp [execPllLock, hb, hh, hst]

theorem exec_pllLock_later (hb : s.power.boot ≠ 0) (hh : s.time.held = true) (hst : s.time.started = true) :
    exec .pllLock s = done (State.raise { s with time := { s.time with held := false, relock := true } } F.TIM_STATUS.pll_lock) := by
  change execPllLock s = _
  simp [execPllLock, hb, hh, hst]

theorem abortLaunch_of_none (h : s.time.launch = none) : s.abortLaunch = s := by
  rw [State.abortLaunch, h]

theorem endAlign_of_none (h : s.time.align = none) (st : Nat) (ws : List Word) : s.endAlign st ws = s := by
  rw [State.endAlign, h]

/-- With no launch and no alignment waiting, outside LIVE and DRAINING, a loss of MCLK ends nothing (R73). -/
theorem mclkLoss_ends_nothing (hlive : s.liveOrDraining = false) (hl : s.time.launch = none) (ha : s.time.align = none) :
    (s.abortLaunch.endAlign stAborted []).when (s.abortLaunch.endAlign stAborted []).liveOrDraining (fun s => s.enterFault 1) = s := by
  rw [abortLaunch_of_none hl, endAlign_of_none ha, hlive]
  rfl

/-- Loss of MCLK outside LIVE and DRAINING holds the counters and changes TIM_STATUS (R32). -/
theorem mclkLoss_outside (hlive : s.liveOrDraining = false) (hl : s.time.launch = none) (ha : s.time.align = none) :
    s.mclkLoss = { (s.raise F.TIM_STATUS.mclk_loss).lower F.TIM_STATUS.pll_lock with
      time := { s.time with held := true, relock := false } } := by
  have hlife : ((s.raise F.TIM_STATUS.mclk_loss).lower F.TIM_STATUS.pll_lock).life = s.life :=
    (life_setFld _ 0 (by decide)).trans (life_setFld s 1 (by decide))
  have htime : ((s.raise F.TIM_STATUS.mclk_loss).lower F.TIM_STATUS.pll_lock).time = s.time := by simp
  rw [← htime] at hl ha ⊢
  rw [← liveOrDraining_of_life hlife] at hlive
  rw [State.mclkLoss]
  generalize (s.raise F.TIM_STATUS.mclk_loss).lower F.TIM_STATUS.pll_lock = r at *
  exact mclkLoss_ends_nothing (s := { r with time := { r.time with held := true, relock := false } }) hlive hl ha

end

/-- Settles O10: the branches of PLL_LOCK and MCLK_LOSS; MCLK_FREQ_MEASURE is a loss exactly outside its range. -/
theorem lockStartsOrResumesTheCount : Obligations.LockStartsOrResumesTheCount := by
  intro s
  refine ⟨exec_pllLock_first, exec_pllLock_later, fun hlive hl ha => ?_, fun khz => ⟨fun hlo hhi => ?_, fun hout => ?_⟩⟩
  · change done s.mclkLoss = _
    rw [mclkLoss_outside hlive hl ha]
    rfl
  · change done (State.when _ _ _) = _
    rw [State.when, if_neg (by simp; omega)]
    rfl
  · change done (State.when _ _ _) = _
    rw [State.when, if_pos (by simpa using hout)]
    rfl

/-! Crossings and orbit boundaries (R34, R35, R42) -/

theorem raiseWhen_regs (s : State) (b : Bool) (f : Fld) : ∃ r, s.when b (fun s => s.raise f) = { s with regs := r } := by
  cases b
  · exact ⟨_, rfl⟩
  · exact setFld_regs s f 1

/-- Over an orbit boundary the counters step, and registers change. -/
theorem stepOrbit_frame (s : State) : ∃ r, s.stepOrbit = { s with regs := r, time := { s.time with
    crossing := s.counter.next.crossing, orbit := (s.time.orbit + 1) % 2 ^ 32, lenPending := none, resync := none
    boundaryDone := true } } := by
  rw [State.stepOrbit]
  dsimp only
  obtain ⟨r₁, h₁⟩ := raiseWhen_regs s s.counter.resync.isSome F.TIM_STATUS.orbit_resync
  rw [h₁]
  obtain ⟨r₂, h₂⟩ := raiseWhen_regs { s with regs := r₁ } (s.time.orbit + 1 == 2 ^ 32) F.TIM_STATUS.orbit_wrap
  rw [h₂]
  obtain ⟨r₃, h₃⟩ := setFld_regs { s with regs := r₂ } F.TIM_ORBIT_LEN.len s.counter.nextLen
  rw [h₃]
  exact ⟨r₃, rfl⟩

section
variable {s : State}

theorem exec_crossingStart_held (h : s.time.held = true) : exec .crossingStart s = done s :=
  congrArg done (if_neg (by simp [not_counts_of_held h]))

theorem exec_crossingStart_running (h : s.counts = true) : exec .crossingStart s = done s.closeCrossing.stepCrossing :=
  congrArg done (if_pos h)

theorem exec_orbitBoundary_held (h : s.time.held = true) : exec .orbitBoundary s = done s :=
  congrArg done (if_neg (by simp [State.boundaryAhead, not_counts_of_held h]))

theorem exec_orbitBoundary_ahead (h : s.boundaryAhead = true) :
    ∃ m, exec .orbitBoundary s = done { s.orbitBoundary with time := { s.orbitBoundary.time with fresh := m } } := by
  obtain ⟨m, hm⟩ := noting_frame s State.orbitBoundary
  exact ⟨m, congrArg done ((if_pos h).trans hm)⟩

/-- The boundary is ahead in the last crossing of a running orbit whose boundary has not come. -/
theorem boundaryAhead_of_last (hc : s.counts = true) (hd : s.time.boundaryDone = false)
    (hl : s.fld F.TIM_ORBIT_LEN.len ≤ s.time.crossing + 1) : s.boundaryAhead = true := by
  simp [State.boundaryAhead, Counter.atEnd, State.counter, hc, hd, hl]

theorem exec_timOrbitLenWrite (h : s.up = true) (v : Word) : exec (.timOrbitLenWrite v) s = done (s.writeOrbitLen v) :=
  congrArg done (if_pos h)

end

/-- Settles O12: the guards of the three rows; `stepOrbit_frame` is what a boundary does to the counters. -/
theorem crossingsStartAndOrbitsEnd : Obligations.CrossingsStartAndOrbitsEnd := by
  intro s
  refine ⟨fun hst hh => exec_crossingStart_running (counts_of_running hst hh),
    fun hh => ⟨exec_crossingStart_held hh, exec_orbitBoundary_held hh⟩,
    fun hst hh hd hl => exec_orbitBoundary_ahead (boundaryAhead_of_last (counts_of_running hst hh) hd hl), ?_,
    fun v hup => ⟨fun hv => ?_, fun hv => ?_⟩⟩
  · obtain ⟨r, e⟩ := stepOrbit_frame s
    rw [e]
    exact ⟨rfl, rfl, rfl, rfl⟩
  · rw [exec_timOrbitLenWrite hup, State.writeOrbitLen]
    exact congrArg done (if_neg hv)
  · rw [exec_timOrbitLenWrite hup, State.writeOrbitLen]
    exact congrArg done (if_pos hv)

/-! The ORBIT marker (R38-R43) -/

/-- The sample before was high: the marker of this crossing or of the one before (R38). -/
theorem markerHigh_iff (s : State) : s.markerHigh = true ↔
    s.time.lastMarker = some s.xindex ∨ ∃ k, s.time.lastMarker = some k ∧ (k + 1) % 2 ^ 59 = s.xindex := by
  unfold State.markerHigh
  cases s.time.lastMarker with
  | none => simp
  | some k => simp

section
variable {s : State}

theorem exec_orbitMarkerSeen_high (h : s.markerHigh = true) : exec .orbitMarkerSeen s = done s :=
  congrArg done (if_pos (by simp [h]))

/-- A marker that rises while no TIME_ALIGN waits is on period or a slip. -/
theorem exec_orbitMarkerSeen_rise (hc : s.counts = true) (ho : s.orbitOn = true) (hm : s.markerHigh = false)
    (ha : s.time.align = none) : exec .orbitMarkerSeen s = done s.classMarker := by
  change execOrbitMarkerSeen s = _
  rw [execOrbitMarkerSeen, if_neg (by simp [hc, ho, hm]), ha]

theorem classMarker_onPeriod (h : s.time.crossing = 0) :
    s.classMarker = { s with time := { s.time with lastMarker := some s.xindex } } := if_pos h

theorem classMarker_slip (h : s.time.crossing ≠ 0) : s.classMarker =
    { ((s.raise F.TIM_STATUS.orbit_slip).setFld F.TIM_ORBIT_SLIP.slip_crossing s.time.crossing).satInc F.TIM_ORBIT_SLIP.slip_count
      with time := { s.time with lastMarker := some s.xindex, offSeen := true, resync := some s.time.crossing } } := by
  rw [State.classMarker]
  dsimp only
  rw [if_neg h, raise_withTime, setFld_withTime, satInc_withTime]

end

/-- Settles O13: a marker seen is a case of `classMarker`, or none; a missing one is the guard of its row. -/
theorem markersSlipOrMiss : Obligations.MarkersSlipOrMiss := by
  intro s hst hh ho
  have hc := counts_of_running hst hh
  refine ⟨fun ha hm h0 => ?_, fun ha hm h0 => ?_, fun h => exec_orbitMarkerSeen_high ((markerHigh_iff s).mpr h),
    fun h0 hoff hl hm => congrArg done (if_pos ?_), fun h => congrArg done (if_neg ?_)⟩
  · rw [exec_orbitMarkerSeen_rise hc ho hm ha, classMarker_onPeriod h0]
    rfl
  · rw [exec_orbitMarkerSeen_rise hc ho hm ha, classMarker_slip h0]
    rfl
  · simp [hc, ho, h0, hoff, hl, hm]
  · rcases h with h | h | h | h <;> simp [h]

end Sys2Proof.Laws
end

section
/-!
SUPPORT. TIME_ALIGN and SCHEDULE_LAUNCH (R50, R52, R70-R72): what each row comes to, and where the counters stand after an alignment.
-/
namespace Sys2Proof.Laws

open Sys2Proof.Machine

/-! The rows of the queue commands -/

section
variable {q : Fin 16} {c : Cmd} {s : State}

theorem exec_timeAlign (h : s.Starts 0x38 q [lifeSafe, lifeLoaded, lifeArmed] c) (hsub : c.sub = 0) (hw : c.w64 0 % 32 = 0)
    (ho : (s.begun q c).orbitOn = true) (hl : (s.begun q c).bit F.TIM_STATUS.launch_pending = false)
    (ha : (s.begun q c).time.align = none) : exec (.timeAlign q) s =
    done (State.wait { (s.begun q c).raise F.TIM_STATUS.align_pending with time := { (s.begun q c).time with
      align := some ⟨c.w64 0, c.w 2, (s.begun q c).xindex, c.id, 2 * (s.begun q c).fld F.TIM_ORBIT_LEN.len + 2⟩ } } c.id) := by
  change execTimeAlign q s = _
  have hlen : ((s.begun q c).raise F.TIM_STATUS.align_pending).fld F.TIM_ORBIT_LEN.len = (s.begun q c).fld F.TIM_ORBIT_LEN.len :=
    fld_setFld_off _ _ _ _ (by decide)
  rw [execTimeAlign, command_starts h]
  dsimp only
  rw [if_neg (by simp [hsub, hw, ho]), if_neg (by simp [hl, ha]), hlen]
  rfl

theorem exec_scheduleLaunch (h : s.Starts 0x39 q [lifeArmed] c) (hsub : c.sub = 0) (hw : c.w64 0 % 32 = 0)
    (hfar : (s.begun q c).time.spool + 64 ≤ c.w64 0) (hl : (s.begun q c).bit F.TIM_STATUS.launch_pending = false) :
    exec (.scheduleLaunch q) s = done (State.accept
      { ((s.begun q c).raise F.TIM_STATUS.launch_pending).setWide Reg.TIM_LAUNCH_COUNT_LO (c.w64 0) with
        time := { (s.begun q c).time with launch := some (c.w64 0, c.id) } } c.id (loHi (c.w64 0))) := by
  change execScheduleLaunch q s = _
  rw [execScheduleLaunch, command_starts h]
  dsimp only
  rw [if_neg (by simp [hsub, hw, hfar]), if_neg (by simp [hl])]
  rfl

end

/-! The launch (R52) -/

theorem exec_launch_due {s : State} {l : Nat × Nat} (h : s.launchDue = some l) :
    ∃ m, exec .launch s = done { s.launchNow l with time := { (s.launchNow l).time with fresh := m } } := by
  obtain ⟨m, hm⟩ := noting_frame s (fun s => s.launchNow l)
  refine ⟨m, ?_⟩
  change execLaunch s = _
  rw [execLaunch, h, ← hm]
  rfl

theorem exec_launch_none {s : State} (h : s.launchDue = none) : exec .launch s = done s := by
  change execLaunch s = _
  rw [execLaunch, h]
  rfl

/-! The marked crossing (R50, R70) -/

/-- Updates of lanes leave the time unit. -/
theorem foldl_lanes_time (p : State → Nat → Bool) (g : State → Nat → Lane) (l : List Nat) (s : State) :
    (l.foldl (fun s n => if p s n then s else s.setLane n (g s n)) s).time = s.time := by
  induction l generalizing s with
  | nil => rfl
  | cons n l ih =>
    rw [List.foldl_cons, ih]
    split
    · rfl
    · exact State.setLane_time s n _

/-- A load of the count moves the acceptance of a TIME_ALIGN, and nothing else of the time unit. -/
theorem renumber_time (s : State) (old x : Nat) : (s.renumber old x).time =
    { s.time with align := s.time.align.map (fun w => { w with accepted := movedIndex old x w.accepted }) } := by
  have h := foldl_lanes_time (fun s n => decide ((s.lane n).joinFrom = 0)) (fun s n => { s.lane n with joinFrom := 0 })
    (List.range 96) s
  simp only [decide_eq_true_eq] at h
  rw [State.renumber]
  dsimp only
  rw [h]

/-- The counters after an alignment: spool count S at the tick within the crossing, crossing 0 of orbit O, nothing pending. -/
theorem alignTo_counters (s : State) (w : AlignWait) : (s.alignTo w).time.spool = (w.spool + s.time.spool % 32) % 2 ^ 64 ∧
    (s.alignTo w).time.crossing = 0 ∧ (s.alignTo w).time.orbit = w.orbit ∧ (s.alignTo w).time.resync = none ∧
    (s.alignTo w).time.lenPending = none := by
  rw [State.alignTo]
  dsimp only
  rw [renumber_time]
  exact ⟨rfl, rfl, rfl, rfl, rfl⟩

section
variable {s : State} {w : AlignWait}

/-- A TIME_ALIGN takes a marker of the crossings after its acceptance up to its limit, which rises there (R38, R50). -/
theorem alignOpen_of (hc : s.counts = true) (ho : s.orbitOn = true) (hm : s.markerHigh = false) (h0 : s.sinceAlign w ≠ 0)
    (hle : s.sinceAlign w ≤ w.limit) : s.alignOpen w = true := by
  simp [State.alignOpen, hc, ho, hm, h0, hle]

theorem exec_timeAlignMark_open (ha : s.time.align = some w) (h : s.alignOpen w = true) :
    exec .timeAlignMark s = done (s.markAlign w) := by
  change execTimeAlignMark s = _
  rw [execTimeAlignMark, ha]
  exact congrArg done (if_pos h)

theorem exec_timeAlignMark_shut (ha : s.time.align = some w) (h : s.alignOpen w = false) : exec .timeAlignMark s = done s := by
  change execTimeAlignMark s = _
  rw [execTimeAlignMark, ha]
  exact congrArg done (if_neg (by simp [h]))

theorem exec_orbitMarkerSeen_align (ha : s.time.align = some w) (hc : s.counts = true) (ho : s.orbitOn = true)
    (hm : s.markerHigh = false) (h : s.alignOpen w = true) : exec .orbitMarkerSeen s = done (s.markAlign w) := by
  change execOrbitMarkerSeen s = _
  rw [execOrbitMarkerSeen, if_neg (by simp [hc, ho, hm]), ha]
  exact congrArg done (if_pos h)

/-- The load of the counters outside LIVE, and the completion that answers the crossing that was marked. -/
theorem markAlign_outside_live (hl : s.life ≠ lifeLive) : s.markAlign w =
    (((((s.setFld F.TIM_ORBIT_LEN.len s.counter.nextLen).alignTo w).boundaryWork (w.spool / 32)
      (fun u => u.pruneBoundary w.orbit 0 (w.spool / 32))).followCount (w.spool / 32 + 1)).loadCount (w.spool / 32)).endAlign stOk
      (loHi (32 * s.xindex)) := by
  have hlive : s.when (s.life == lifeLive) State.deriveScales = s := if_neg (by simpa using hl)
  rw [State.markAlign, hlive]

/-- The sample of the last crossing is past: the TIME_ALIGN ends as aborted. -/
theorem exec_timeAlignTimeout_past (ha : s.time.align = some w)
    (h : w.limit < s.sinceAlign w ∨ w.limit = s.sinceAlign w ∧ 16 ≤ s.time.spool % 32) :
    exec .timeAlignTimeout s = done (s.endAlign stAborted []) := by
  change done s.timeoutAlign = _
  rw [State.timeoutAlign, ha]
  exact congrArg done (if_pos (by
    simp only [Bool.or_eq_true, Bool.and_eq_true, decide_eq_true_eq, beq_iff_eq]
    omega))

/-- It is yet to come: nothing happens. -/
theorem exec_timeAlignTimeout_ahead (ha : s.time.align = some w)
    (h : s.sinceAlign w < w.limit ∨ s.sinceAlign w = w.limit ∧ s.time.spool % 32 < 16) : exec .timeAlignTimeout s = done s := by
  change done s.timeoutAlign = _
  rw [State.timeoutAlign, ha]
  exact congrArg done (if_neg (by
    simp only [Bool.or_eq_true, Bool.and_eq_true, decide_eq_true_eq, beq_iff_eq]
    omega))

end

/-- Settles O16: one lemma for each row and branch; the mark is the same load whichever row brings it. -/
theorem alignAndLaunchCommands : Obligations.AlignAndLaunchCommands := by
  intro q c s
  refine ⟨exec_timeAlign, exec_scheduleLaunch, fun l h => ?_, exec_launch_none, alignTo_counters s, fun w ha =>
    ⟨exec_timeAlignTimeout_past ha, exec_timeAlignTimeout_ahead ha, exec_timeAlignMark_shut ha, fun hc ho hm h0 hle hlife => ?_⟩⟩
  · obtain ⟨m, hm⟩ := exec_launch_due h
    exact ⟨s.launchNow l, m, rfl, hm⟩
  · have hopen := alignOpen_of hc ho hm h0 hle
    refine ⟨_, rfl, ?_, ?_⟩
    · rw [exec_timeAlignMark_open ha hopen, markAlign_outside_live hlife]
      rfl
    · rw [exec_orbitMarkerSeen_align ha hc ho hm hopen, markAlign_outside_live hlife]
      rfl

end Sys2Proof.Laws
end

section
/-!
SUPPORT. Results, digest pieces and the release of what is due (R56, R234-R236, R358): what the three rows come to.
-/
namespace Sys2Proof.Laws

open Sys2Proof.Machine

section
variable {s : State}

theorem unstalled_of_stalled (h : s.stalled = true) (t : State) : unstalled s t = done s := congrArg done (if_pos h)

theorem unstalled_of_not_stalled (h : s.stalled = false) (t : State) : unstalled s t = done t :=
  congrArg done (if_neg (by simp [h]))

/-! Results (R234) -/

theorem resultArrival_to_end {die : Nat} {ts : List Token} {n : Nat}
    (hts : (s.trellis.flight.filter (fun f => f.dest == .decision die)).map (fun f => f.tok) = ts)
    (hn : ts.findIdx? (fun t => t.isCtl 1) = some n) : s.resultArrival die =
    State.completeReplay ((ts.take (n + 1)).foldl (fun s t => s.takeResultToken die t)
      (Nat.repeat (fun s => (s.takeFlight (.decision die)).elim s (fun r => r.2)) (n + 1) s)) := by
  rw [State.resultArrival, hts, hn]
  rfl

/-- Nothing arrives while no EVENT_END is on its way. -/
theorem resultArrival_no_end {die : Nat} {ts : List Token}
    (hts : (s.trellis.flight.filter (fun f => f.dest == .decision die)).map (fun f => f.tok) = ts)
    (hn : ts.findIdx? (fun t => t.isCtl 1) = none) : s.resultArrival die = s.completeReplay := by
  rw [State.resultArrival, hts, hn]
  rfl

/-! Digest pieces (R358) -/

theorem tapPiece_of_event {p : Piece} {rest : List Piece} {e : EventEntry} (hp : s.trellis.pieces = p :: rest)
    (hs : p.ev.shadow = false) (he : s.events.find? (fun e => e.index == p.ev.index) = some e) :
    s.tapPiece = State.setEvent { s with trellis := { s.trellis with pieces := rest } } { e with taps := joinPiece e.taps p } := by
  rw [State.tapPiece, hp]
  dsimp only
  rw [if_neg (by simp [hs]), he]

/-! The frames of a crossing (R56, R235, R236) -/

theorem releaseFrames_not_running (h : s.time.held = true ∨ s.time.started = false) : s.releaseFrames = s :=
  if_pos (by rcases h with h | h <;> simp [h])

theorem releaseFrames_of_due (hh : s.time.held = false) (hst : s.time.started = true)
    (hl : s.decision.lastRelease ≠ some s.xindex) :
    let r := { s.decideDue with decision := { s.decideDue.decision with lastRelease := some s.xindex } }
    let due := if r.liveOrDraining then r.events.filter (fun e => e.cut == r.xindex) else []
    s.releaseFrames = State.drainDone (due.foldl State.releaseEvent
      ((List.range 8).foldl (fun s n => if !s.laneSends n then s.idleLane n
        else if due.any (fun e => nbit (s.fld (F.DEC_LANE_CFG.tags n)) e.tag) then s
        else s.sendFrame n (s.emptyFrame n)) r)) :=
  if_neg (by simp [hh, hst, hl])

end

/-- Settles O37: the stalled and the running form of each row, and the release once per crossing. -/
theorem resultsAndReleases : Obligations.ResultsAndReleases := by
  intro die s
  refine ⟨fun ts n hs hts hn => ?_, fun ts hs hts hn => ?_, fun hs => ⟨unstalled_of_stalled hs _, unstalled_of_stalled hs _⟩,
    fun p rest e hs hp hsh he => ?_, fun h => congrArg done (releaseFrames_not_running h),
    fun h => congrArg done (releaseFrames_of_left h), fun hh hst hl => congrArg done (releaseFrames_of_due hh hst hl)⟩
  · change unstalled s (s.resultArrival die) = _
    rw [unstalled_of_not_stalled hs, resultArrival_to_end hts hn, done]
  · change unstalled s (s.resultArrival die) = _
    rw [unstalled_of_not_stalled hs, resultArrival_no_end hts hn, done]
  · change unstalled s s.tapPiece.completeReplay = _
    rw [unstalled_of_not_stalled hs, tapPiece_of_event hp hsh he, done]

end Sys2Proof.Laws
end

section
/-!
SUPPORT. The slack governor and AVSBus (R60-R64, R536, R537, R545): one rule for each operation on a governor, and what a period and a
transaction come to.
-/
namespace Sys2Proof.Laws

open Sys2Proof.Machine

/-! A governor after each update -/

@[simp] theorem gov_setGov_same (s : State) (p : Nat) (g : Gov) : (s.setGov p g).gov p = g := tget_tset_same _ _ _ _

theorem gov_setGov_ne (s : State) {p k : Nat} (g : Gov) (h : k ≠ p) : (s.setGov p g).gov k = s.gov k :=
  tget_tset_ne _ _ _ h.symm

@[simp] theorem gov_setFld (s : State) (f : Fld) (v k : Nat) : (s.setFld f v).gov k = s.gov k := rfl

@[simp] theorem gov_raise (s : State) (f : Fld) (k : Nat) : (s.raise f).gov k = s.gov k := rfl

@[simp] theorem gov_satInc (s : State) (f : Fld) (k : Nat) : (s.satInc f).gov k = s.gov k := rfl

@[simp] theorem bit_setGov (s : State) (p : Nat) (g : Gov) (f : Fld) : (s.setGov p g).bit f = s.bit f := rfl

theorem fld_raise_same (s : State) {f : Fld} (hf : Fits f) (hw : f.width ≠ 0) : (s.raise f).fld f = 1 :=
  (fld_setFld_same s f hf 1).trans (Nat.mod_eq_of_lt (Nat.one_lt_two_pow hw))

/-! A voltage write (R64, log 22) -/

theorem avsWrite_free {s : State} {p : Nat} (v : Nat) (h : (s.gov p).writing = none) : s.avsWrite p v =
    (s.setGov p { s.gov p with volt := v, writing := some v, due := none }).setFld (F.TIM_GOV_STAT.vset p) v :=
  if_neg (by simp [h])

theorem avsWrite_busy {s : State} {p : Nat} (v : Nat) (h : (s.gov p).writing ≠ none) : s.avsWrite p v =
    s.setGov p { s.gov p with volt := v, due := some v } :=
  if_pos (Option.isSome_iff_ne_none.mpr h)

/-- A voltage write changes registers and governors alone. -/
theorem avsWrite_frame (s : State) (p v : Nat) : ∃ r gs, s.avsWrite p v = { s with regs := r, govs := gs } := by
  by_cases h : (s.gov p).writing = none
  · rw [avsWrite_free v h]
    exact ⟨_, _, rfl⟩
  · rw [avsWrite_busy v h]
    exact ⟨s.regs, _, rfl⟩

/-- It changes no other governor. -/
theorem gov_avsWrite_ne (s : State) {p k : Nat} (v : Nat) (h : k ≠ p) : (s.avsWrite p v).gov k = s.gov k := by
  by_cases hw : (s.gov p).writing = none
  · rw [avsWrite_free v hw, gov_setFld, gov_setGov_ne s _ h]
  · rw [avsWrite_busy v hw, gov_setGov_ne s _ h]

/-- The law's voltage stands, and a voltage that waits or is under way is that voltage. -/
theorem gov_avsWrite (s : State) (p v : Nat) : ((s.avsWrite p v).gov p).volt = v ∧
    ((s.avsWrite p v).gov p).quiet = (s.gov p).quiet ∧
    ((s.gov p).writing = none → ((s.avsWrite p v).gov p).writing = some v ∧ ((s.avsWrite p v).gov p).due = none) ∧
    ((s.gov p).writing ≠ none → ((s.avsWrite p v).gov p).writing = (s.gov p).writing ∧ ((s.avsWrite p v).gov p).due = some v) := by
  by_cases h : (s.gov p).writing = none
  · rw [avsWrite_free v h]
    simp [h]
  · rw [avsWrite_busy v h]
    simp [h]

/-! The clamp (R62, R545) -/

/-- The bottom of the clamp. -/
def vbot (s : State) (p : Nat) : Nat := min (s.fld (F.TIM_GOV_LIMIT.vmin p)) (s.vtop p)

/-- The law's voltage inside the clamp. -/
def clampedVolt (s : State) (p : Nat) (x : Option Int) : Nat := (max (vbot s p : Int) (min (s.vtop p : Int) (s.govLaw p x).1)).toNat

theorem clampedVolt_le (s : State) (p : Nat) (x : Option Int) : clampedVolt s p x ≤ s.vtop p := by
  have : vbot s p ≤ s.vtop p := Nat.min_le_right _ _
  unfold clampedVolt
  omega

theorem le_clampedVolt (s : State) (p : Nat) (x : Option Int) : vbot s p ≤ clampedVolt s p x := by
  unfold clampedVolt
  omega

/-- With no valid windsock the law asks for the top (R62). -/
theorem clampedVolt_none (s : State) (p : Nat) : clampedVolt s p none = s.vtop p := by
  have hbot : vbot s p ≤ s.vtop p := Nat.min_le_right _ _
  have hlaw : (s.govLaw p none).1 = s.vtop p := rfl
  unfold clampedVolt
  rw [hlaw]
  omega

/-! Noting the least slack -/

/-- The least slack of a period is noted in registers alone, in none but the two that show it. -/
theorem noteSlack_frame (s : State) (p : Nat) (x : Option Int) : ∃ r, s.noteSlack p x = { s with regs := r } := by
  cases x with
  | none => exact ⟨s.regs, rfl⟩
  | some x =>
    obtain ⟨r₁, h₁⟩ := setFld_regs s (F.TIM_GOV_STAT.worst_slack p) (unsigned 13 x)
    rw [State.noteSlack, h₁]
    exact setFld_regs _ _ _

theorem fld_noteSlack_off (s : State) {p : Nat} (x : Option Int) {f : Fld} (hs : Reg.TIM_GOV_STAT p ≠ f.off)
    (hm : Reg.TIM_GOV_MINSLACK p ≠ f.off) : (s.noteSlack p x).fld f = s.fld f := by
  cases x with
  | none => rfl
  | some x => exact (fld_setFld_off _ _ f _ hm).trans (fld_setFld_off _ _ f _ hs)

theorem avsErr_noteSlack (s : State) (p : Nat) (x : Option Int) :
    (s.noteSlack p x).bit (F.TIM_GOV_STAT.avs_err p) = s.bit (F.TIM_GOV_STAT.avs_err p) := by
  cases x with
  | none => rfl
  | some x =>
    have hm : (F.TIM_GOV_MINSLACK.minslack p).off ≠ (F.TIM_GOV_STAT.avs_err p).off := by
      simp [F.TIM_GOV_MINSLACK.minslack, F.TIM_GOV_STAT.avs_err, Reg.TIM_GOV_MINSLACK, Reg.TIM_GOV_STAT]
    have hs : Fits (F.TIM_GOV_STAT.worst_slack p) := by simp [Fits, F.TIM_GOV_STAT.worst_slack]
    have hb : (F.TIM_GOV_STAT.worst_slack p).lo + (F.TIM_GOV_STAT.worst_slack p).width ≤ (F.TIM_GOV_STAT.avs_err p).lo := by
      simp [F.TIM_GOV_STAT.worst_slack, F.TIM_GOV_STAT.avs_err]
    exact congrArg (· != 0) ((fld_setFld_off _ _ _ _ hm).trans (fld_setFld_beside s _ _ hs _ (.inr hb)))

/-- Noting the slack leaves the clamp. -/
theorem vtop_noteSlack (s : State) (p : Fin 8) (x : Option Int) : (s.noteSlack p x).vtop p = s.vtop p := by
  have hmax : (s.noteSlack p x).fld (F.TIM_GOV_LIMIT.vmax p) = s.fld (F.TIM_GOV_LIMIT.vmax p) := by
    apply fld_noteSlack_off <;> simp [F.TIM_GOV_LIMIT.vmax, Reg.TIM_GOV_LIMIT, Reg.TIM_GOV_STAT, Reg.TIM_GOV_MINSLACK]
  have hlim : (s.noteSlack p x).fld F.PWR_THERM_STAT.limiting = s.fld F.PWR_THERM_STAT.limiting := by
    apply fld_noteSlack_off <;> simp only [F.PWR_THERM_STAT.limiting, Reg.PWR_THERM_STAT, Reg.TIM_GOV_STAT, Reg.TIM_GOV_MINSLACK] <;> omega
  have hhot : (s.noteSlack p x).fld F.PWR_THERM_LIMIT.vmax_hot = s.fld F.PWR_THERM_LIMIT.vmax_hot := by
    apply fld_noteSlack_off <;> simp only [F.PWR_THERM_LIMIT.vmax_hot, Reg.PWR_THERM_LIMIT, Reg.TIM_GOV_STAT, Reg.TIM_GOV_MINSLACK] <;> omega
  rw [State.vtop, hmax, hlim, hhot]
  rfl

theorem vbot_noteSlack (s : State) (p : Fin 8) (x : Option Int) : vbot (s.noteSlack p x) p = vbot s p := by
  have hmin : (s.noteSlack p x).fld (F.TIM_GOV_LIMIT.vmin p) = s.fld (F.TIM_GOV_LIMIT.vmin p) := by
    apply fld_noteSlack_off <;> simp [F.TIM_GOV_LIMIT.vmin, Reg.TIM_GOV_LIMIT, Reg.TIM_GOV_STAT, Reg.TIM_GOV_MINSLACK]
  rw [vbot, hmin, vtop_noteSlack, vbot]

/-! A period (R62, R64) -/

/-- What a period does to its governor while no AVSBus error stops it: the law's voltage is set, and written if it changes or was not
written. -/
def governed (s : State) (p : Nat) (x : Option Int) : State :=
  let r := s.setGov p { s.gov p with quiet := (s.govLaw p x).2 }
  if clampedVolt s p x = (s.gov p).volt && ((s.gov p).fails = 0 || (s.gov p).writing.isSome) then r
  else r.avsWrite p (clampedVolt s p x)

theorem governed_frame (s : State) (p : Nat) (x : Option Int) : ∃ r gs, governed s p x = { s with regs := r, govs := gs } := by
  unfold governed
  dsimp only
  split
  · exact ⟨s.regs, _, rfl⟩
  · obtain ⟨r, gs, h⟩ := avsWrite_frame (s.setGov p { s.gov p with quiet := (s.govLaw p x).2 }) p (clampedVolt s p x)
    exact ⟨r, gs, h⟩

theorem gov_governed_ne (s : State) {p k : Nat} (x : Option Int) (h : k ≠ p) : (governed s p x).gov k = s.gov k := by
  unfold governed
  dsimp only
  split
  · exact gov_setGov_ne s _ h
  · rw [gov_avsWrite_ne _ _ h, gov_setGov_ne s _ h]

/-- The governor after a period: its voltage is the law's inside the clamp, and one that changes is written, or due. -/
theorem gov_governed (s : State) (p : Nat) (x : Option Int) : ((governed s p x).gov p).volt = clampedVolt s p x ∧
    ((governed s p x).gov p).quiet = (s.govLaw p x).2 ∧
    (clampedVolt s p x ≠ (s.gov p).volt →
      ((s.gov p).writing = none → ((governed s p x).gov p).writing = some (clampedVolt s p x) ∧ ((governed s p x).gov p).due = none) ∧
      ((s.gov p).writing ≠ none → ((governed s p x).gov p).writing = (s.gov p).writing ∧
        ((governed s p x).gov p).due = some (clampedVolt s p x))) := by
  unfold governed
  dsimp only
  split
  · next hstay =>
    have heq : clampedVolt s p x = (s.gov p).volt := of_decide_eq_true (Bool.and_eq_true _ _ ▸ hstay).1
    rw [gov_setGov_same]
    exact ⟨heq.symm, rfl, fun hne => absurd heq hne⟩
  · obtain ⟨hvolt, hquiet, hfree, hbusy⟩ := gov_avsWrite (s.setGov p { s.gov p with quiet := (s.govLaw p x).2 }) p (clampedVolt s p x)
    rw [gov_setGov_same] at hquiet hfree hbusy
    exact ⟨hvolt, hquiet, fun _ => ⟨hfree, hbusy⟩⟩

/-- A governor that is off does nothing. -/
theorem exec_governorPeriod_off {p : Fin 8} {s : State} (h : nbit (s.fld F.TIM_CTRL.gov_en) p = false) :
    exec (.governorPeriod p) s = done s :=
  congrArg done (if_pos (by simp [h]))

/-- A period notes the least slack, sets the voltage unless an AVSBus error stops it, and shows where it stands. Slack is asserted with an
AVSBus error, and where no windsock is valid. -/
theorem exec_governorPeriod_on {p : Fin 8} {s : State} (h : nbit (s.fld F.TIM_CTRL.gov_en) p = true) {x : Option Int}
    (hx : least (s.slacks p) = x) : ∃ a low, (x = none → low = true) ∧ exec (.governorPeriod p) s = done
    (((if s.bit (F.TIM_GOV_STAT.avs_err p) then s.noteSlack p x else governed (s.noteSlack p x) p x).setFld
      (F.TIM_GOV_STAT.at_vmax p) a).setFld (F.TIM_GOV_STAT.slack p) (b2n (low || s.bit (F.TIM_GOV_STAT.avs_err p)))) := by
  change ∃ a low, _ ∧ execGovernorPeriod p s = _
  rw [execGovernorPeriod, if_neg (by simp [h])]
  dsimp only
  rw [hx, avsErr_noteSlack]
  refine ⟨_, _, fun hn => ?_, rfl⟩
  rw [hn]
  rfl

theorem fld_slack_after (s : State) (p : Nat) (b : Bool) : (s.setFld (F.TIM_GOV_STAT.slack p) (b2n b)).fld (F.TIM_GOV_STAT.slack p) = b2n b := by
  have hf : Fits (F.TIM_GOV_STAT.slack p) := by simp [Fits, F.TIM_GOV_STAT.slack]
  rw [fld_setFld_same s _ hf]
  cases b <;> rfl

theorem gov_noteSlack (s : State) (p : Nat) (x : Option Int) (k : Nat) : (s.noteSlack p x).gov k = s.gov k := by
  obtain ⟨r, h⟩ := noteSlack_frame s p x
  rw [h]
  rfl

/-- The governor after a period, in terms of the state before it. -/
theorem gov_period (s : State) (p : Fin 8) (x : Option Int) {g : Gov} (hg : (governed (s.noteSlack p x) p x).gov p = g) :
    g.volt ≤ s.vtop p ∧ vbot s p ≤ g.volt ∧
    (g.volt ≠ (s.gov p).volt →
      ((s.gov p).writing = none → g.writing = some g.volt ∧ g.due = none) ∧
      ((s.gov p).writing ≠ none → g.writing = (s.gov p).writing ∧ g.due = some g.volt)) ∧
    (x = none → g.volt = s.vtop p ∧ g.quiet = 0) := by
  obtain ⟨hvolt, hquiet, hwrite⟩ := gov_governed (s.noteSlack p x) p x
  have hle := clampedVolt_le (s.noteSlack p x) p x
  have hge := le_clampedVolt (s.noteSlack p x) p x
  rw [vtop_noteSlack] at hle
  rw [vbot_noteSlack] at hge
  rw [gov_noteSlack] at hwrite
  rw [hg] at hvolt hquiet hwrite
  rw [← hvolt] at hle hge hwrite
  refine ⟨hle, hge, hwrite, fun hx => ?_⟩
  subst hx
  rw [clampedVolt_none, vtop_noteSlack] at hvolt
  exact ⟨hvolt, hquiet⟩

/-- A period changes registers and governors alone. -/
theorem period_frame (s : State) (p : Nat) (x : Option Int) :
    ∃ r gs, governed (s.noteSlack p x) p x = { s with regs := r, govs := gs } := by
  obtain ⟨r₁, h₁⟩ := noteSlack_frame s p x
  obtain ⟨r, gs, h⟩ := governed_frame (s.noteSlack p x) p x
  refine ⟨r, gs, ?_⟩
  rw [h, h₁]

/-- Settles O17: the clamp is `clampedVolt_le` and `le_clampedVolt`, and stands while the slack is noted. -/
theorem governorKeepsItsClamp : Obligations.GovernorKeepsItsClamp := by
  intro p s
  obtain ⟨x, hx⟩ : ∃ x, least (s.slacks p) = x := ⟨_, rfl⟩
  refine ⟨exec_governorPeriod_off, fun hon herr => ?_, fun hon herr => ?_⟩
  · obtain ⟨a, low, -, he⟩ := exec_governorPeriod_on hon hx
    refine ⟨_, he, ?_, ?_⟩
    · rw [herr, if_pos rfl, gov_setFld, gov_setFld, gov_noteSlack]
    · rw [fld_slack_after, herr, Bool.or_true]
      rfl
  · obtain ⟨a, low, hlow, he⟩ := exec_governorPeriod_on hon hx
    rw [herr, if_neg (by decide), Bool.or_false] at he
    obtain ⟨hle, hge, hwrite, hnone⟩ := gov_period s p x rfl
    obtain ⟨r, gs, hframe⟩ := period_frame s p x
    refine ⟨_, he, ?_⟩
    rw [gov_setFld, gov_setFld, fld_slack_after]
    refine ⟨hle, hge, hwrite, fun hno => ?_, fun k hk => ?_, ?_, ?_, ?_⟩
    · have hxn : x = none := by rw [← hx, hno]; rfl
      obtain ⟨hv, hq⟩ := hnone hxn
      exact ⟨hv, hq, by rw [hlow hxn]; rfl⟩
    · rw [gov_setFld, gov_setFld, gov_governed_ne _ _ hk, gov_noteSlack]
    · simp [hframe]
    · simp [hframe]
    · simp [hframe]

end Sys2Proof.Laws
end

section
/-!
SUPPORT. AVSBus transactions (R64, R536, R537): how a write on the bus ends, and what follows it.
-/
namespace Sys2Proof.Laws

open Sys2Proof.Machine

/-- Equal registers read equal fields. -/
theorem fld_of_regs {s t : State} (h : t.regs = s.regs) (f : Fld) : t.fld f = s.fld f := by
  rw [State.fld, State.reg, h, ← State.reg, ← State.fld]

section
variable {s : State} {p : Nat}

/-! The write that waits for the bus (R64) -/

theorem nextWrite_of_none (h : (s.gov p).due = none) : s.nextWrite p = s := by
  rw [State.nextWrite, h]

theorem nextWrite_of_due {x : Nat} (h : (s.gov p).due = some x) (he : s.bit (F.TIM_GOV_STAT.avs_err p) = false) :
    s.nextWrite p = s.avsWrite p x := by
  rw [State.nextWrite, h]
  exact if_neg (by simp [he])

/-- A stopped governor drops what was due. -/
theorem nextWrite_of_stopped (he : s.bit (F.TIM_GOV_STAT.avs_err p) = true) :
    (s.nextWrite p).regs = s.regs ∧ (s.nextWrite p).gov p = { s.gov p with due := none } := by
  unfold State.nextWrite
  split
  · next h => exact ⟨rfl, by rw [← h]⟩
  · rw [if_pos he]
    exact ⟨State.setGov_regs s p _, gov_setGov_same s p _⟩

/-! The end of a write on the bus (R64, R536) -/

/-- The governor after its write has succeeded. -/
def committedGov (g : Gov) (v : Nat) : Gov := { g with writing := none, committed := some v, fails := 0 }

/-- The governor after its write has failed. -/
def failedGov (g : Gov) : Gov := { g with writing := none, fails := g.fails + 1 }

end

section
variable {s : State} {p : Fin 8}

theorem exec_avsWriteDone_idle (h : (s.gov p).writing = none) (good : Bool) : exec (.avsWriteDone p good) s = done s := by
  change execAvsWriteDone p good s = _
  rw [execAvsWriteDone]
  dsimp only
  rw [h]

theorem exec_avsWriteDone_good {v : Nat} (h : (s.gov p).writing = some v) :
    exec (.avsWriteDone p true) s = done ((s.setGov p (committedGov (s.gov p) v)).nextWrite p) := by
  change execAvsWriteDone p true s = _
  rw [execAvsWriteDone]
  dsimp only
  rw [h]
  rfl

/-- The first and the second failure in a row are counted. -/
theorem exec_avsWriteDone_failed {v : Nat} (h : (s.gov p).writing = some v) (hf : (s.gov p).fails + 1 < 3) :
    exec (.avsWriteDone p false) s = done (((s.setGov p (failedGov (s.gov p))).satInc F.PWR_AVS_STAT.errors).nextWrite p) := by
  change execAvsWriteDone p false s = _
  rw [execAvsWriteDone]
  dsimp only
  rw [h]
  dsimp only
  rw [if_neg (by decide), State.when, if_neg (by simp only [decide_eq_true_eq]; omega), failedGov]

/-- The third stops the governor. -/
theorem exec_avsWriteDone_stopped {v : Nat} (h : (s.gov p).writing = some v) (hf : 2 ≤ (s.gov p).fails) :
    ∃ b, exec (.avsWriteDone p false) s = done (((((s.setGov p (failedGov (s.gov p))).satInc F.PWR_AVS_STAT.errors).raise
      (F.TIM_GOV_STAT.avs_err p)).setFld (F.TIM_GOV_STAT.slack p) b).nextWrite p) := by
  change ∃ b, execAvsWriteDone p false s = _
  rw [execAvsWriteDone]
  dsimp only
  rw [h]
  dsimp only
  rw [if_neg (by decide), State.when, if_pos (by simp only [decide_eq_true_eq]; omega), failedGov]
  exact ⟨_, rfl⟩

/-- A governor that has just stopped shows avs_err, writes nothing, and has nothing due. -/
theorem nextWrite_just_stopped {r t : State} {p b : Nat} (hw : (r.gov p).writing = none)
    (ht : ((r.raise (F.TIM_GOV_STAT.avs_err p)).setFld (F.TIM_GOV_STAT.slack p) b).nextWrite p = t) :
    t.fld (F.TIM_GOV_STAT.avs_err p) = 1 ∧ (t.gov p).writing = none ∧ (t.gov p).due = none := by
  have hs : Fits (F.TIM_GOV_STAT.slack p) := by simp [Fits, F.TIM_GOV_STAT.slack]
  have he : Fits (F.TIM_GOV_STAT.avs_err p) := by simp [Fits, F.TIM_GOV_STAT.avs_err]
  have hb : (F.TIM_GOV_STAT.slack p).lo + (F.TIM_GOV_STAT.slack p).width ≤ (F.TIM_GOV_STAT.avs_err p).lo := by
    simp [F.TIM_GOV_STAT.slack, F.TIM_GOV_STAT.avs_err]
  have herr := (fld_setFld_beside (r.raise (F.TIM_GOV_STAT.avs_err p)) _ _ hs b (.inr hb)).trans
    (fld_raise_same r he (by simp [F.TIM_GOV_STAT.avs_err]))
  obtain ⟨hregs, hgov⟩ := nextWrite_of_stopped (p := p) (by rw [State.bit, herr]; rfl)
  rw [gov_setFld, gov_raise] at hgov
  rw [ht] at hgov hregs
  rw [hgov, fld_of_regs hregs]
  exact ⟨herr, hw, rfl⟩

theorem exec_avsReadDone_good (h : (s.gov p).reading = true) (mv i : BitVec 16) : exec (.avsReadDone p true mv i) s =
    done (((s.setGov p { s.gov p with reading := false }).setFld (F.PWR_AVS_READ.mv p) mv.toNat).setFld
      (F.PWR_AVS_READ.current p) i.toNat) := by
  change execAvsReadDone p true mv i s = _
  rw [execAvsReadDone, if_neg (by simp [h])]
  dsimp only
  rw [if_pos rfl]

theorem exec_avsReadDone_failed (h : (s.gov p).reading = true) (mv i : BitVec 16) : exec (.avsReadDone p false mv i) s =
    done ((s.setGov p { s.gov p with reading := false }).satInc F.PWR_AVS_STAT.errors) := by
  change execAvsReadDone p false mv i s = _
  rw [execAvsReadDone, if_neg (by simp [h])]
  dsimp only
  rw [if_neg (by decide)]

end

/-- Settles O18: the ways in which a write on the bus ends, each followed by what was due. -/
theorem windsocksAndRails : Obligations.WindsocksAndRails := by
  intro s p
  refine ⟨fun d k x v => rfl, exec_avsWriteDone_idle, fun v hv => ⟨fun hd => ?_, fun x hd he => ?_, fun hd hf => ?_, fun hf => ?_⟩,
    fun x => avsWrite_free x, fun hc hw => congrArg done (if_pos (by simp [hc, hw])), fun mv i hr =>
    ⟨exec_avsReadDone_good hr mv i, exec_avsReadDone_failed hr mv i⟩⟩
  · rw [exec_avsWriteDone_good hv, nextWrite_of_none (by simpa [committedGov] using hd)]
    rfl
  · rw [exec_avsWriteDone_good hv, nextWrite_of_due (x := x) (by simpa [committedGov] using hd) (by simpa using he)]
    rfl
  · rw [exec_avsWriteDone_failed hv hf, nextWrite_of_none (by rw [gov_satInc, gov_setGov_same]; exact hd), failedGov, done]
  · obtain ⟨b, he⟩ := exec_avsWriteDone_stopped hv hf
    exact ⟨_, he, nextWrite_just_stopped (by rw [gov_satInc, gov_setGov_same, failedGov]) rfl⟩

end Sys2Proof.Laws
end

section
/-!
SUPPORT. The clears of TIM_HIST_CLEAR (R66): what clearing a tag does to the counts of each tag, and what each of the three rows clears.
-/
namespace Sys2Proof.Laws

open Sys2Proof.Machine

/-! Runs of field writes -/

theorem fld_setReg_off (s : State) {o : Nat} (w : Word) {f : Fld} (h : o ≠ f.off) : (s.setReg o w).fld f = s.fld f := by
  rw [State.fld, reg_setReg_ne s w h, State.fld]

/-- A run of updates of registers is one. -/
theorem foldl_regs {f : State → Nat → State} (hf : ∀ s a, ∃ r, f s a = { s with regs := r }) (l : List Nat) (s : State) :
    ∃ r, l.foldl f s = { s with regs := r } := by
  induction l generalizing s with
  | nil => exact ⟨s.regs, rfl⟩
  | cons a l ih =>
    obtain ⟨r, h⟩ := hf s a
    obtain ⟨r', h'⟩ := ih (f s a)
    exact ⟨r', by rw [List.foldl_cons, h', h]⟩

theorem fld_foldl_setFld_off (f : Nat → Fld) (v : Nat) (g : Fld) (l : List Nat) (s : State) (h : ∀ i ∈ l, (f i).off ≠ g.off) :
    (l.foldl (fun s i => s.setFld (f i) v) s).fld g = s.fld g := by
  induction l generalizing s with
  | nil => rfl
  | cons i l ih =>
    rw [List.foldl_cons, ih _ fun j hj => h j (List.mem_cons_of_mem i hj), fld_setFld_off s _ _ v (h i List.mem_cons_self)]

/-- Each field that a run writes holds the value, where no other of the run lies in its register. -/
theorem fld_foldl_setFld_mem (f : Nat → Fld) (v : Nat) {k : Nat} (hk : Fits (f k)) (hoff : ∀ i, i ≠ k → (f i).off ≠ (f k).off)
    (l : List Nat) (s : State) (h : k ∈ l) : (l.foldl (fun s i => s.setFld (f i) v) s).fld (f k) = v % 2 ^ (f k).width := by
  induction l generalizing s with
  | nil => exact absurd h List.not_mem_nil
  | cons i l ih =>
    rw [List.foldl_cons]
    by_cases hl : k ∈ l
    · exact ih _ hl
    · have hi : k = i := (List.mem_cons.mp h).resolve_right hl
      rw [← hi, fld_foldl_setFld_off f v _ l _ fun j hj => hoff j fun hjk => hl (hjk ▸ hj), fld_setFld_same s _ hk]

/-! Clearing a tag -/

/-- A count of tag `k`: its late count, or a bin of its histogram. -/
def TagCount (k : Nat) (g : Fld) : Prop := g = F.TIM_MENU_LATE_COUNT.count k ∨ ∃ j, j < 16 ∧ g = F.TIM_DSLACK_HIST.count k j

theorem clearTag_eq (s : State) (t : Nat) : s.clearTag t =
    ((List.range 16).foldl (fun s j => s.setFld (F.TIM_DSLACK_HIST.count t j) 0) s).setFld (F.TIM_MENU_LATE_COUNT.count t) 0 := rfl

theorem clearTag_regs (s : State) (t : Nat) : ∃ r, s.clearTag t = { s with regs := r } := by
  obtain ⟨r, h⟩ := foldl_regs (fun s j => setFld_regs s (F.TIM_DSLACK_HIST.count t j) 0) (List.range 16) s
  rw [clearTag_eq, h]
  exact setFld_regs _ _ _

theorem lateCount_off_ne_hist {t : Nat} (k j : Nat) (ht : t < 8) :
    (F.TIM_MENU_LATE_COUNT.count t).off ≠ (F.TIM_DSLACK_HIST.count k j).off := by
  simp only [F.TIM_MENU_LATE_COUNT.count, F.TIM_DSLACK_HIST.count, Reg.TIM_MENU_LATE_COUNT, Reg.TIM_DSLACK_HIST]
  omega

theorem clearTag_clears (s : State) {k : Nat} {g : Fld} (hk : k < 8) (h : TagCount k g) : (s.clearTag k).fld g = 0 := by
  rw [clearTag_eq]
  rcases h with h | ⟨j, hj, h⟩
  · subst h
    exact fld_setFld_same _ _ (by simp [Fits, F.TIM_MENU_LATE_COUNT.count]) 0
  · subst h
    rw [fld_setFld_off _ _ _ _ (lateCount_off_ne_hist k j hk)]
    refine fld_foldl_setFld_mem (F.TIM_DSLACK_HIST.count k) 0 (by simp [Fits, F.TIM_DSLACK_HIST.count]) (fun i hi => ?_)
      (List.range 16) s (List.mem_range.mpr hj)
    simp only [F.TIM_DSLACK_HIST.count, Reg.TIM_DSLACK_HIST]
    omega

theorem clearTag_keeps (s : State) {t k : Nat} {g : Fld} (ht : t < 8) (hk : k < 8) (hne : t ≠ k) (h : TagCount k g) :
    (s.clearTag t).fld g = s.fld g := by
  have hoff : (F.TIM_MENU_LATE_COUNT.count t).off ≠ g.off ∧ ∀ i ∈ List.range 16, (F.TIM_DSLACK_HIST.count t i).off ≠ g.off := by
    rcases h with h | ⟨j, hj, h⟩
    · subst h
      refine ⟨?_, fun i _ => (lateCount_off_ne_hist t i hk).symm⟩
      simp only [F.TIM_MENU_LATE_COUNT.count, Reg.TIM_MENU_LATE_COUNT]
      omega
    · subst h
      refine ⟨lateCount_off_ne_hist k j ht, fun i hi => ?_⟩
      have := List.mem_range.mp hi
      simp only [F.TIM_DSLACK_HIST.count, Reg.TIM_DSLACK_HIST]
      omega
  rw [clearTag_eq, fld_setFld_off _ _ _ _ hoff.1, fld_foldl_setFld_off _ 0 g _ s hoff.2]

/-! Clearing the tags that a map names -/

/-- Clear each tag below 8 whose bit is set. -/
def clearTags (v : Nat) (s : State) : State := (List.range 8).foldl (fun s t => s.when (nbit v t) (fun s => s.clearTag t)) s

section
variable {v k : Nat} {g : Fld}

theorem clearTagWhen_keeps (s : State) {t : Nat} (ht : t < 8) (hk : k < 8) (hne : nbit v t = true → t ≠ k) (h : TagCount k g) :
    (s.when (nbit v t) (fun s => s.clearTag t)).fld g = s.fld g := by
  unfold State.when
  split
  · next hv => exact clearTag_keeps s ht hk (hne hv) h
  · rfl

theorem foldl_clearTag_keeps (hk : k < 8) (h : TagCount k g) (l : List Nat) (hl : ∀ t ∈ l, t < 8 ∧ (nbit v t = true → t ≠ k)) (s : State) :
    (l.foldl (fun s t => s.when (nbit v t) (fun s => s.clearTag t)) s).fld g = s.fld g := by
  induction l generalizing s with
  | nil => rfl
  | cons t l ih =>
    obtain ⟨ht, hne⟩ := hl t List.mem_cons_self
    rw [List.foldl_cons, ih fun t' h' => hl t' (List.mem_cons_of_mem t h'), clearTagWhen_keeps s ht hk hne h]

/-- A tag that is not named keeps its counts. -/
theorem clearTags_keeps (hk : k < 8) (h : TagCount k g) (hv : nbit v k = false) (s : State) : (clearTags v s).fld g = s.fld g :=
  foldl_clearTag_keeps hk h _ (fun t ht => ⟨List.mem_range.mp ht, fun hb he => by simp [he, hv] at hb⟩) s

theorem foldl_clearTag_clears (hk : k < 8) (h : TagCount k g) (hv : nbit v k = true) (l : List Nat) (hl : ∀ t ∈ l, t < 8) (hm : k ∈ l)
    (s : State) : (l.foldl (fun s t => s.when (nbit v t) (fun s => s.clearTag t)) s).fld g = 0 := by
  induction l generalizing s with
  | nil => exact absurd hm List.not_mem_nil
  | cons t l ih =>
    rw [List.foldl_cons]
    by_cases hr : k ∈ l
    · exact ih (fun t' h' => hl t' (List.mem_cons_of_mem t h')) hr _
    · have ht : k = t := (List.mem_cons.mp hm).resolve_right hr
      rw [← ht, foldl_clearTag_keeps hk h l fun t' h' => ⟨hl t' (List.mem_cons_of_mem t h'), fun _ he => hr (he ▸ h')⟩]
      rw [State.when, if_pos hv, clearTag_clears s hk h]

/-- A tag that is named has its counts cleared. -/
theorem clearTags_clears (hk : k < 8) (h : TagCount k g) (hv : nbit v k = true) (s : State) : (clearTags v s).fld g = 0 :=
  foldl_clearTag_clears hk h hv _ (fun _ => List.mem_range.mp) (List.mem_range.mpr hk) s

end

theorem clearTags_regs (v : Nat) (s : State) : ∃ r, clearTags v s = { s with regs := r } := by
  refine foldl_regs (fun s t => ?_) (List.range 8) s
  unfold State.when
  split
  · exact clearTag_regs s t
  · exact ⟨s.regs, rfl⟩

/-- A map that names no tag clears none. -/
theorem clearTags_of_none {v : Nat} (h : ∀ t, t < 8 → nbit v t = false) (s : State) : clearTags v s = s := by
  unfold clearTags
  suffices hl : ∀ (l : List Nat), (∀ t ∈ l, t < 8) → l.foldl (fun s t => s.when (nbit v t) (fun s => s.clearTag t)) s = s from
    hl _ fun _ => List.mem_range.mp
  intro l hl
  induction l with
  | nil => rfl
  | cons t l ih =>
    rw [List.foldl_cons, State.when, if_neg (by simp [h t (hl t List.mem_cons_self)]),
      ih fun t' h' => hl t' (List.mem_cons_of_mem t h')]

/-! A write of TIM_HIST_CLEAR -/

/-- Set every least slack to its largest value. -/
def resetMinSlacks (s : State) : State := (List.range 8).foldl (fun s p => s.setFld (F.TIM_GOV_MINSLACK.minslack p) 0x7FFF) s

/-- Clear the slip, miss and discard counts. -/
def clearTimeCounters (s : State) : State :=
  ((s.lower F.TIM_ORBIT_SLIP.slip_count).lower F.TIM_ORBIT_MISS.count).lower F.TIM_LATE_STAT.discarded

theorem writeHistClear_eq (s : State) (w : Word) : s.writeHistClear w =
    ((clearTags w.toNat (s.setReg Reg.TIM_HIST_CLEAR (w &&& 0x3FF))).when (nbit w.toNat 8) resetMinSlacks).when (nbit w.toNat 9)
      clearTimeCounters := rfl

theorem writeHistClear_tags (s : State) (tags : BitVec 8) : s.writeHistClear (BitVec.ofNat 32 tags.toNat) =
    clearTags tags.toNat (s.setReg Reg.TIM_HIST_CLEAR (BitVec.ofNat 32 tags.toNat &&& 0x3FF)) := by
  have hlt : tags.toNat < 2 ^ 8 := tags.isLt
  have hnat : (BitVec.ofNat 32 tags.toNat).toNat = tags.toNat := by
    rw [BitVec.toNat_ofNat]
    exact Nat.mod_eq_of_lt (by omega)
  have h8 : nbit tags.toNat 8 = false := by rw [nbit_eq_testBit]; exact Nat.testBit_lt_two_pow hlt
  have h9 : nbit tags.toNat 9 = false := by rw [nbit_eq_testBit]; exact Nat.testBit_lt_two_pow (Nat.lt_trans hlt (by decide))
  rw [writeHistClear_eq, hnat, h8, h9]
  rfl

theorem writeHistClear_gov (s : State) : s.writeHistClear 0x100 = resetMinSlacks (s.setReg Reg.TIM_HIST_CLEAR 0x100) := by
  rw [writeHistClear_eq, clearTags_of_none (by decide)]
  rfl

theorem writeHistClear_time (s : State) : s.writeHistClear 0x200 = clearTimeCounters (s.setReg Reg.TIM_HIST_CLEAR 0x200) := by
  rw [writeHistClear_eq, clearTags_of_none (by decide)]
  rfl

/-- The register of the clears holds no count of a tag. -/
theorem histClear_off_ne {k : Nat} {g : Fld} (h : TagCount k g) : Reg.TIM_HIST_CLEAR ≠ g.off := by
  rcases h with h | ⟨j, -, h⟩ <;> subst h
  · simp only [F.TIM_MENU_LATE_COUNT.count, Reg.TIM_HIST_CLEAR, Reg.TIM_MENU_LATE_COUNT]
    omega
  · simp only [F.TIM_DSLACK_HIST.count, Reg.TIM_HIST_CLEAR, Reg.TIM_DSLACK_HIST]
    omega

/-! The least slacks, and the counts of time -/

theorem resetMinSlacks_regs (s : State) : ∃ r, resetMinSlacks s = { s with regs := r } :=
  foldl_regs (fun s p => setFld_regs s (F.TIM_GOV_MINSLACK.minslack p) 0x7FFF) _ s

theorem minslack_resetMinSlacks (s : State) {p : Nat} (hp : p < 8) :
    (resetMinSlacks s).fld (F.TIM_GOV_MINSLACK.minslack p) = 0x7FFF := by
  refine fld_foldl_setFld_mem F.TIM_GOV_MINSLACK.minslack 0x7FFF (by simp [Fits, F.TIM_GOV_MINSLACK.minslack]) (fun i hi => ?_) _ s
    (List.mem_range.mpr hp)
  simp only [F.TIM_GOV_MINSLACK.minslack, Reg.TIM_GOV_MINSLACK]
  omega

theorem hist_resetMinSlacks (s : State) {k j : Nat} (hk : k < 8) (hj : j < 16) :
    (resetMinSlacks s).fld (F.TIM_DSLACK_HIST.count k j) = s.fld (F.TIM_DSLACK_HIST.count k j) := by
  refine fld_foldl_setFld_off _ _ _ _ s fun p _ => ?_
  simp only [F.TIM_GOV_MINSLACK.minslack, F.TIM_DSLACK_HIST.count, Reg.TIM_GOV_MINSLACK, Reg.TIM_DSLACK_HIST]
  omega

theorem hist_clearTimeCounters (s : State) (k j : Nat) :
    (clearTimeCounters s).fld (F.TIM_DSLACK_HIST.count k j) = s.fld (F.TIM_DSLACK_HIST.count k j) := by
  unfold clearTimeCounters State.lower
  rw [fld_setFld_off, fld_setFld_off, fld_setFld_off]
  all_goals
    simp only [F.TIM_LATE_STAT.discarded, F.TIM_ORBIT_MISS.count, F.TIM_ORBIT_SLIP.slip_count, F.TIM_DSLACK_HIST.count, Reg.TIM_LATE_STAT,
      Reg.TIM_ORBIT_MISS, Reg.TIM_ORBIT_SLIP, Reg.TIM_DSLACK_HIST]
    omega

theorem counts_clearTimeCounters (s : State) : (clearTimeCounters s).fld F.TIM_ORBIT_SLIP.slip_count = 0 ∧
    (clearTimeCounters s).fld F.TIM_ORBIT_MISS.count = 0 ∧ (clearTimeCounters s).fld F.TIM_LATE_STAT.discarded = 0 := by
  unfold clearTimeCounters State.lower
  have hslip : Fits F.TIM_ORBIT_SLIP.slip_count := by unfold Fits; decide
  have hmiss : Fits F.TIM_ORBIT_MISS.count := by unfold Fits; decide
  have hlate : Fits F.TIM_LATE_STAT.discarded := by unfold Fits; decide
  refine ⟨?_, ?_, fld_setFld_same _ _ hlate 0⟩
  · rw [fld_setFld_off _ _ _ _ (by decide), fld_setFld_off _ _ _ _ (by decide), fld_setFld_same _ _ hslip]
    rfl
  · rw [fld_setFld_off _ _ _ _ (by decide), fld_setFld_same _ _ hmiss]
    rfl

/-! The rows -/

section
variable (s : State) (tags : BitVec 8) {k : Nat} {g : Fld}

theorem histClearTags_clears (hk : k < 8) (hb : tags.getLsbD k = true) (hg : TagCount k g) :
    (s.writeHistClear (BitVec.ofNat 32 tags.toNat)).fld g = 0 := by
  rw [writeHistClear_tags, clearTags_clears hk hg ((nbit_eq_testBit _ _).trans hb)]

theorem histClearTags_keeps (hk : k < 8) (hb : tags.getLsbD k = false) (hg : TagCount k g) :
    (s.writeHistClear (BitVec.ofNat 32 tags.toNat)).fld g = s.fld g := by
  rw [writeHistClear_tags, clearTags_keeps hk hg ((nbit_eq_testBit _ _).trans hb), fld_setReg_off s _ (histClear_off_ne hg)]

theorem histClearTags_regs : ∃ r, s.writeHistClear (BitVec.ofNat 32 tags.toNat) = { s with regs := r } := by
  obtain ⟨r, h⟩ := clearTags_regs tags.toNat (s.setReg Reg.TIM_HIST_CLEAR (BitVec.ofNat 32 tags.toNat &&& 0x3FF))
  exact ⟨r, by rw [writeHistClear_tags, h, State.setReg]⟩

end

/-- Settles O15: each row is one part of `writeHistClear_eq`; a tag's counts are those of `TagCount`. -/
theorem clearsClearWhatTheyName : Obligations.ClearsClearWhatTheyName := by
  intro s hup
  have hlate : ∀ k, TagCount k (F.TIM_MENU_LATE_COUNT.count k) := fun k => .inl rfl
  have hbin : ∀ k j, j < 16 → TagCount k (F.TIM_DSLACK_HIST.count k j) := fun k j hj => .inr ⟨j, hj, rfl⟩
  refine ⟨fun tags => ⟨_, congrArg done (if_pos hup), ?_, ?_, ?_⟩, ⟨_, congrArg done (if_pos hup), ?_⟩, _, congrArg done (if_pos hup), ?_⟩
  · exact fun k hk hb => ⟨histClearTags_clears s tags hk hb (hlate k), fun j hj => histClearTags_clears s tags hk hb (hbin k j hj)⟩
  · exact fun k hk hb => ⟨histClearTags_keeps s tags hk hb (hlate k), fun j hj => histClearTags_keeps s tags hk hb (hbin k j hj)⟩
  · obtain ⟨r, hframe⟩ := histClearTags_regs s tags
    rw [hframe]
    exact ⟨rfl, rfl⟩
  · obtain ⟨r, hframe⟩ := resetMinSlacks_regs (s.setReg Reg.TIM_HIST_CLEAR 0x100)
    rw [writeHistClear_gov]
    refine ⟨fun p => minslack_resetMinSlacks _, fun k j hk hj => ?_, by rw [hframe, State.setReg]⟩
    rw [hist_resetMinSlacks _ hk hj, fld_setReg_off s _ (histClear_off_ne (hbin k j hj))]
  · obtain ⟨hslip, hmiss, hdisc⟩ := counts_clearTimeCounters (s.setReg Reg.TIM_HIST_CLEAR 0x200)
    rw [writeHistClear_time]
    refine ⟨hslip, hmiss, hdisc, fun k j hk hj => ?_, by simp [clearTimeCounters]⟩
    rw [hist_clearTimeCounters, fld_setReg_off s _ (histClear_off_ne (hbin k j hj))]

end Sys2Proof.Laws
end

section
/-!
SUPPORT. PPS and wall time (R44-R49): what an accepted edge leaves in the registers and in the time unit, the carry of the fraction, and the
pending wall time.
-/
namespace Sys2Proof.Laws

open Sys2Proof.Machine

/-! An accepted edge: its registers -/

/-- The registers of an accepted edge: the spool count, the wall fraction, and pps_missing (R46). -/
def captured (s : State) : State :=
  ((s.setWide Reg.TIM_PPS_CAPTURE_LO s.time.spool).setReg Reg.TIM_PPS_WALL_FRAC (BitVec.ofNat 32 s.wallFrac)).lower
    F.TIM_STATUS.pps_missing

/-- With a pending wall time, wall_set_pending is cleared besides (R49). -/
def edgeRegs (s : State) : State := (captured s).when s.time.wallSet.isSome (fun r => r.lower F.TIM_STATUS.wall_set_pending)

/-- The time unit after an accepted edge at sample `n` (R46, R49). -/
def edgeTime (s : State) (n : Nat) : Time := match s.time.wallSet with
  | some sec => { s.time with lastPps := some n, wallSet := none, wallSec := sec % 2 ^ 48, wallAcc := 0 }
  | none => if s.bit F.TIM_CTRL.align_on_pps then
      { s.time with lastPps := some n, wallSec := (s.time.wallSec + if 2 ^ 31 ≤ s.wallFrac then 1 else 0) % 2 ^ 48, wallAcc := 0 }
    else { s.time with lastPps := some n }

theorem captured_time (s : State) : (captured s).time = s.time := by simp [captured]

theorem captured_align (s : State) : (captured s).bit F.TIM_CTRL.align_on_pps = s.bit F.TIM_CTRL.align_on_pps := by
  have h : (captured s).fld F.TIM_CTRL.align_on_pps = s.fld F.TIM_CTRL.align_on_pps := by
    unfold captured State.lower State.setWide
    rw [fld_setFld_off _ _ _ _ (by decide), fld_setReg_off _ _ (by decide), fld_setReg_off _ _ (by decide), fld_setReg_off _ _ (by decide)]
  rw [State.bit, h, State.bit]

theorem bit_withTime (s : State) (t : Time) (f : Fld) : State.bit { s with time := t } f = s.bit f := rfl

/-- What an accepted edge comes to. -/
theorem acceptPps_eq (s : State) (n : Nat) : s.acceptPps n = { edgeRegs s with time := edgeTime s n } := by
  have halign := captured_align s
  have htime := captured_time s
  unfold edgeRegs
  unfold State.acceptPps edgeTime
  unfold captured at *
  dsimp only
  generalize ((s.setWide Reg.TIM_PPS_CAPTURE_LO s.time.spool).setReg Reg.TIM_PPS_WALL_FRAC (BitVec.ofNat 32 s.wallFrac)).lower
    F.TIM_STATUS.pps_missing = r at *
  rw [htime]
  cases s.time.wallSet with
  | some sec => rfl
  | none =>
    dsimp only
    rw [bit_withTime, halign]
    cases s.bit F.TIM_CTRL.align_on_pps with
    | true => rfl
    | false => rfl

/-! Its registers read back -/

theorem captured_regs (s : State) : ∃ r, captured s = { s with regs := r } := by
  obtain ⟨r, h⟩ : ∃ r, (s.setWide Reg.TIM_PPS_CAPTURE_LO s.time.spool).setReg Reg.TIM_PPS_WALL_FRAC (BitVec.ofNat 32 s.wallFrac) =
      { s with regs := r } := ⟨_, rfl⟩
  rw [captured, h]
  exact setFld_regs _ _ _

theorem edgeRegs_regs (s : State) : ∃ r, edgeRegs s = { s with regs := r } := by
  obtain ⟨r, h⟩ := captured_regs s
  unfold edgeRegs State.when
  rw [h]
  split
  · exact setFld_regs _ _ _
  · exact ⟨r, rfl⟩

theorem reg_edgeRegs {o : Nat} (s : State) (h : Reg.TIM_STATUS ≠ o) : (edgeRegs s).reg o =
    ((s.setWide Reg.TIM_PPS_CAPTURE_LO s.time.spool).setReg Reg.TIM_PPS_WALL_FRAC (BitVec.ofNat 32 s.wallFrac)).reg o := by
  unfold edgeRegs State.when captured State.lower
  split
  · rw [reg_setFld_ne _ _ _ h, reg_setFld_ne _ _ _ h]
  · rw [reg_setFld_ne _ _ _ h]

theorem captureLo_edgeRegs (s : State) : (edgeRegs s).reg Reg.TIM_PPS_CAPTURE_LO = BitVec.ofNat 32 s.time.spool := by
  rw [reg_edgeRegs s (by decide), reg_setReg_ne _ _ (by decide), State.setWide, reg_setReg_ne _ _ (by decide), reg_setReg_same]

theorem captureHi_edgeRegs (s : State) : (edgeRegs s).reg Reg.TIM_PPS_CAPTURE_HI = BitVec.ofNat 32 (s.time.spool >>> 32) := by
  rw [reg_edgeRegs s (by decide), reg_setReg_ne _ _ (by decide)]
  exact reg_setReg_same _ _ _

theorem wallFrac_edgeRegs (s : State) : (edgeRegs s).reg Reg.TIM_PPS_WALL_FRAC = BitVec.ofNat 32 (s.time.wallAcc / 2 ^ 32) := by
  rw [reg_edgeRegs s (by decide)]
  exact reg_setReg_same _ _ _

theorem ppsMissing_edgeRegs (s : State) : (edgeRegs s).fld F.TIM_STATUS.pps_missing = 0 := by
  have hclear : (captured s).fld F.TIM_STATUS.pps_missing = 0 := fld_setFld_same _ _ (by unfold Fits; decide) 0
  unfold edgeRegs State.when
  split
  · exact (fld_setFld_beside _ _ _ (by unfold Fits; decide) 0 (.inl (by decide))).trans hclear
  · exact hclear

theorem wallSetPending_edgeRegs {s : State} {sec : Nat} (h : s.time.wallSet = some sec) :
    (edgeRegs s).fld F.TIM_STATUS.wall_set_pending = 0 := by
  rw [edgeRegs, h]
  exact fld_setFld_same _ _ (by unfold Fits; decide) 0

/-! The time unit after an edge -/

section
variable {s : State} (n : Nat)

theorem edgeTime_set {sec : Nat} (h : s.time.wallSet = some sec) : edgeTime s n =
    { s.time with lastPps := some n, wallSet := none, wallSec := sec % 2 ^ 48, wallAcc := 0 } := by
  rw [edgeTime, h]

theorem edgeTime_align (h : s.time.wallSet = none) (ha : s.bit F.TIM_CTRL.align_on_pps = true) : edgeTime s n =
    { s.time with lastPps := some n, wallSec := (s.time.wallSec + if 2 ^ 31 ≤ s.wallFrac then 1 else 0) % 2 ^ 48, wallAcc := 0 } := by
  rw [edgeTime, h]
  exact if_pos ha

theorem edgeTime_plain (h : s.time.wallSet = none) (ha : s.bit F.TIM_CTRL.align_on_pps = false) : edgeTime s n =
    { s.time with lastPps := some n } := by
  rw [edgeTime, h]
  exact if_neg (by simp [ha])

/-- Any accepted edge is kept as the last one, leaves no wall time pending, and does not move the spool count. -/
theorem edgeTime_always : (edgeTime s n).lastPps = some n ∧ (edgeTime s n).wallSet = none ∧ (edgeTime s n).spool = s.time.spool := by
  cases hw : s.time.wallSet with
  | some sec =>
    rw [edgeTime_set n hw]
    exact ⟨rfl, rfl, rfl⟩
  | none =>
    cases ha : s.bit F.TIM_CTRL.align_on_pps with
    | true =>
      rw [edgeTime_align n hw ha]
      exact ⟨rfl, hw, rfl⟩
    | false =>
      rw [edgeTime_plain n hw ha]
      exact ⟨rfl, hw, rfl⟩

end

/-! The rows -/

section
variable {s : State} {n w : Nat}

theorem exec_ppsPulse_none : exec (.ppsPulse n 0) s = done s := rfl

theorem exec_ppsPulse_narrow (h0 : w ≠ 0) (h : w < 10) : exec (.ppsPulse n w) s = done (s.satInc F.TIM_PPS_STAT.narrow_count) := by
  exact congrArg done ((if_neg h0).trans (if_pos h))

theorem exec_ppsPulse_early {p : Nat} (h : 10 ≤ w) (hp : s.time.lastPps = some p) (hn : n < p + 90000000) :
    exec (.ppsPulse n w) s = done (s.satInc F.TIM_PPS_STAT.early_count) := by
  have hearly : s.time.lastPps.elim false (fun p => decide (n < p + 90000000)) = true := by
    rw [hp, Option.elim_some]
    exact decide_eq_true hn
  exact congrArg done ((if_neg (by omega)).trans ((if_neg (by omega)).trans (if_pos hearly)))

theorem exec_ppsPulse_accepted (h : 10 ≤ w) (hn : ∀ p, s.time.lastPps = some p → p + 90000000 ≤ n) :
    exec (.ppsPulse n w) s = done { edgeRegs s with time := edgeTime s n } := by
  have hlate : s.time.lastPps.elim false (fun p => decide (n < p + 90000000)) = false := by
    cases hp : s.time.lastPps with
    | none => rfl
    | some p =>
      rw [Option.elim_some]
      exact decide_eq_false (Nat.not_lt.mpr (hn p hp))
  rw [← acceptPps_eq]
  exact congrArg done ((if_neg (by omega)).trans ((if_neg (by omega)).trans (if_neg (by rw [hlate]; decide))))

end

/-! The carry of the fraction (R48) -/

theorem wide_lt (s : State) (o : Nat) : s.wide o < 2 ^ 64 := by
  have hlo := (s.reg o).isLt
  have hhi := (s.reg (o + 4)).isLt
  unfold State.wide
  omega

section
variable {s : State}

theorem exec_wallSecondCarry_carries (hst : s.time.started = true) (hh : s.time.held = false) (hr : s.time.relock = false)
    (hlt : s.time.spool % 32 < 31) (hc : 2 ^ 64 ≤ s.time.wallAcc + s.wide Reg.TIM_WALL_RATE_LO) :
    exec .wallSecondCarry s = done s.tick := by
  have hcarry : s.carries48 = true := decide_eq_true hc
  exact congrArg done (if_pos (by simp [State.counts, hst, hh, hr, hlt, hcarry]))

theorem exec_wallSecondCarry_stays (hc : s.time.wallAcc + s.wide Reg.TIM_WALL_RATE_LO < 2 ^ 64) :
    exec .wallSecondCarry s = done s := by
  have hcarry : s.carries48 = false := decide_eq_false (Nat.not_le.mpr hc)
  exact congrArg done (if_neg (by simp [hcarry]))

/-- A carry is one second, and leaves what is above 2 ^ 64. -/
theorem tickedTime_carry (hc : 2 ^ 64 ≤ s.time.wallAcc + s.wide Reg.TIM_WALL_RATE_LO) (ha : s.time.wallAcc < 2 ^ 64) :
    (tickedTime s).wallSec = (s.time.wallSec + 1) % 2 ^ 48 ∧
    (tickedTime s).wallAcc = s.time.wallAcc + s.wide Reg.TIM_WALL_RATE_LO - 2 ^ 64 := by
  have hrate := wide_lt s Reg.TIM_WALL_RATE_LO
  have hone : (s.time.wallAcc + s.wide Reg.TIM_WALL_RATE_LO) / 2 ^ 64 = 1 := by omega
  refine ⟨by rw [tickedTime, hone], ?_⟩
  change (s.time.wallAcc + s.wide Reg.TIM_WALL_RATE_LO) % 2 ^ 64 = _
  omega

end

/-! The pending wall time (R49) -/

theorem find_wallSetHi : (RegMap.find Reg.TIM_WALL_SET_HI).map (fun d => (d.back, d.words, rowWritable d)) = some (4, 2, true) := by
  decide +kernel

/-- The highest word of a wide value commits it with the lower word that its path holds, or the register's (R9). -/
theorem writeReg_highWord {s : State} (hup : s.up = true) (p : Path) {o : Nat} (v : Word) {b n : Nat} (hb : b ≠ 0) (hn : 2 ≤ n)
    (h : (RegMap.find o).map (fun d => (d.back, d.words, rowWritable d)) = some (b, n, true)) :
    s.writeReg p o v = (s.takeLow p (o - b)).2.commitWide (o - b) (s.takeLow p (o - b)).1 v := by
  obtain ⟨d, hd, heq⟩ := Option.map_eq_some_iff.mp h
  simp only [Prod.mk.injEq] at heq
  obtain ⟨rfl, rfl, hw⟩ := heq
  rw [State.writeReg, if_neg (by simp [readable_of_up hup]), hd]
  dsimp only
  rw [if_neg (by simp [hw]; omega), if_neg hb]

theorem exec_timWallSetWrite_up {s : State} (hup : s.up = true) (p : Path) (hi : Word) : exec (.timWallSetWrite p hi) s =
    done ((s.takeLow p Reg.TIM_WALL_SET_LO).2.writeWallSet (s.takeLow p Reg.TIM_WALL_SET_LO).1 hi) := by
  change done (s.writeReg p Reg.TIM_WALL_SET_HI hi) = _
  rw [writeReg_highWord hup p hi (by decide) (by decide) find_wallSetHi]
  exact congrArg done (if_pos rfl)

theorem exec_timWallSetWrite_down {s : State} (hup : s.up = false) (p : Path) (hi : Word) : exec (.timWallSetWrite p hi) s = done s :=
  congrArg done (if_pos (by simp [State.readable, hup, Reg.TIM_WALL_SET_HI, Reg.HUB_ID, Reg.HUB_REV, Reg.HUB_SERIAL_LO,
    Reg.HUB_SERIAL_HI, Reg.HUB_STATE]))

/-- Taking the lower word changes the copies of its path alone. -/
theorem setPath_mem_hub (s : State) (p : Path) (c : PathCopy) : (s.setPath p c).mem = s.mem ∧ (s.setPath p c).hub = s.hub := by
  cases p with
  | pcie => exact ⟨rfl, rfl⟩
  | smb => exact ⟨rfl, rfl⟩
  | fw => exact ⟨rfl, rfl⟩

/-- What a committed wall time leaves: it waits, and shows that it does. -/
theorem writeWallSet_pending (s : State) (lo hi : Word) :
    (s.writeWallSet lo hi).time.wallSet = some (lo.toNat + 2 ^ 32 * (hi.toNat % 65536)) ∧
    (s.writeWallSet lo hi).fld F.TIM_STATUS.wall_set_pending = 1 ∧ (s.writeWallSet lo hi).mem = s.mem ∧
    (s.writeWallSet lo hi).hub = s.hub := by
  unfold State.writeWallSet
  dsimp only
  exact ⟨rfl, fld_raise_same _ (by unfold Fits; decide) (by decide), rfl, rfl⟩

/-- Settles O14: an accepted edge is `acceptPps_eq`, whose registers and time unit have their lemmas; the other rows are a branch each. -/
theorem ppsEdgesSetTheWallClock : Obligations.PpsEdgesSetTheWallClock := by
  intro n w s
  refine ⟨fun h => ?_, exec_ppsPulse_narrow, fun h ⟨p, hp, hn⟩ => exec_ppsPulse_early h hp hn, fun h hn =>
    ⟨_, exec_ppsPulse_accepted h hn, ?_⟩, rfl, fun hst hh hr hlt hc => ⟨exec_wallSecondCarry_carries hst hh hr hlt hc, fun hleft ha => ?_⟩,
    exec_wallSecondCarry_stays, fun p hi => ⟨fun hup => ⟨_, exec_timWallSetWrite_up hup p hi, ?_⟩, fun hup =>
    exec_timWallSetWrite_down hup p hi⟩⟩
  · rw [h]
    exact exec_ppsPulse_none
  · obtain ⟨hlast, hset, hspool⟩ := edgeTime_always (s := s) n
    obtain ⟨r, hframe⟩ := edgeRegs_regs s
    have hmem : (edgeRegs s).mem = s.mem ∧ (edgeRegs s).hub = s.hub := by
      rw [hframe]
      exact ⟨rfl, rfl⟩
    refine ⟨hlast, captureLo_edgeRegs s, captureHi_edgeRegs s, wallFrac_edgeRegs s, ppsMissing_edgeRegs s, hset, hspool, fun sec hw => ?_,
      fun hw ha => ?_, fun hw ha => ?_, hmem⟩
    · rw [edgeTime_set n hw]
      exact ⟨rfl, rfl, wallSetPending_edgeRegs hw⟩
    · rw [edgeTime_align n hw ha]
      exact ⟨rfl, rfl⟩
    · rw [edgeTime_plain n hw ha]
      exact ⟨rfl, rfl⟩
  · rw [tick_time hleft]
    exact tickedTime_carry hc ha
  · obtain ⟨hset, hpend, hmem, hhub⟩ := writeWallSet_pending (s.takeLow p Reg.TIM_WALL_SET_LO).2 (s.takeLow p Reg.TIM_WALL_SET_LO).1 hi
    obtain ⟨hmem', hhub'⟩ := setPath_mem_hub s p { s.path p with low := tset noWord (s.path p).low Reg.TIM_WALL_SET_LO none }
    exact ⟨hset, hpend, hmem.trans hmem', hhub.trans hhub'⟩

end Sys2Proof.Laws
end

section
/-!
SUPPORT. The scrambler of the output lanes and the descrambler of the input lanes (R78, R228), bit by bit: both are runs over the
bits of a payload, and each step of one undoes a step of the other while their registers are equal.
-/
namespace Sys2Proof.Laws

open Sys2Proof.Machine

/-- What both polynomials add to a bit: the register's taps (R78). -/
def taps (st : Nat) : Nat := bits st 38 1 + bits st 57 1

/-- The scrambler over a list of bits: its register, and the bits it sends. -/
def scrambleBits : Nat → List Nat → Nat × List Nat
  | st, [] => (st, [])
  | st, b :: bs =>
    let out := (b + taps st) % 2
    let r := scrambleBits ((2 * st + out) % 2 ^ 58) bs
    (r.1, out :: r.2)

/-- The number that a list of binary digits spells, the lowest first. -/
def ofBits : List Nat → Nat
  | [] => 0
  | b :: bs => b + 2 * ofBits bs

/-- A digit at place `k` and those after it, each with its weight. -/
theorem add_weighted_ofBits (a b k : Nat) (bs : List Nat) : a + b * 2 ^ k + 2 ^ (k + 1) * ofBits bs = a + 2 ^ k * ofBits (b :: bs) := by
  rw [ofBits, Nat.mul_add, Nat.pow_succ, Nat.mul_assoc, Nat.mul_comm b, Nat.add_assoc]

theorem foldl_scrambleBit (bs : List Nat) : ∀ st a k, bs.foldl scrambleBit (st, a, k) =
    ((scrambleBits st bs).1, a + 2 ^ k * ofBits (scrambleBits st bs).2, k + bs.length) := by
  induction bs with
  | nil => intro st a k; rfl
  | cons b bs ih =>
    intro st a k
    have hstep : scrambleBit (st, a, k) b = ((2 * st + (b + taps st) % 2) % 2 ^ 58, a + (b + taps st) % 2 * 2 ^ k, k + 1) := by
      rw [scrambleBit, Nat.add_assoc, ← taps]
    rw [List.foldl_cons, hstep, ih, add_weighted_ofBits, Nat.add_assoc, Nat.add_comm 1, List.length_cons, scrambleBits]

theorem length_scrambleBits (bs : List Nat) : ∀ st, (scrambleBits st bs).2.length = bs.length := by
  induction bs with
  | nil => intro st; rfl
  | cons b bs ih => intro st; simp [scrambleBits, ih]

theorem scrambleBits_lt_two (bs : List Nat) : ∀ st, ∀ d ∈ (scrambleBits st bs).2, d < 2 := by
  induction bs with
  | nil => intro st d hd; simp [scrambleBits] at hd
  | cons b bs ih =>
    intro st d hd
    simp only [scrambleBits, List.mem_cons] at hd
    rcases hd with rfl | hd
    · exact Nat.mod_lt _ (by decide)
    · exact ih _ d hd

/-- The register has 58 bits once a bit has gone through. -/
theorem scrambleBits_register_lt (bs : List Nat) : ∀ st, st < 2 ^ 58 ∨ bs ≠ [] → (scrambleBits st bs).1 < 2 ^ 58 := by
  induction bs with
  | nil => intro st h; simpa [scrambleBits] using h
  | cons b bs ih => intro st _; exact ih _ (.inl (Nat.mod_lt _ (Nat.two_pow_pos 58)))

/-- The descrambler adds the same taps to the bit sent, and takes that bit into its register: it gives the bits back, and both
registers go on equal. -/
theorem foldl_descrambleBit (bs : List Nat) (hbs : ∀ b ∈ bs, b < 2) : ∀ st a k, (scrambleBits st bs).2.foldl descrambleBit (st, a, k) =
    ((scrambleBits st bs).1, a + 2 ^ k * ofBits bs, k + bs.length) := by
  induction bs with
  | nil => intro st a k; rfl
  | cons b bs ih =>
    intro st a k
    have hb : b < 2 := hbs b List.mem_cons_self
    have hback : ((b + taps st) % 2 + taps st) % 2 = b := by omega
    have hstep : descrambleBit (st, a, k) ((b + taps st) % 2) =
        ((2 * st + (b + taps st) % 2) % 2 ^ 58, a + b * 2 ^ k, k + 1) := by
      rw [descrambleBit, Nat.add_assoc, ← taps, hback]
    rw [scrambleBits, List.foldl_cons, hstep, ih fun c hc => hbs c (List.mem_cons_of_mem b hc), add_weighted_ofBits, Nat.add_assoc,
      Nat.add_comm 1, List.length_cons]

theorem ofBits_lt (l : List Nat) (hl : ∀ d ∈ l, d < 2) : ofBits l < 2 ^ l.length := by
  induction l with
  | nil => exact Nat.one_pos
  | cons b l ih =>
    have hb : b < 2 := hl b List.mem_cons_self
    have hrest := ih fun d hd => hl d (List.mem_cons_of_mem b hd)
    rw [ofBits, List.length_cons, Nat.pow_succ]
    omega

/-- The digit at place `i` of the number that they spell. -/
theorem bits_ofBits (l : List Nat) (hl : ∀ d ∈ l, d < 2) : ∀ i (h : i < l.length), bits (ofBits l) i 1 = l[i] := by
  induction l with
  | nil => intro i h; exact absurd h (Nat.not_lt_zero i)
  | cons b l ih =>
    have hb : b < 2 := hl b List.mem_cons_self
    intro i h
    cases i with
    | zero =>
      rw [ofBits, bits, Nat.shiftRight_zero, List.getElem_cons_zero]
      omega
    | succ i =>
      have hhalf : ofBits (b :: l) >>> 1 = ofBits l := by
        rw [ofBits, Nat.shiftRight_succ, Nat.shiftRight_zero]
        omega
      rw [List.getElem_cons_succ, ← ih (fun d hd => hl d (List.mem_cons_of_mem b hd)) i (Nat.lt_of_succ_lt_succ h), bits, bits,
        Nat.add_comm i, Nat.shiftRight_add, hhalf]

/-- The payload that 64 binary digits spell has those bits. -/
theorem payloadBits_ofBits {l : List Nat} (hlen : l.length = 64) (hl : ∀ d ∈ l, d < 2) : payloadBits (BitVec.ofNat 64 (ofBits l)) = l := by
  have hlt : ofBits l < 2 ^ 64 := hlen ▸ ofBits_lt l hl
  apply List.ext_getElem
  · rw [payloadBits, List.length_map, List.length_range, hlen]
  · intro i h1 h2
    simp only [payloadBits, List.getElem_map, List.getElem_range, BitVec.toNat_ofNat, Nat.mod_eq_of_lt hlt, bits_ofBits l hl i h2]

theorem payloadBits_lt_two (p : BitVec 64) : ∀ b ∈ payloadBits p, b < 2 := by
  intro b hb
  obtain ⟨i, -, rfl⟩ := List.mem_map.mp hb
  exact Nat.mod_lt _ (by decide)

theorem length_payloadBits (p : BitVec 64) : (payloadBits p).length = 64 := by
  rw [payloadBits, List.length_map, List.length_range]

/-- The `n` lowest bits of a number spell it cut to `n` bits. -/
theorem ofBits_range_bits (v n : Nat) : ∀ lo, ofBits ((List.range' lo n).map (fun i => bits v i 1)) = (v >>> lo) % 2 ^ n := by
  induction n with
  | zero => intro lo; rw [Nat.pow_zero, Nat.mod_one]; rfl
  | succ n ih =>
    intro lo
    rw [List.range'_succ, List.map_cons, ofBits, ih, bits, Nat.shiftRight_succ, Nat.pow_one, Nat.pow_succ', Nat.mod_mul]

/-- A payload is its bits. -/
theorem ofBits_payloadBits (p : BitVec 64) : BitVec.ofNat 64 (ofBits (payloadBits p)) = p := by
  rw [payloadBits, List.range_eq_range', ofBits_range_bits, Nat.shiftRight_zero, Nat.mod_eq_of_lt p.isLt, BitVec.ofNat_toNat,
    BitVec.setWidth_eq]

theorem scramble_eq (st : Nat) (p : BitVec 64) : scramble st p =
    ((scrambleBits st (payloadBits p)).1, BitVec.ofNat 64 (ofBits (scrambleBits st (payloadBits p)).2)) := by
  simp [scramble, foldl_scrambleBit]

theorem descramble_scramble (st : Nat) (p : BitVec 64) : descramble st (scramble st p).2 = ((scramble st p).1, p) := by
  have hlen : (scrambleBits st (payloadBits p)).2.length = 64 := (length_scrambleBits _ st).trans (length_payloadBits p)
  rw [scramble_eq, descramble, payloadBits_ofBits hlen (scrambleBits_lt_two _ st), foldl_descrambleBit _ (payloadBits_lt_two p)]
  simp [ofBits_payloadBits]

theorem scramble_register_lt (st : Nat) (p : BitVec 64) : (scramble st p).1 < 2 ^ 58 := by
  have hne : payloadBits p ≠ [] := List.ne_nil_of_length_pos ((length_payloadBits p).symm ▸ by decide)
  simpa only [scramble_eq] using scrambleBits_register_lt _ st (.inr hne)

/-! The blocks of a frame -/

theorem length_frameBlocks (f : FrameData) : f.blocks.length = 12 := by simp [FrameData.blocks]

/-- The blocks between the first and the last are data blocks (R229). -/
theorem frameBlocks_data (f : FrameData) {k : Nat} (h1 : 1 ≤ k) (h2 : k ≤ 10) : (f.blocks.getD k (0, 0)).1 = 1 := by
  obtain ⟨j, rfl⟩ := Nat.exists_eq_add_of_le' h1
  have hj : j < 10 := by omega
  simp [FrameData.blocks, List.getD_eq_getElem?_getD, List.getElem?_append, hj]

/-- Settles O35: `descramble_scramble` is the induction over the bits of a payload, and a frame's blocks stand in its definition. -/
theorem scramblersAgree : Obligations.ScramblersAgree :=
  ⟨fun st p _ => descramble_scramble st p, scramble_register_lt, fun f =>
    ⟨length_frameBlocks f, rfl, by simp [FrameData.blocks], fun _ => frameBlocks_data f⟩⟩

end Sys2Proof.Laws
end

section
/-!
SUPPORT. Candidates of a Raw-W lane and the frames of a LOCKED lane (R81, R86-R89, R94): one lemma for each way in which a marker, a trial
frame and a completed frame end.
-/
namespace Sys2Proof.Laws

open Sys2Proof.Machine

@[simp] theorem lane_setLane_same (s : State) (n : Nat) (l : Lane) : (s.setLane n l).lane n = l := tget_tset_same _ _ _ _

theorem lane_setLane_ne (s : State) {n k : Nat} (l : Lane) (h : k ≠ n) : (s.setLane n l).lane k = s.lane k :=
  tget_tset_ne _ _ _ h.symm

/-! The rows of a lane by their bodies -/

theorem exec_laneBitLock (n : Fin 96) (s : State) : exec (.laneBitLock n) s = execLaneBitLock n s := rfl

theorem exec_laneSignalLoss (n : Fin 96) (s : State) : exec (.laneSignalLoss n) s = execLaneSignalLoss n s := rfl

theorem exec_lane66bBlock (n : Fin 96) (h : BitVec 2) (p : BitVec 64) (s : State) :
    exec (.lane66bBlock n h p) s = execLane66bBlock n h p s := rfl

theorem exec_lane66bFrameHunt (n : Fin 96) (s : State) : exec (.lane66bFrameHunt n) s = execLane66bFrameHunt n s := rfl

theorem exec_rawMarkerMatch (n : Fin 96) (ph : Fin 768) (s : State) : exec (.rawMarkerMatch n ph) s = execRawMarkerMatch n ph s := rfl

theorem exec_rawTrialFrame (n : Fin 96) (ph : Fin 768) (ws : List Word) (s : State) :
    exec (.rawTrialFrame n ph ws) s = execRawTrialFrame n ph ws s := rfl

theorem exec_laneFrame (n : Fin 96) (ws : List Word) (s : State) : exec (.laneFrame n ws) s = execLaneFrame n ws s := rfl

/-! Raw-W candidates (R86) -/

theorem exec_rawMarkerMatch_known {s : State} {n : Fin 96} {ph : Fin 768} (h : ∃ c ∈ (s.lane n).cands, c.phase = ph.val) :
    exec (.rawMarkerMatch n ph) s = done s := by
  have hany : (s.lane n).cands.any (fun c => c.phase == ph.val) = true := by simpa using h
  simp [exec_rawMarkerMatch, execRawMarkerMatch, hany]

section
variable {s : State} {n : Fin 96} {ph : Fin 768} (hst : s.laneState n = lsCand)
include hst

theorem exec_rawMarkerMatch_new (h : ∀ c ∈ (s.lane n).cands, c.phase ≠ ph.val) : exec (.rawMarkerMatch n ph) s =
    done (if (s.lane n).cands.length < 4 then s.setCands n ((s.lane n).cands ++ [{ phase := ph }])
      else s.satInc (F.INL_LANE_CAND.cand_overflow (n / 48) (n % 48))) := by
  have hany : (s.lane n).cands.any (fun c => c.phase == ph.val) = false := by simpa using h
  simp [exec_rawMarkerMatch, execRawMarkerMatch, hst, hany]

section
variable {c : Cand} (hc : (s.lane n).cands.find? (fun c => c.phase == ph.val) = some c) (ws : List Word)
include hc

/-- A trial frame of a candidate, its words inverted as the lane's polarity asks. -/
theorem exec_rawTrialFrame_candidate : exec (.rawTrialFrame n ph ws) s =
    let w := s.rawWords n ws
    let others := (s.lane n).cands.filter (fun c => c.phase != ph.val)
    let fails := if rawCrcOk w then c.fails else c.fails + 1
    done (if !s.rawMarker n w then s.setCands n others
      else if 3 ≤ fails then (s.setCands n others).satInc (F.INL_LANE_CAND.cand_drop_crc (n / 48) (n % 48))
      else if c.frames + 1 < 8 then s.setCands n ((s.lane n).cands.map (fun x =>
        if x.phase = ph.val then { x with frames := c.frames + 1, fails := fails } else x))
      else s.gainLock n 0 (some ph.val)) := by
  rw [exec_rawTrialFrame, execRawTrialFrame, hst, hc]
  rfl

end
end

/-- Settles O20: a marker finds its phase among the candidates or not, and a trial frame of a candidate has four ends. -/
theorem rawCandidates : Obligations.RawCandidates := by
  intro n ph s hst
  refine ⟨fun hnew => ⟨fun hlen => ?_, fun hlen => ?_⟩, exec_rawMarkerMatch_known, fun c ws hc => ?_⟩
  · rw [exec_rawMarkerMatch_new hst hnew, if_pos hlen, done]
  · rw [exec_rawMarkerMatch_new hst hnew, if_neg (Nat.not_lt.mpr hlen), done]
  · rw [exec_rawTrialFrame_candidate hst hc]
    dsimp only
    refine ⟨fun hm => ?_, fun hm hf hn => ?_, fun hm hf hn => ?_, fun hm hf => ?_⟩
    · rw [if_pos (by rw [hm, Bool.not_false]), done]
    · rw [if_neg (by simp [hm]), if_neg (Nat.not_le.mpr hf), if_pos hn, done]
    · rw [if_neg (by simp [hm]), if_neg (Nat.not_le.mpr hf), if_neg (by omega), done]
    · rw [if_neg (by simp [hm]), if_pos hf, done]

/-! Filing (R89, R94) -/

theorem markBad_keeps_good (s : State) (n : Nat) {k : Nat} {g : LaneData} (h : s.slot n k = .good g) : (s.markBad n).slot n k = .good g := by
  unfold State.markBad
  dsimp only
  split
  next hm =>
    have he : s.slot n (s.nominal n) = .empty := by simp_all
    have hne : s.nominal n % 64 ≠ k % 64 := fun hk => by
      rw [State.slot, hk, ← State.slot, h] at he
      cases he
    rw [State.slot, State.setSlot, lane_setLane_same, tget_tset_ne _ _ _ hne]
    exact h
  next => exact h

theorem slot_setSlot_same (s : State) (n a : Nat) (v : Slot) : (s.setSlot n a v).slot n a = v := by
  rw [State.slot, State.setSlot, lane_setLane_same, tget_tset_same]

theorem slot_setSlot_ne (s : State) (n : Nat) {a k : Nat} (v : Slot) (h : k % 64 ≠ a % 64) : (s.setSlot n a v).slot n k = s.slot n k := by
  rw [State.slot, State.setSlot, lane_setLane_same, tget_tset_ne _ _ _ h.symm, State.slot]

theorem slot_of_lanes {s t : State} (h : t.lanes = s.lanes) (n k : Nat) : t.slot n k = s.slot n k := by
  rw [State.slot, State.lane, h, ← State.lane, ← State.slot]

/-- Showing a filed frame changes registers alone. -/
theorem lanes_fileFrame (s : State) (n a : Nat) (f : LaneData) : (s.fileFrame n a f).lanes = (s.setSlot n a (.good f)).lanes := by
  simp only [State.fileFrame, State.when, apply_ite State.lanes, State.setFld_lanes, State.setReg_lanes, ite_self]

theorem slot_fileFrame (s : State) (n a k : Nat) (f : LaneData) : (s.fileFrame n a f).slot n k = (s.setSlot n a (.good f)).slot n k :=
  slot_of_lanes (lanes_fileFrame s n a f) n k

/-- A frame is filed at the smallest crossing of the window that expects its header value (R89). -/
theorem fileAt_eq_some {s : State} {n x a : Nat} (h : s.fileAt n x = some a) :
    let depth := s.fld (F.INL_LANE_ALIGN.depth (n / 48) (n % 48))
    ∃ j, a = s.xindex + 1 + depth + j ∧ j ≤ s.fld (F.INL_LANE_ALIGN.win (n / 48) (n % 48)) ∧ s.expected (1 + depth + j) = x ∧
      ∀ j', j' < j → s.expected (1 + depth + j') ≠ x := by
  obtain ⟨j, hj, rfl⟩ := Option.map_eq_some_iff.mp h
  obtain ⟨hx, hwin, hfirst⟩ := List.find?_range_eq_some.mp hj
  exact ⟨j, rfl, by simpa [Nat.lt_succ_iff] using hwin, by simpa using hx, fun j' hj' => by simpa using hfirst j' hj'⟩

/-! The checks of R88 in their order -/

section
variable {s : State} {n : Nat} {f : Seen}

theorem checkFrame_malformed (h : f.formOk = false) :
    s.checkFrame n f = (s.satInc (F.INL_LANE_ERR1.form_err (n / 48) (n % 48))).markBad n := by
  simp [State.checkFrame, h]

variable (hform : f.formOk = true)
include hform

theorem checkFrame_badCrc (h : f.crcOk = false) :
    s.checkFrame n f = (s.satInc (F.INL_LANE_ERR0.crc_err (n / 48) (n % 48))).markBad n := by
  simp [State.checkFrame, hform, h]

variable (hcrc : f.crcOk = true)
include hcrc

theorem checkFrame_tooLong (h : f.capacity < f.data.plen) :
    s.checkFrame n f = (s.satInc (F.INL_LANE_ERR1.len_err (n / 48) (n % 48))).markBad n := by
  simp [State.checkFrame, hform, hcrc, h]

variable (hlen : f.data.plen ≤ f.capacity)
include hlen

theorem checkFrame_outside (h : s.fileAt n f.data.xingLo = none) :
    s.checkFrame n f = (s.satInc (F.INL_LANE_ERR2.win_err (n / 48) (n % 48))).markBad n := by
  simp [State.checkFrame, hform, hcrc, Nat.not_lt.mpr hlen, h]

theorem checkFrame_duplicate {a : Nat} {g : LaneData} (h : s.fileAt n f.data.xingLo = some a) (hg : s.slot n a = .good g) :
    s.checkFrame n f = (s.satInc (F.INL_LANE_ERR2.dup (n / 48) (n % 48))).markBad n := by
  simp [State.checkFrame, hform, hcrc, Nat.not_lt.mpr hlen, h, hg]

theorem checkFrame_filed {a : Nat} (h : s.fileAt n f.data.xingLo = some a) (hfree : ∀ g, s.slot n a ≠ .good g)
    (hj : s.joined n (s.nominal n) = true) : s.checkFrame n f = s.fileFrame n a f.data := by
  cases hslot : s.slot n a with
  | good g => exact absurd hslot (hfree g)
  | empty => simp [State.checkFrame, hform, hcrc, Nat.not_lt.mpr hlen, h, hslot, hj]
  | bad => simp [State.checkFrame, hform, hcrc, Nat.not_lt.mpr hlen, h, hslot, hj]

end

/-! LANE_FRAME -/

section
variable {s : State} {n : Fin 96} (ws : List Word)

theorem exec_laneFrame_unlocked (h : s.laneState n ≠ lsLocked) : exec (.laneFrame n ws) s = done s := by
  simp [exec_laneFrame, execLaneFrame, h]

variable (hst : s.laneState n = lsLocked)
include hst

theorem exec_laneFrame_raw (h : s.rawMode n = true) : exec (.laneFrame n ws) s =
    done ((s.checkFrame n (s.seeRaw n (s.rawWords n ws))).frameStats n (s.seeRaw n (s.rawWords n ws))) := by
  simp [exec_laneFrame, execLaneFrame, hst, h]

/-- In 66B the oldest 12 blocks are the frame, when they have come. -/
theorem exec_laneFrame_66 (h : s.rawMode n = false) :
    exec (.laneFrame n ws) s = done (if (s.lane n).blocks.length < 12 then s else s.frame66 n) := by
  simp [exec_laneFrame, execLaneFrame, hst, h]

end

/-- Settles O21: LANE_FRAME by the lane's state and mode, then one lemma for each check in its order. -/
theorem framesAreCheckedInOrder : Obligations.FramesAreCheckedInOrder := by
  refine ⟨fun n ws s hst => ⟨exec_laneFrame_raw ws hst, fun hraw hlen => ?_, fun hraw hlen => ?_⟩, fun n ws s =>
    exec_laneFrame_unlocked ws, fun n f s => ⟨checkFrame_malformed, checkFrame_badCrc, checkFrame_tooLong, fun hform hcrc hlen =>
    ⟨checkFrame_outside hform hcrc hlen, fun a g => checkFrame_duplicate hform hcrc hlen, fun a ha hfree hj => ?_⟩, fun k g =>
    markBad_keeps_good s n⟩⟩
  · rw [exec_laneFrame_66 ws hst hraw, if_neg (Nat.not_lt.mpr hlen), done, State.frame66]
  · rw [exec_laneFrame_66 ws hst hraw, if_pos hlen, done]
  · rw [checkFrame_filed hform hcrc hlen ha hfree hj]
    refine ⟨?_, fileAt_eq_some ha, fun k hk => ?_⟩
    · rw [slot_fileFrame, slot_setSlot_same]
    · rw [slot_fileFrame, slot_setSlot_ne _ _ _ hk]

end Sys2Proof.Laws
end

section
/-!
SUPPORT. What the rows of a lane leave unchanged (R76, R83-R86, R99): each operation on lane `n` writes that lane, its block of registers
and the lock registers of its die, and so keeps the other lanes and their states.
-/
namespace Sys2Proof.Laws

open Sys2Proof.Machine

/-! The registers of a lane -/

/-- A register that shows the state of no lane but `n`. -/
def ShowsNoOther (n o : Nat) : Prop := ∀ k, k < 96 → k ≠ n → o ≠ Reg.INL_LANE_STATE (k / 48) (k % 48)

/-- The registers of lane `n` stand in 0x40 bytes of their own. -/
theorem showsNoOther_of_block {n o x : Nat} (hn : n < 96) (hx : x < 0x40)
    (ho : o = x + 0x801000 + 0x100000 * (n / 48) + 0x40 * (n % 48)) : ShowsNoOther n o := by
  intro k hk hkn
  rw [ho, Reg.INL_LANE_STATE]
  omega

theorem showsNoOther_lock (n d : Nat) : ShowsNoOther n (Reg.INL_LOCK_LO d) ∧ ShowsNoOther n (Reg.INL_LOCK_HI d) := by
  constructor <;> intro k _ _ <;> simp only [Reg.INL_LOCK_LO, Reg.INL_LOCK_HI, Reg.INL_LANE_STATE] <;> omega

/-! What an operation on a lane keeps -/

/-- `t` is `s` with other registers and lanes, and every lane but `n` as it was. -/
structure KeepsOtherLanes (n : Nat) (s t : State) : Prop where
  frame : ∃ r ls, t = { s with regs := r, lanes := ls }
  lane : ∀ k, k ≠ n → t.lane k = s.lane k
  laneState : ∀ k, k < 96 → k ≠ n → t.laneState k = s.laneState k

namespace KeepsOtherLanes

variable {n : Nat} {s t u : State}

theorem refl (n : Nat) (s : State) : KeepsOtherLanes n s s := ⟨⟨_, _, rfl⟩, fun _ _ => rfl, fun _ _ _ => rfl⟩

theorem trans (h : KeepsOtherLanes n s t) (h' : KeepsOtherLanes n t u) : KeepsOtherLanes n s u where
  frame := by
    obtain ⟨r, ls, rfl⟩ := h.frame
    obtain ⟨r', ls', rfl⟩ := h'.frame
    exact ⟨r', ls', rfl⟩
  lane k hk := (h'.lane k hk).trans (h.lane k hk)
  laneState k hk hkn := (h'.laneState k hk hkn).trans (h.laneState k hk hkn)

theorem setLane (h : KeepsOtherLanes n s t) (l : Lane) : KeepsOtherLanes n s (t.setLane n l) :=
  h.trans ⟨⟨_, _, rfl⟩, fun _ hk => lane_setLane_ne t l hk, fun _ _ _ => rfl⟩

theorem setReg (h : KeepsOtherLanes n s t) {o : Nat} (ho : ShowsNoOther n o) (w : Word) : KeepsOtherLanes n s (t.setReg o w) :=
  h.trans ⟨⟨_, _, rfl⟩, fun _ _ => rfl, fun k hk hkn => fld_setReg_off t w (ho k hk hkn)⟩

theorem setFld (h : KeepsOtherLanes n s t) {f : Fld} (ho : ShowsNoOther n f.off) (v : Nat) : KeepsOtherLanes n s (t.setFld f v) :=
  h.setReg ho _

theorem when (h : KeepsOtherLanes n s t) (b : Bool) {f : State → State} (hf : ∀ v, KeepsOtherLanes n s v → KeepsOtherLanes n s (f v)) :
    KeepsOtherLanes n s (t.when b f) := by
  cases b
  · exact h
  · exact hf t h

theorem markBad (h : KeepsOtherLanes n s t) : KeepsOtherLanes n s (t.markBad n) := by
  unfold State.markBad
  dsimp only
  split
  · exact h.setLane _
  · exact h

theorem setLaneState (h : KeepsOtherLanes n s t) (hn : n < 96) (st : Nat) : KeepsOtherLanes n s (t.setLaneState n st) := by
  have hstate := h.setFld (f := F.INL_LANE_STATE.state (n / 48) (n % 48)) (showsNoOther_of_block hn (by decide) rfl) st
  obtain ⟨hlo, hhi⟩ := showsNoOther_lock n (n / 48)
  unfold State.setLaneState State.showLock
  split
  · exact hstate.setFld hlo _
  · exact hstate.setFld hhi _

theorem clearReceiver (h : KeepsOtherLanes n s t) (hn : n < 96) : KeepsOtherLanes n s (t.clearReceiver n) :=
  (h.setLane _).setReg (showsNoOther_of_block hn (by decide) rfl) _

theorem fileFrame (h : KeepsOtherLanes n s t) (hn : n < 96) (a : Nat) (f : LaneData) : KeepsOtherLanes n s (t.fileFrame n a f) := by
  refine when (setReg (h.setLane _) ?_ _) _ fun v hv => hv.setFld ?_ _
  · exact showsNoOther_of_block hn (by decide) rfl
  · exact showsNoOther_of_block hn (by decide) rfl

/-- A frame that is discarded is counted, and marks its slot. -/
theorem discard (h : KeepsOtherLanes n s t) {f : Fld} (ho : ShowsNoOther n f.off) : KeepsOtherLanes n s ((t.satInc f).markBad n) :=
  markBad (h.setFld ho _)

theorem checkFrame (h : KeepsOtherLanes n s t) (hn : n < 96) (f : Seen) : KeepsOtherLanes n s (t.checkFrame n f) := by
  unfold State.checkFrame
  dsimp only
  split
  · exact h.discard (showsNoOther_of_block hn (by decide) rfl)
  split
  · exact h.discard (showsNoOther_of_block hn (by decide) rfl)
  split
  · exact h.discard (showsNoOther_of_block hn (by decide) rfl)
  split
  · exact h.discard (showsNoOther_of_block hn (by decide) rfl)
  split
  · exact h.discard (showsNoOther_of_block hn (by decide) rfl)
  split
  · exact h.fileFrame hn _ _
  · exact h

theorem checkPending (h : KeepsOtherLanes n s t) (hn : n < 96) : KeepsOtherLanes n s (t.checkPending n) := by
  unfold State.checkPending
  dsimp only
  split
  · exact h
  · exact (h.setLane _).checkFrame hn _

theorem dropPartial (h : KeepsOtherLanes n s t) (hn : n < 96) : KeepsOtherLanes n s (t.dropPartial n) := by
  unfold State.dropPartial
  dsimp only
  split
  · exact h
  split
  · exact (h.checkPending hn).markBad
  · exact h.checkPending hn

/-- The way to CDR: what is pending is checked or dropped, the loss is counted, and the receiver starts afresh (R83, R99). -/
theorem toCdr (h : KeepsOtherLanes n s t) (hn : n < 96) : KeepsOtherLanes n s (t.toCdr n) := by
  refine setLaneState (clearReceiver (when (when (when (h.dropPartial hn) _ fun v hv => ?_) _ fun v hv => ?_) _ fun v hv => ?_) hn) hn _
  · exact hv.setFld (showsNoOther_of_block hn (by decide) rfl) _
  · exact hv.setFld (showsNoOther_of_block hn (by decide) rfl) _
  · exact hv.setFld (showsNoOther_of_block hn (by decide) rfl) _

theorem gainLock (h : KeepsOtherLanes n s t) (hn : n < 96) (skip : Nat) (phase : Option Nat) :
    KeepsOtherLanes n s (t.gainLock n skip phase) :=
  (((h.clearReceiver hn).setLane _).setLaneState hn _).setFld (showsNoOther_of_block hn (by decide) rfl) _

end KeepsOtherLanes

/-! The state of a lane -/

theorem laneState_setLaneState (s : State) (n : Nat) {st : Nat} (h : st < 8) : (s.setLaneState n st).laneState n = st := by
  have hset : (s.setFld (F.INL_LANE_STATE.state (n / 48) (n % 48)) st).laneState n = st :=
    (fld_setFld_same s _ (by simp [Fits, F.INL_LANE_STATE.state]) st).trans (Nat.mod_eq_of_lt h)
  unfold State.setLaneState State.showLock
  split
  · refine (fld_setFld_off _ _ _ _ ?_).trans hset
    simp only [F.INL_LOCK_LO.locked, F.INL_LANE_STATE.state, Reg.INL_LOCK_LO, Reg.INL_LANE_STATE]
    omega
  · refine (fld_setFld_off _ _ _ _ ?_).trans hset
    simp only [F.INL_LOCK_HI.locked, F.INL_LANE_STATE.state, Reg.INL_LOCK_HI, Reg.INL_LANE_STATE]
    omega

theorem laneState_toCdr (s : State) (n : Nat) : (s.toCdr n).laneState n = lsCdr := laneState_setLaneState _ n (by decide)

theorem laneState_gainLock (s : State) (n skip : Nat) (phase : Option Nat) : (s.gainLock n skip phase).laneState n = lsLocked := by
  refine (fld_setFld_off _ _ _ _ ?_).trans (laneState_setLaneState _ n (by decide))
  simp only [F.INL_LANE_EVT.lock_gained, F.INL_LANE_STATE.state, Reg.INL_LANE_EVT, Reg.INL_LANE_STATE]
  omega

@[simp] theorem laneState_settle (s : State) (n : Nat) : s.settle.laneState n = s.laneState n := fld_settle s _

@[simp] theorem laneState_setLane (s : State) (n : Nat) (l : Lane) (k : Nat) : (s.setLane n l).laneState k = s.laneState k := rfl

@[simp] theorem lane_settle (s : State) (n : Nat) : s.settle.lane n = s.lane n := by rw [State.lane, State.settle_lanes, State.lane]

/-- What a row of lane `n` that answers `t` says of the state after it. -/
theorem done_of_keepsOtherLanes {n st : Nat} {s t : State} (h : KeepsOtherLanes n s t) (hst : t.laneState n = st) :
    ∃ u, done t = .next u ∧ u.laneState n = st ∧ u.time = s.time ∧ u.mem = s.mem ∧ u.hub = s.hub ∧
      ∀ k, k < 96 → k ≠ n → u.laneState k = s.laneState k ∧ u.lane k = s.lane k := by
  refine ⟨t.settle, rfl, by rw [laneState_settle, hst], ?_, ?_, ?_, fun k hk hkn => ?_⟩
  · obtain ⟨r, ls, rfl⟩ := h.frame
    exact State.settle_time _
  · obtain ⟨r, ls, rfl⟩ := h.frame
    exact State.settle_mem _
  · obtain ⟨r, ls, rfl⟩ := h.frame
    exact State.settle_hub _
  · rw [laneState_settle, lane_settle]
    exact ⟨h.laneState k hk hkn, h.lane k hkn⟩

/-! The rows -/

section
variable {s : State} {n : Fin 96}

/-- Bit lock at a permitted rate leaves CDR (R76, R83). -/
theorem exec_laneBitLock_locks (hst : s.laneState n = lsCdr) (hr : s.laneRateOk n = true) :
    exec (.laneBitLock n) s = done (s.setLaneState n (if s.rawMode n then lsCand else lsBlockHunt)) := by
  simp [exec_laneBitLock, execLaneBitLock, hst, hr]

/-- At another rate the lane stays in CDR with rate_err (R76). -/
theorem exec_laneBitLock_rate (hst : s.laneState n = lsCdr) (hr : s.laneRateOk n = false) :
    exec (.laneBitLock n) s = done (s.raise (F.INL_LANE_EVT.rate_err (n / 48) (n % 48))) := by
  have hdown : lsCdr ≠ lsDown := by decide
  simp [exec_laneBitLock, execLaneBitLock, State.checkRate, hst, hr, hdown]

theorem exec_laneSignalLoss_up (h : s.laneState n ≠ lsDown) : exec (.laneSignalLoss n) s = done (s.toCdr n) := by
  simp [exec_laneSignalLoss, execLaneSignalLoss, h]

/-- A block in BLOCK_HUNT moves the descrambler on, and its header counts (R84). -/
theorem exec_lane66bBlock_hunt (h : BitVec 2) (p : BitVec 64) (hst : s.laneState n = lsBlockHunt) (hraw : s.rawMode n = false)
    (hinv : s.bit (F.INL_LANE_CFG.rx_invert (n / 48) (n % 48)) = false) : exec (.lane66bBlock n h p) s =
    done ((s.setLane n { s.lane n with scrambler := (descramble (s.lane n).scrambler p).1 }).huntBlock n h.toNat) := by
  simp [exec_lane66bBlock, execLane66bBlock, hst, hraw, hinv]

/-- The eighth header hit, 12 blocks after the one before, locks the lane (R85). -/
theorem exec_lane66bFrameHunt_hit {b : Nat × BitVec 64} (hst : s.laneState n = lsFrameHunt) (hb : (s.lane n).newest = some b)
    (hh : isHeaderBlock b = true) (hc : (s.lane n).cand = some (12, 7)) :
    exec (.lane66bFrameHunt n) s = done (s.gainLock n 11 none) := by
  simp [exec_lane66bFrameHunt, execLane66bFrameHunt, State.huntFrame, hst, hb, hh, hc]

end

/-! A header in BLOCK_HUNT (R84) -/

section
variable {s : State} {n h : Nat}

theorem huntBlock_invalid (hh : h = 0 ∨ h = 3) : s.huntBlock n h = s.setLane n { s.lane n with hdrCount := 0 } := by
  rcases hh with rfl | rfl <;> rfl

variable (hh : h = 1 ∨ h = 2)
include hh

theorem huntBlock_counts (hc : (s.lane n).hdrCount < 63) :
    s.huntBlock n h = s.setLane n { s.lane n with hdrCount := (s.lane n).hdrCount + 1 } := by
  rw [State.huntBlock, if_neg (by rcases hh with rfl | rfl <;> decide), if_pos (Nat.succ_lt_succ hc)]

/-- The 64th valid header in a row ends the hunt. -/
theorem huntBlock_locks (hc : (s.lane n).hdrCount = 63) : s.huntBlock n h =
    (s.setLane n { s.lane n with hdrCount := 0, hdrBad := [], newest := none, cand := none }).setLaneState n lsFrameHunt := by
  rw [State.huntBlock, if_neg (by rcases hh with rfl | rfl <;> decide), if_neg (by omega)]

end

/-- Settles O19: each row is one operation on the lane, which keeps the others (`KeepsOtherLanes`). -/
theorem lanesClimbToLock : Obligations.LanesClimbToLock := by
  intro n s
  have same := KeepsOtherLanes.refl n s
  refine ⟨fun hst hr => ?_, exec_laneBitLock_rate, fun hst => ?_, fun h p hst hraw hinv => ?_, fun b k hst hb hh hc hk => ?_⟩
  · rw [exec_laneBitLock_locks hst hr]
    exact done_of_keepsOtherLanes (same.setLaneState n.isLt _) (laneState_setLaneState s n (by split <;> decide))
  · rw [exec_laneSignalLoss_up hst]
    exact done_of_keepsOtherLanes (same.toCdr n.isLt) (laneState_toCdr s n)
  · rw [exec_lane66bBlock_hunt h p hst hraw hinv]
    have hval (v : BitVec 2) (hv : h = v) : h.toNat = v.toNat := congrArg _ hv
    refine ⟨fun hh hc => ?_, fun hh hc => ?_, fun hh => ?_⟩
    · rw [huntBlock_locks (hh.imp (hval 1) (hval 2)) (by simpa using hc)]
      exact done_of_keepsOtherLanes (((same.setLane _).setLane _).setLaneState n.isLt _) (laneState_setLaneState _ n (by decide))
    · refine ⟨_, rfl, ?_, ?_⟩
      · rw [huntBlock_counts (hh.imp (hval 1) (hval 2)) (by simpa using hc), lane_settle, lane_setLane_same, lane_setLane_same]
      · rw [huntBlock_counts (hh.imp (hval 1) (hval 2)) (by simpa using hc), laneState_settle, laneState_setLane, laneState_setLane, hst]
    · refine ⟨_, rfl, ?_, ?_⟩
      · rw [huntBlock_invalid (hh.imp (hval 0) (hval 3)), lane_settle, lane_setLane_same]
      · rw [huntBlock_invalid (hh.imp (hval 0) (hval 3)), laneState_settle, laneState_setLane, laneState_setLane, hst]
  · subst hk
    rw [exec_lane66bFrameHunt_hit hst hb hh hc]
    exact done_of_keepsOtherLanes (same.gainLock n.isLt 11 none) (laneState_gainLock s n 11 none)

end Sys2Proof.Laws
end

section
/-!
SUPPORT. The arithmetic of a conversion (R110): the rounded quotient against the exact one, two's complement modulo a power of two, and the
three ways in which a saturating channel limits a value.
-/
namespace Sys2Proof.Laws

open Sys2Proof.Machine

/-! Rounding -/

/-- Rounding by the remainder of the floor quotient. -/
theorem roundHalfEven_eq (n : Int) (d : Nat) : roundHalfEven n d =
    if 2 * n.fmod d < d then n.fdiv d else if (d : Int) < 2 * n.fmod d then n.fdiv d + 1
    else if n.fdiv d % 2 = 0 then n.fdiv d else n.fdiv d + 1 := by
  rw [Int.fmod_def, Int.mul_comm (d : Int) (n.fdiv d)]
  rfl

/-- The remainder decides the direction, and on a tie the parity of the floor quotient does. -/
theorem roundHalfEven_nearest (n : Int) {d : Nat} (hd : 0 < d) :
    2 * (roundHalfEven n d * d - n) ≤ d ∧ -(d : Int) ≤ 2 * (roundHalfEven n d * d - n) ∧
    (2 * (roundHalfEven n d * d - n) = d ∨ 2 * (roundHalfEven n d * d - n) = -(d : Int) → roundHalfEven n d % 2 = 0) := by
  have hd' : (0 : Int) < d := Int.natCast_pos.mpr hd
  have hdiv : n.fmod d + n.fdiv d * d = n := Int.fmod_add_fdiv_mul n d
  have hnonneg : 0 ≤ n.fmod d := Int.fmod_nonneg_of_pos n hd'
  have hlt : n.fmod d < d := Int.fmod_lt_of_pos n hd'
  have hup : (n.fdiv d + 1) * d = n.fdiv d * d + d := by rw [Int.add_mul, Int.one_mul]
  rw [roundHalfEven_eq]
  split
  · refine ⟨?_, ?_, fun htie => ?_⟩ <;> omega
  · split
    · refine ⟨?_, ?_, fun htie => ?_⟩ <;> omega
    · split
      · refine ⟨?_, ?_, fun htie => ?_⟩ <;> omega
      · refine ⟨?_, ?_, fun htie => ?_⟩ <;> omega

/-! Two's complement -/

theorem unsigned_emod (n : Nat) (v : Int) : (unsigned n v : Int) % (2 ^ n : Nat) = v % (2 ^ n : Nat) := by
  have h : ((2 ^ n : Nat) : Int) ≠ 0 := Int.natCast_ne_zero.mpr (Nat.ne_of_gt (Nat.two_pow_pos n))
  rw [unsigned, Int.toNat_of_nonneg (Int.emod_nonneg v h), Int.emod_emod]

theorem signed_emod (n v : Nat) : signed n v % (2 ^ n : Nat) = v % (2 ^ n : Nat) := by
  unfold signed
  split
  · rw [Int.natCast_emod, Int.emod_emod]
  · rw [Int.sub_emod_right, Int.natCast_emod, Int.emod_emod]

/-! Limiting to a format -/

/-- A format holds 0 and -1: its ends are in order. -/
theorem one_le_formatHalf (fmt : Nat) : (1 : Int) ≤ 2 ^ (fmtWidth fmt - 1) := Int.pow_pos (by decide)

theorem limitTo_saturating (fmt : Nat) (v : Int) : limitTo fmt true v =
    (if v < -(2 ^ (fmtWidth fmt - 1)) then -(2 ^ (fmtWidth fmt - 1))
      else if 2 ^ (fmtWidth fmt - 1) - 1 < v then 2 ^ (fmtWidth fmt - 1) - 1 else v,
      decide (v < -(2 ^ (fmtWidth fmt - 1))) || decide (2 ^ (fmtWidth fmt - 1) - 1 < v)) := rfl

section
variable {fmt : Nat} {v : Int}

theorem limitTo_below (h : v < -(2 ^ (fmtWidth fmt - 1))) : limitTo fmt true v = (-(2 ^ (fmtWidth fmt - 1)), true) := by
  rw [limitTo_saturating, if_pos h, decide_eq_true h, Bool.true_or]

theorem limitTo_above (h : 2 ^ (fmtWidth fmt - 1) - 1 < v) : limitTo fmt true v = (2 ^ (fmtWidth fmt - 1) - 1, true) := by
  have hends := one_le_formatHalf fmt
  have hlo : ¬v < -(2 ^ (fmtWidth fmt - 1)) := by omega
  rw [limitTo_saturating, if_neg hlo, if_pos h, decide_eq_true h, Bool.or_true]

theorem limitTo_inside (hlo : -(2 ^ (fmtWidth fmt - 1)) ≤ v) (hhi : v ≤ 2 ^ (fmtWidth fmt - 1) - 1) :
    limitTo fmt true v = (v, false) := by
  have hlo' := Int.not_lt_of_ge hlo
  have hhi' := Int.not_lt_of_ge hhi
  rw [limitTo_saturating, if_neg hlo', if_neg hhi', decide_eq_false hlo', decide_eq_false hhi', Bool.or_false]

end

/-- A saturating channel delivers a value of its format. -/
theorem limitTo_in_format (fmt : Nat) (v : Int) :
    -(2 ^ (fmtWidth fmt - 1)) ≤ (limitTo fmt true v).1 ∧ (limitTo fmt true v).1 ≤ 2 ^ (fmtWidth fmt - 1) - 1 := by
  have hends := one_le_formatHalf fmt
  by_cases hlo : v < -(2 ^ (fmtWidth fmt - 1))
  · rw [limitTo_below hlo]
    constructor <;> dsimp only <;> omega
  · by_cases hhi : 2 ^ (fmtWidth fmt - 1) - 1 < v
    · rw [limitTo_above hhi]
      constructor <;> dsimp only <;> omega
    · rw [limitTo_inside (Int.not_lt.mp hlo) (Int.not_lt.mp hhi)]
      exact ⟨Int.not_lt.mp hlo, Int.not_lt.mp hhi⟩

/-- A wrapping channel keeps the low bits of the value. -/
theorem limitTo_wraps (fmt : Nat) (v : Int) : ((limitTo fmt false v).1 - v) % 2 ^ fmtWidth fmt = 0 := by
  have hlow : signed (fmtWidth fmt) (unsigned (fmtWidth fmt) v) % (2 ^ fmtWidth fmt : Nat) = v % (2 ^ fmtWidth fmt : Nat) :=
    (signed_emod _ _).trans (unsigned_emod _ v)
  have hpow : ((2 ^ fmtWidth fmt : Nat) : Int) = 2 ^ fmtWidth fmt := Int.natCast_pow 2 (fmtWidth fmt)
  rw [← hpow]
  exact Int.emod_eq_emod_iff_emod_sub_eq_zero.mp hlow

/-- Settles O23: the rounding by the remainder of the floor quotient, the limiting by where the value lies, the wrapping modulo the width. -/
theorem conversionRoundsAndSaturates : Obligations.ConversionRoundsAndSaturates :=
  ⟨fun n _ => roundHalfEven_nearest n,
    fun fmt v => ⟨(limitTo_in_format fmt v).1, (limitTo_in_format fmt v).2, limitTo_inside, limitTo_below, limitTo_above, rfl,
      limitTo_wraps fmt v⟩⟩

end Sys2Proof.Laws
end

section
/-!
SUPPORT. SET_SCALES and READ_QSTATS (R115, R119): the operands each takes, what its row comes to in a state in which its command starts, and
what its effect does when it is due.
-/
namespace Sys2Proof.Laws

open Sys2Proof.Machine

theorem farEnough_begun (s : State) (q : Nat) (c : Cmd) (x : Nat) : (s.begun q c).farEnough x = s.farEnough x := by
  obtain ⟨_, _, e⟩ := begun_touches s q c
  rw [e, State.farEnough, State.farEnough]

section
variable {q : Fin 16} {c : Cmd} {s : State}

/-- A valid SET_SCALES waits for the crossing that it names (R115). -/
theorem exec_setScales (h : s.Starts 0x30 q [lifeLoaded, lifeArmed, lifeLive, lifeDraining] c) (hsub : c.sub = 0)
    (hpairs : scalePairsOk (c.words.drop 2) = true) (hfar : s.farEnough (c.w64 0) = true)
    (hes : ∀ e ∈ scaleEntries (c.words.drop 2), e.1 < 6144 ∧ e.2.2.toNat % 1024 ≠ 0) : exec (.setScales q) s =
    done (((s.begun q c).addEffect ⟨c.w64 0, c.id, .setScales (scaleEntries (c.words.drop 2))⟩).wait c.id) := by
  have hall : (scaleEntries (c.words.drop 2)).any (fun e => 6143 < e.1 || bits e.2.2.toNat 0 10 == 0) = false := by
    rw [List.any_eq_false]
    intro e he
    obtain ⟨hch, hm⟩ := hes e he
    simpa [bits] using ⟨Nat.le_of_lt_succ hch, hm⟩
  change execSetScales q s = _
  rw [execSetScales, command_starts h]
  dsimp only
  rw [if_neg (by simp [hsub, hpairs, farEnough_begun, hfar, hall])]

/-- A valid READ_QSTATS whose engine starts waits for the next crossing boundary (R119). -/
theorem exec_readQstats {first count n e : Nat} {u : State} (h : s.Starts 0x31 q [lifeLoaded, lifeArmed, lifeLive, lifeDraining, lifeReplay] c)
    (hfirst : c.w 0 = first) (hcount : c.w 1 % 8192 = count) (hn : min count (6144 - first) = n)
    (hu : (s.begun q c).startEngine c [⟨.buffer, .hostVirtual, 0, 0, c.w64 2, 16 * n⟩] = u)
    (hsub : c.sub = 0) (honly : c.only [0x1FFF, 0x11FFF] = true) (hpos : count ≠ 0) (hmax : count ≤ 6144) (hch : first < 6144)
    (hrange : hostRange (c.w64 2) (16 * n) = true) (he : (u.engineIn .running).find? (fun e => (u.engine e).cmd == c.id) = some e) :
    exec (.readQstats q) s = done ((u.setEngine e { u.engine e with dataWait := true }).addEffect
      ⟨u.xindex + 1, c.id, .qstats first n (nbit (c.w 1) 16) (c.w64 2)⟩) := by
  have hbits : bits (c.w 1) 0 13 = count := hcount
  change execReadQstats q s = _
  rw [execReadQstats, command_starts h]
  dsimp only
  rw [hfirst, hbits, hn, hu, if_neg (by simp [hsub, honly, hpos, hrange]; omega), he]

end

section
variable {s r : State} {e : Effect}

theorem exec_setScalesApply {es : List (Nat × Nat × Word)} (hb : s.boundaryWaits = false) (h : s.takeDue isSetScales = some (e, r))
    (hk : e.kind = .setScales es) : exec .setScalesApply s = done (r.runScales e es) := by
  change execSetScalesApply s = _
  rw [execSetScalesApply, if_neg (by simp [hb]), h]
  dsimp only
  rw [hk]

theorem exec_readQstatsSnapshot {first n a : Nat} {clear : Bool} (hp : s.presented = none) (h : s.takeDue isQstats = some (e, r))
    (hk : e.kind = .qstats first n clear a) : exec .readQstatsSnapshot s = done (r.runQstats e first n clear) := by
  change execReadQstatsSnapshot s = _
  rw [execReadQstatsSnapshot, if_neg (by simp [hp]), h]
  dsimp only
  rw [hk]

end

/-- Settles O25: one lemma for each row. -/
theorem scaleAndStatisticsCommands : Obligations.ScaleAndStatisticsCommands := fun _ _ _ =>
  ⟨exec_setScales, fun _ _ _ => exec_setScalesApply, fun _ _ _ _ _ _ => exec_readQstatsSnapshot,
    fun _ h => exec_readQstats h rfl rfl rfl rfl⟩

end Sys2Proof.Laws
end

section
/-!
SUPPORT. Tokens on their way to the input queues (R136, R147-R151): what a row of the trellis comes to, what enqueueing and FLUSH leave in the
units, and what becomes of a token at its queue and at a bridge.
-/
namespace Sys2Proof.Laws

open Sys2Proof.Machine

/-! Rows of the trellis and units -/

/-- A row of the trellis whose operation leaves `t`, then the spills that a trace logs for it (R366). -/
theorem tokenRow_runs {s x t : State} (hs : s.stalled = false) (h : x = t) : tokenRow s x = .next t.logSpills.settle :=
  h ▸ unstalled_of_not_stalled hs _

@[simp] theorem attempt_none (s : State) : s.attempt none = s := rfl

@[simp] theorem attempt_silent (s t : State) : s.attempt (some ([], t)) = t := rfl

theorem attempt_fits {s t : State} {rs : List RouteCfg} (h : t.fits rs = true) : s.attempt (some (rs, t)) = t := if_pos h

@[simp] theorem unit_setUnit_same (s : State) (u : Nat) (v : TUnit) : (s.setUnit u v).unit u = v := tget_tset_same _ _ _ _

theorem unit_setUnit_ne (s : State) {u x : Nat} (v : TUnit) (h : x ≠ u) : (s.setUnit u v).unit x = s.unit x :=
  tget_tset_ne _ _ _ h.symm

theorem unit_of_trellis {s t : State} (h : t.trellis = s.trellis) (x : Nat) : t.unit x = s.unit x :=
  congrArg (fun (y : Trellis) => tget (fun _ => ({} : TUnit)) y.units x) h

@[simp] theorem unit_setFld (s : State) (f : Fld) (n x : Nat) : (s.setFld f n).unit x = s.unit x :=
  unit_of_trellis (State.setFld_trellis s f n) x

@[simp] theorem unit_satInc (s : State) (f : Fld) (x : Nat) : (s.satInc f).unit x = s.unit x :=
  unit_of_trellis (State.satInc_trellis s f) x

@[simp] theorem unit_noteMove (s : State) (d x : Nat) : (s.noteMove d).unit x = s.unit x := rfl

@[simp] theorem mem_noteMove (s : State) (d : Nat) : (s.noteMove d).mem = s.mem := rfl

/-! Enqueueing -/

@[simp] theorem unit_enqueue_same (s : State) (u q : Nat) (t : Token) : (s.enqueue u q t).unit u =
    { s.unit u with queues := tset (fun _ => []) (s.unit u).queues q ((s.unit u).queue q ++ [t]) } := by
  rw [State.enqueue, unit_noteMove, unit_setUnit_same]

theorem unit_enqueue_ne (s : State) {u x : Nat} (q : Nat) (t : Token) (h : x ≠ u) : (s.enqueue u q t).unit x = s.unit x := by
  rw [State.enqueue, unit_noteMove, unit_setUnit_ne _ _ h]

theorem queue_enqueue_same (s : State) (u q : Nat) (t : Token) :
    ((s.enqueue u q t).unit u).queue q = (s.unit u).queue q ++ [t] := by
  rw [unit_enqueue_same]
  exact tget_tset_same _ _ _ _

theorem queue_enqueue_ne (s : State) (u : Nat) {q k : Nat} (t : Token) (h : k ≠ q) :
    ((s.enqueue u q t).unit u).queue k = (s.unit u).queue k := by
  rw [unit_enqueue_same]
  exact tget_tset_ne _ _ _ h.symm

@[simp] theorem mem_enqueue (s : State) (u q : Nat) (t : Token) : (s.enqueue u q t).mem = s.mem := rfl

/-! Arrival of a data operand (R150) -/

/-- A data operand and the ERROR token in its place are no FLUSH. -/
theorem isCtl_flush_of_operand {t : Token} (h : t.operand = true) : t.isCtl 4 = false := by
  simp only [Token.operand, Token.isData, Token.errData, Token.isCtl, Bool.or_eq_true, Bool.and_eq_true, beq_iff_eq] at h
  rcases h with hdata | ⟨⟨_, hcode⟩, _⟩
  · simp [Token.isCtl, hdata]
  · simp [Token.isCtl, hcode]

/-- A defined data operand joins its queue, or is a protocol fault where no EVENT_START came before it. -/
theorem arrive_operand {s : State} {u q : Nat} {t : Token} (hop : t.operand = true) (hdef : t.defined = true)
    (hdis : (s.unit u).discard = false) (ctl : Bool) : s.arrive u q t ctl =
      if s.primaryFor u t.tag t.ctx q = q then if s.startedOn u q then s.enqueue u q t else s.faultUnit u 3 1 0 0
      else if ctl && !(s.unit u).opened.contains (q, t.ev) then s.faultUnit u 3 1 0 0 else s.enqueue u q t := by
  rw [State.arrive]
  simp only [isCtl_flush_of_operand hop, hop, hdef, hdis, Bool.false_eq_true, Bool.false_and, Bool.true_and, Bool.not_true, if_false,
    if_true, beq_iff_eq]
  by_cases hp : s.primaryFor u t.tag t.ctx q = q
  · cases hst : s.startedOn u q <;> simp [hp]
  · rw [if_neg hp, if_neg hp]

section
variable {s : State} {u q : Nat} {t : Token} (hop : t.operand = true) (hdef : t.defined = true) (hdis : (s.unit u).discard = false)
include hop hdef hdis

theorem arrive_operand_joins {ctl : Bool} (hp : s.primaryFor u t.tag t.ctx q ≠ q)
    (h : ctl = false ∨ (s.unit u).opened.contains (q, t.ev) = true) : s.arrive u q t ctl = s.enqueue u q t := by
  have hopen : (ctl && !(s.unit u).opened.contains (q, t.ev)) = false := by
    rcases h with h | h
    · rw [h, Bool.false_and]
    · rw [h, Bool.not_true, Bool.and_false]
  rw [arrive_operand hop hdef hdis, if_neg hp, hopen, if_neg Bool.false_ne_true]

theorem arrive_operand_unopened {ctl : Bool} (hp : s.primaryFor u t.tag t.ctx q ≠ q) (hctl : ctl = true)
    (h : (s.unit u).opened.contains (q, t.ev) = false) : s.arrive u q t ctl = s.faultUnit u 3 1 0 0 := by
  rw [arrive_operand hop hdef hdis, if_neg hp, if_pos (by rw [hctl, h]; rfl)]

theorem arrive_operand_unstarted {ctl : Bool} (hp : s.primaryFor u t.tag t.ctx q = q) (h : s.startedOn u q = false) :
    s.arrive u q t ctl = s.faultUnit u 3 1 0 0 := by
  rw [arrive_operand hop hdef hdis, if_pos hp, if_neg (by simp [h])]

end

/-! DATA_TOKEN and FLUSH take the oldest token on its way -/

section
variable {s s' : State} {u q : Nat} {f : Flight}

theorem dataToken_none (h : s.takeFlight (.unit u q) = none) : s.dataToken u q = s := by
  rw [State.dataToken, h]

theorem flushToken_none (h : s.takeFlight (.unit u q) = none) : s.flushToken u q = s := by
  rw [State.flushToken, h]

variable (h : s.takeFlight (.unit u q) = some (f, s'))
include h

theorem dataToken_enters (hw : s.waitsAt (uDie u) f = false) (hq : ((s.unit u).queue q).length < 8) :
    s.dataToken u q = s'.arrive u q f.tok f.ctl := by
  rw [State.dataToken, h]
  exact if_neg (by simp [hw, hq])

theorem dataToken_stays (hw : 8 ≤ ((s.unit u).queue q).length ∨ s.waitsAt (uDie u) f = true) : s.dataToken u q = s := by
  rw [State.dataToken, h]
  exact if_pos (by simpa [or_comm] using hw)

theorem flushToken_flushes (hf : f.tok.isCtl 4 = true) : s.flushToken u q = s'.flushUnit u f.tok.ev := by
  rw [State.flushToken, h]
  exact if_pos hf

end

/-- Without a trace to follow there is no logged spill (R366). -/
theorem logSpills_untraced {s : State} (h : s.traced = false) : s.logSpills = s := by
  rw [State.logSpills]
  cases s.replay with
  | none => rfl
  | some r => exact if_pos (by rw [h]; rfl)

/-! FLUSH (R148) -/

/-- Tokens sent on routes are on their way, and nothing else changes. -/
theorem foldl_sendRoute_flight (u : Nat) (t : Token) (rs : List RouteCfg) (s : State) :
    ∃ fl, rs.foldl (fun s r => s.sendRoute u r t) s = { s with trellis := { s.trellis with flight := fl } } := by
  induction rs generalizing s with
  | nil => exact ⟨_, rfl⟩
  | cons r rs ih => exact ih (s.sendRoute u r t)

/-- FLUSH leaves of a unit its slot alone; beside it there change a count of the spill area, the time of the die's last move, and what is on
its way. -/
theorem flushUnit_touches (s : State) (u : Nat) (ev : EvRef) : ∃ f n fl,
    let e := ((s.setFld f n).setUnit u { slot := (s.unit u).slot }).noteMove (uDie u)
    s.flushUnit u ev = { e with trellis := { e.trellis with flight := fl } } :=
  ⟨_, _, foldl_sendRoute_flight u _ _ _⟩

theorem unit_flushUnit_same (s : State) (u : Nat) (ev : EvRef) : (s.flushUnit u ev).unit u = { slot := (s.unit u).slot } := by
  obtain ⟨f, n, fl, h⟩ := flushUnit_touches s u ev
  rw [h]
  exact unit_setUnit_same _ _ _

theorem unit_flushUnit_ne (s : State) {u x : Nat} (ev : EvRef) (hx : x ≠ u) : (s.flushUnit u ev).unit x = s.unit x := by
  obtain ⟨f, n, fl, h⟩ := flushUnit_touches s u ev
  rw [h]
  exact (unit_setUnit_ne _ _ hx).trans (unit_setFld s f n x)

theorem mem_flushUnit (s : State) (u : Nat) (ev : EvRef) : (s.flushUnit u ev).mem = s.mem := by
  obtain ⟨f, n, fl, h⟩ := flushUnit_touches s u ev
  rw [h]
  exact State.setFld_mem s f n

/-! Bridges (R136) -/

/-- The state with flight `g` at place `i` of those on their way. -/
def setFlight (s : State) (i : Nat) (g : Flight) : State :=
  { s with trellis := { s.trellis with flight := s.trellis.flight.set i g } }

@[simp] theorem unit_setFlight (s : State) (i : Nat) (g : Flight) (x : Nat) : (setFlight s i g).unit x = s.unit x := rfl

section
variable {s : State} {d u q i : Nat} {f : Flight} (hi : s.trellis.flight.findIdx? (fun f => f.dest == .unit u q) = some i)
  (hf : s.trellis.flight.getD i { dest := .unit u q, tok := ⟨0, 0, 0, 0, [], {}⟩ } = f) (hc : f.crosses d = true)
include hi hf hc

/-- A transfer takes the token across when it passes or has failed twice before; the third failure in a row reaches the unit in its event. -/
theorem bridgeTransfer_crossing (ok : Bool) : s.bridgeTransfer d u q ok =
    let t := setFlight s i (if ok || f.fails = 2 then f.across d else { f with fails := f.fails + 1 })
    let t' := t.satInc (F.TRL_BRIDGE_RETRY.count d)
    if ok then t
    else if f.fails != 2 then t'
    else if (t'.unit u).inEvent && (t'.unit u).ev == f.tok.ev then t'.faultUnit u 3 5 0 0 else t'.sideFlags u f.tok.ev 8 none := by
  rw [State.bridgeTransfer, hi]
  dsimp only
  rw [hf, if_neg (by simp [hc])]
  rfl

theorem bridgeTransfer_passes : s.bridgeTransfer d u q true = setFlight s i (f.across d) := by
  rw [bridgeTransfer_crossing hi hf hc]
  rfl

theorem bridgeTransfer_fails (hn : f.fails < 2) : s.bridgeTransfer d u q false =
    (setFlight s i { f with fails := f.fails + 1 }).satInc (F.TRL_BRIDGE_RETRY.count d) := by
  rw [bridgeTransfer_crossing hi hf hc]
  simp [Nat.ne_of_lt hn]

theorem bridgeTransfer_third (hn : f.fails = 2) (hin : (s.unit u).inEvent = true) (hev : (s.unit u).ev = f.tok.ev) :
    s.bridgeTransfer d u q false = ((setFlight s i (f.across d)).satInc (F.TRL_BRIDGE_RETRY.count d)).faultUnit u 3 5 0 0 := by
  rw [bridgeTransfer_crossing hi hf hc]
  simp [hn, hin, hev]

end

/-- Settles O26: arrival of an operand is `arrive_operand`, FLUSH is `flushUnit_touches`, a bridge has one lemma for each way a transfer ends. -/
theorem tokensQueueInOrder : Obligations.TokensQueueInOrder := by
  intro u q s hs
  refine ⟨fun f s' h => ⟨fun hw hq => tokenRow_runs hs (dataToken_enters h hw hq), fun hw => tokenRow_runs hs (dataToken_stays h hw),
      fun hf => tokenRow_runs hs (flushToken_flushes h hf)⟩,
    fun h => ⟨tokenRow_runs hs (dataToken_none h), tokenRow_runs hs (flushToken_none h)⟩, logSpills_untraced,
    fun t ctl hop hdef hdis => ⟨fun hp hopen => ?_, arrive_operand_unopened hop hdef hdis, arrive_operand_unstarted hop hdef hdis⟩,
    fun ev => ?_, fun d i f hi hf hc => ⟨tokenRow_runs hs (bridgeTransfer_passes hi hf hc),
      fun hn => tokenRow_runs hs (bridgeTransfer_fails hi hf hc hn),
      fun hn hin hev => tokenRow_runs hs (bridgeTransfer_third hi hf hc hn hin hev)⟩⟩
  · rw [arrive_operand_joins hop hdef hdis hp hopen]
    exact ⟨queue_enqueue_same s u q t, fun k hk => queue_enqueue_ne s u t hk, fun x hx => unit_enqueue_ne s q t hx, mem_enqueue s u q t⟩
  · rw [unit_flushUnit_same]
    exact ⟨rfl, rfl, fun x hx => unit_flushUnit_ne s ev hx, mem_flushUnit s u ev⟩

end Sys2Proof.Laws
end

section
/-!
SUPPORT. Control tokens at the head of the primary input (R149, R150, R156, R171, R216, R217): what a unit does with an EVENT_START, an
EVENT_END and a CONTEXT_NEXT, one lemma for each branch of its try.
-/
namespace Sys2Proof.Laws

open Sys2Proof.Machine

/-! EVENT_START -/

/-- The unit in the event that a START brings, with its counters and accumulators clear, the token consumed and its slot taken up (R156, R157):
the form of a unit that no other input has brought flags of an event. -/
def takeUpEvent (s : State) (u q : Nat) (t : Token) : State :=
  State.quarantineEvent (State.select ((s.setUnit u { s.unit u with
    inEvent := true, prim := q, ev := t.ev, tag := t.tag, fold := 0, cnt := [0, 0, 0, 0], acc := [], wraps := [], emits := []
    flags := 0, side := [], faulted := false, subst := false, origin := none, withhold := [], holding := false
    discard := false, gens := [], steps := 0, since := s.time.spool }).consume u q) u t.tag t.ctx 5) u

/-- What a unit that has taken up an event sends and counts for its START. -/
def forwardStart (s : State) (u : Nat) (t : Token) : State :=
  let s' := (s.sendCtl u (s.routesOf u) { t with ctx := 0 }).triggerGens u 0 t.tag 0
  if isMu u then s' else (s'.advanceUnit u 5).1

section
variable {s : State} {u q : Nat} {t : Token} (hh : s.headOf u (fun t => t.isCtl 0) = some (q, t))
include hh

theorem eventStart_again (hin : (s.unit u).inEvent = true) (hp : s.primaryNow u = some q) :
    s.eventStart u = (s.consume u q).faultUnit u 3 2 0 0 := by
  rw [State.eventStart, State.startTry, hh]
  dsimp only
  rw [if_pos hin, if_pos (by simp [hp]), attempt_silent]

variable (hin : (s.unit u).inEvent = false) (hside : (s.unit u).side = []) {s1 : State} (h1 : takeUpEvent s u q t = s1)
include hin hside h1

theorem startTry_idle : s.startTry u =
    if (s1.unit u).discard then some ([], s1.dropEvent u) else some (s1.routesOf u, forwardStart s1 u t) := by
  subst h1
  rw [State.startTry, hh]
  dsimp only
  rw [if_neg (by simp [hin]), hside]
  have hflag : nbit 0 3 = false := by decide
  simp only [List.filter_nil, List.foldl_nil, List.findSome?_nil, Nat.zero_mod, hflag, State.when, Bool.false_eq_true, if_false]
  rfl

theorem eventStart_discards (hd : (s1.unit u).discard = true) : s.eventStart u = s1.dropEvent u := by
  rw [State.eventStart, startTry_idle hh hin hside h1, if_pos hd, attempt_silent]

theorem eventStart_begins (hd : (s1.unit u).discard = false) :
    s.eventStart u = s.attempt (some (s1.routesOf u, forwardStart s1 u t)) := by
  rw [State.eventStart, startTry_idle hh hin hside h1, if_neg (by simp [hd])]

end

/-! EVENT_END -/

/-- The unit sends its END with the OR of the flags and ends the event. -/
def leaveEvent (s : State) (u : Nat) (rs : List RouteCfg) (t : Token) : State :=
  let v := s.unit u
  let n := v.flags ||| (t.lane 0).toNat % 8
  (s.sendCtl u rs (ctlToken 1 v.tag v.fold [n] v.ev)).setUnit u { v with inEvent := false, flags := n }

section
variable {s : State} {u q : Nat} {t : Token} (hh : s.headOf u (fun t => t.isCtl 1) = some (q, t))
include hh

theorem eventEnd_outside (hin : (s.unit u).inEvent = false) : s.eventEnd u = s.consume u q := by
  rw [State.eventEnd, State.endTry, hh]
  dsimp only
  rw [if_pos (by simp [hin]), attempt_silent]

variable (hin : (s.unit u).inEvent = true)
include hin

theorem eventEnd_waits (h : s.unitQuiet u = false ∨ s.sidesDone u = false) : s.eventEnd u = s := by
  have hwait : (s.primaryNow u != some q || !s.unitQuiet u || !s.sidesDone u) = true := by
    rcases h with h | h <;> simp [h]
  rw [State.eventEnd, State.endTry, hh]
  dsimp only
  rw [if_neg (by simp [hin]), if_pos hwait, attempt_none]

variable {s0 s1 : State} (h0 : s.followToken u t 0 = s0) (h1 : s0.consume u q = s1) (hp : s.primaryNow u = some q)
  (hquiet : s.unitQuiet u = true) (hsides : s.sidesDone u = true) (hd : (s0.unit u).discard = false)
include h0 h1 hp hquiet hsides hd

/-- An END that need not wait: the must_zero check of a unit that has not faulted (R156), then the token leaves. -/
theorem endTry_leaves : s.endTry u =
    let s2 := match (if (s1.unit u).subst then none else s1.nonZero u) with
      | none => s1
      | some (g, k) => s1.faultUnit u 4 k g 0
    some (s0.routesOf u, leaveEvent s2 u (s0.routesOf u) t) := by
  rw [State.endTry, hh]
  dsimp only
  rw [if_neg (by simp [hin]), if_neg (by simp [hp, hquiet, hsides]), h0, if_neg (by simp [hd]), h1]
  rfl

theorem eventEnd_leaves (h : (s1.unit u).subst = true ∨ s1.nonZero u = none) :
    s.eventEnd u = s.attempt (some (s0.routesOf u, leaveEvent s1 u (s0.routesOf u) t)) := by
  rw [State.eventEnd, endTry_leaves hh hin h0 h1 hp hquiet hsides hd]
  dsimp only
  rcases h with h | h
  · rw [if_pos h]
  · rw [h, ite_self]

theorem eventEnd_counter {g k : Nat} (hs : (s1.unit u).subst = false) (h : s1.nonZero u = some (g, k)) :
    s.eventEnd u = s.attempt (some (s0.routesOf u, leaveEvent (s1.faultUnit u 4 k g 0) u (s0.routesOf u) t)) := by
  rw [State.eventEnd, endTry_leaves hh hin h0 h1 hp hquiet hsides hd]
  dsimp only
  rw [if_neg (by simp [hs]), h]

end

/-! CONTEXT_NEXT -/

section
variable {s s0 s1 : State} {u q i : Nat} {t : Token} (hh : s.headOf u (fun t => t.isCtl 2 || t.standIn) = some (q, t))
  (hin : (s.unit u).inEvent = true) (hp : s.primaryNow u = some q) (hquiet : s.unitQuiet u = true)
  (h0 : s.followToken u t 0 = s0) (h1 : (s0.consume u q).when t.standIn (fun s => s.noteError u t) = s1)
  (hslot : (s0.unit u).slot = some i)
include hh hin hp hquiet h0 h1 hslot

/-- A CONTEXT_NEXT that need not wait is consumed, and forwarded with the new fold index unless the unit is a fold leader (R216, R217). -/
theorem nextTry_steps : s.nextTry u = if isLeader (s1.slotBytes u i) then some ([], s1)
    else some (s1.routesOf u, (s1.foldStep u).sendCtl u (s1.routesOf u) { t with ctx := ((s1.foldStep u).unit u).fold }) := by
  rw [State.nextTry, hh]
  dsimp only
  rw [if_neg (by simp [hin, hp, hquiet]), h0, hslot]
  dsimp only
  rw [h1]

theorem contextNext_leader (h : isLeader (s1.slotBytes u i) = true) : s.contextNext u = s1 := by
  rw [State.contextNext, nextTry_steps hh hin hp hquiet h0 h1 hslot, if_pos h, attempt_silent]

theorem contextNext_forwards (h : isLeader (s1.slotBytes u i) = false) : s.contextNext u = s.attempt (some (s1.routesOf u,
    (s1.foldStep u).sendCtl u (s1.routesOf u) { t with ctx := ((s1.foldStep u).unit u).fold })) := by
  rw [State.contextNext, nextTry_steps hh hin hp hquiet h0 h1 hslot, if_neg (by simp [h])]

end

/-- Settles O27: each control token has one lemma for each branch, and each row runs it in the state that it has read back. -/
theorem eventsBracketTheWork : Obligations.EventsBracketTheWork := by
  intro u back s q t hs
  refine ⟨rfl, fun hh => ⟨fun hin hp => tokenRow_runs hs (eventStart_again hh hin hp), fun hin hside =>
      ⟨fun hd => tokenRow_runs hs (eventStart_begins hh hin hside rfl hd),
        fun hd => tokenRow_runs hs (eventStart_discards hh hin hside rfl hd)⟩⟩,
    fun hh => ⟨fun hin => tokenRow_runs hs (eventEnd_outside hh hin), fun hin h => tokenRow_runs hs (eventEnd_waits hh hin h),
      fun hin hp hquiet hsides hd => ⟨fun h => tokenRow_runs hs (eventEnd_leaves hh hin rfl rfl hp hquiet hsides hd h),
        fun g k hsub h => tokenRow_runs hs (eventEnd_counter hh hin rfl rfl hp hquiet hsides hd hsub h)⟩⟩,
    fun i hh hin hp hquiet hslot => ⟨fun h => tokenRow_runs hs (contextNext_leader hh hin hp hquiet rfl rfl hslot h),
      fun h => tokenRow_runs hs (contextNext_forwards hh hin hp hquiet rfl rfl hslot h)⟩⟩

end Sys2Proof.Laws
end

section
/-!
SUPPORT. Compute units at work (R138, R139, R155, R168, R187, R188): when a firing of stage 0 has nothing to do, what it leaves when its operands
are there, and when a due wrap is carried out.
-/
namespace Sys2Proof.Laws

open Sys2Proof.Machine

/-! Firings of stage 0 -/

/-- The values of operand a: those of one token, or of the two of a wide input (R163). -/
def operandVals : List Token → List Int
  | [lo, hi] => wideVals lo hi
  | x :: _ => x.vals
  | [] => []

/-- What follows a firing of the stage: the counters of data firings advance, and the operand is held or consumed (R139, R154). -/
def afterFiring (s : State) (u q i : Nat) (st : StageCfg) : State :=
  let p := s.advanceUnit u 1
  p.1.holdOr u q i (st.hold && !p.2.contains st.holdCtr)

theorem subst_takeError (s : State) (u : Nat) (t : Token) : ((s.takeError u t).unit u).subst = true := by
  rw [State.takeError, unit_setUnit_same]

section
variable {s : State} {u : Nat}

theorem fireStage0_memory (h : isMu u = true) (err : Bool) (parity : Option (Fin 1024)) : s.fireStage0 u err parity = s := by
  rw [State.fireStage0, State.fireTry, if_pos (by simp [h]), attempt_none]

theorem errorToken_compute (h : isMu u = false) : s.errorToken u = s.fireStage0 u true none := if_neg (by simp [h])

variable (hmu : isMu u = false) (hin : (s.unit u).inEvent = true) (hw : (s.unit u).wraps = [])
include hmu hin hw

theorem fireStage0_no_operand (hh : s.headOf u Token.operand = none) (err : Bool) (parity : Option (Fin 1024)) :
    s.fireStage0 u err parity = s := by
  rw [State.fireStage0, State.fireTry]
  dsimp only
  rw [if_neg (by simp [hmu, hin, hw]), hh, attempt_none]

section
variable {s0 : State} {q i : Nat} {t : Token} {o : Operands} {st : StageCfg} (hh : s.headOf u Token.operand = some (q, t))
  (h0 : s.followToken u t 1 = s0) (hslot : (s0.unit u).slot = some i) (ho : s0.operands u i q = some o) (hb : o.b = none)
  (htag : ∀ x ∈ o.a, x.tag = t.tag ∧ x.ctx = t.ctx) (hst : readStage (s0.slotBytes u i) 0x40 = st)
include hh h0 hslot ho hb htag hst

/-- A firing whose operands are there and are of one tag and context, of the kind that the row takes: an ERROR operand puts the unit under
substitution (R188), and a unit under substitution does not compute. -/
theorem fireStage0_fires {err : Bool} (herr : o.error.isSome = err) : s.fireStage0 u err none =
    let s1 := match o.error with
      | none => s0
      | some e => s0.takeError u e
    afterFiring (if (s1.unit u).subst then s1
      else s1.fire u i 0 (operandVals o.a) (s1.bVals u (s0.slotBytes u i) st none)) u q i st := by
  have hsame : (o.all.any fun x => x.tag != t.tag || x.ctx != t.ctx) = false := by
    rw [Operands.all, hb, List.any_eq_false]
    intro x hx
    simp [htag x (by simpa using hx)]
  rw [State.fireStage0, State.fireTry]
  dsimp only
  rw [if_neg (by simp [hmu, hin, hw]), hh]
  dsimp only
  rw [h0, hslot]
  dsimp only
  rw [ho]
  dsimp only
  rw [if_neg (by simp [herr]), hsame, hb, hst]
  rfl

theorem fireStage0_computes (herr : o.error = none) (hsub : (s0.unit u).subst = false) : s.fireStage0 u false none =
    afterFiring (s0.fire u i 0 (operandVals o.a) (s0.bVals u (s0.slotBytes u i) st none)) u q i st := by
  rw [fireStage0_fires hmu hin hw hh h0 hslot ho hb htag hst (by rw [herr]; rfl), herr]
  dsimp only
  rw [if_neg (by simp [hsub])]

theorem fireStage0_substituted (herr : o.error = none) (hsub : (s0.unit u).subst = true) :
    s.fireStage0 u false none = afterFiring s0 u q i st := by
  rw [fireStage0_fires hmu hin hw hh h0 hslot ho hb htag hst (by rw [herr]; rfl), herr]
  dsimp only
  rw [if_pos hsub]

theorem errorToken_takes {e : Token} (herr : o.error = some e) : s.errorToken u = afterFiring (s0.takeError u e) u q i st := by
  rw [errorToken_compute hmu, fireStage0_fires hmu hin hw hh h0 hslot ho hb htag hst (by rw [herr]; rfl), herr]
  dsimp only
  rw [if_pos (subst_takeError s0 u e)]

end
end

/-! Wraps (R155, R168) -/

section
variable {s : State} {u : Nat}

theorem counterWrap_compute {i k : Nat} {rest : List Nat} {t : State} {parity : Option (Fin 1024)} (hmu : isMu u = false)
    (hslot : (s.unit u).slot = some i) (hw : (s.unit u).wraps = k :: rest) (ht : s.wrapCu u i k parity = some t)
    (hf : t.fits (readRoutes (s.slotBytes u i)) = true) : s.counterWrap u parity = t := by
  rw [State.counterWrap, State.wrapTry, if_neg (by simp [hmu]), hslot, hw]
  dsimp only
  rw [ht, Option.map_some, attempt_fits hf]

theorem counterWrap_memory {g : Nat} (hmu : isMu u = true)
    (hg : [0, 1].find? (fun g => !((s.unit u).gen g).wraps.isEmpty) = some g)
    (hf : (s.wrapMu u g).fits (readRoutes (s.slotBytes u ((s.unit u).gen g).slot)) = true) (parity : Option (Fin 1024)) :
    s.counterWrap u parity = s.wrapMu u g := by
  rw [State.counterWrap, State.wrapTry, if_pos hmu, hg, Option.map_some, attempt_fits hf]

end

/-- Settles O29: the forms of a firing are those of `fireStage0_fires`, and a due wrap that fits is carried out. -/
theorem computeUnitsFireAndWrap : Obligations.ComputeUnitsFireAndWrap := by
  intro u back s hs
  refine ⟨fun hmu => tokenRow_runs hs (fireStage0_memory hmu false none), fun hmu hin hw hh =>
      ⟨tokenRow_runs hs (fireStage0_no_operand hmu hin hw hh false none),
        tokenRow_runs hs ((errorToken_compute hmu).trans (fireStage0_no_operand hmu hin hw hh true none))⟩,
    fun q t i o hmu hin hw hh hslot ho hb htag =>
      ⟨fun herr hsub => tokenRow_runs hs (fireStage0_computes hmu hin hw hh rfl hslot ho hb htag rfl herr hsub),
        fun herr hsub => tokenRow_runs hs (fireStage0_substituted hmu hin hw hh rfl hslot ho hb htag rfl herr hsub),
        fun e herr => tokenRow_runs hs (errorToken_takes hmu hin hw hh rfl hslot ho hb htag rfl herr)⟩,
    fun i k rest t parity hmu hslot hw ht hf => tokenRow_runs hs (counterWrap_compute hmu hslot hw ht hf),
    fun g hmu hg hf => tokenRow_runs hs (counterWrap_memory hmu hg hf none)⟩

end Sys2Proof.Laws
end

section
/-!
SUPPORT. The stall watch and its spills (R181-R186) and the clears of a die's counts (R178, R189): what each row comes to, and what a spill
leaves in the units and the memories.
-/
namespace Sys2Proof.Laws

open Sys2Proof.Machine

/-! When the stall watch spills (R181) -/

section
variable {s : State} {d u q : Nat} (hv : s.victim d = some (u, q))
include hv

theorem stallSpill_long (hstill : s.stillFor d (max 32 (s.fld (F.TRL_STALL_CFG.stall_ticks d))) = true) (ht : s.traced = false) :
    s.stallSpill d = s.spillQueue u q := by
  simp [State.stallSpill, hv, hstill, ht, State.when]

theorem stallSpill_short (hstill : s.stillFor d (max 32 (s.fld (F.TRL_STALL_CFG.stall_ticks d))) = false) :
    s.stallSpill d = s := by
  simp [State.stallSpill, hv, hstill]

end

/-! Writing entries of the spill area (R183) -/

/-- The first address of the memory unit in whose spill area unit `u` has its entries (R182). -/
def spillBase (s : State) (u : Nat) : Nat := dieBase (uDie u) + 0x80000 * s.spillSite u

/-- Does address `k` lie outside the spill area of the memory unit that begins at `base`? -/
def OutsideSpillArea (base k : Nat) : Prop := k < base + 128 * 0xF80 ∨ base + 0x80000 ≤ k

theorem length_leBytes (n v : Nat) : (leBytes n v).length = n := by
  simp [leBytes]

theorem length_tokenRow (t : Token) : t.row.length = 128 := by
  simp only [Token.row, List.length_flatMap, length_leBytes, List.map_const', List.length_range, List.sum_replicate_nat]

theorem tget_memWrite_outside (s : State) (a : Nat) (bs : List Byte) {k : Nat} (h : k < a ∨ a + bs.length ≤ k) :
    tget memDflt (s.memWrite a bs).mem k = tget memDflt s.mem k := by
  rcases h with h | h
  · exact tget_tsetMany_lt _ _ _ _ _ _ h
  · exact tget_tsetMany_ge _ _ _ _ _ h

/-- Writing an entry changes the memories alone; its row and its sideband both lie in the spill area. -/
theorem writeSpill_touches (s : State) (u : Nat) {j : Nat} (t : Token) (hj : j < 120) : ∃ m, s.writeSpill u j t = { s with mem := m } ∧
    ∀ k, OutsideSpillArea (spillBase s u) k → tget memDflt m k = tget memDflt s.mem k := by
  refine ⟨(s.writeSpill u j t).mem, rfl, fun k hk => ?_⟩
  unfold OutsideSpillArea spillBase at hk
  rw [State.writeSpill, tget_memWrite_outside _ _ _ (by rw [length_leBytes]; omega),
    tget_memWrite_outside _ _ _ (by rw [length_tokenRow]; omega)]

theorem foldl_writeSpill_touches (u : Nat) (es : List (Nat × Token)) (hes : ∀ e ∈ es, e.1 < 120) (s : State) : ∃ m,
    es.foldl (fun s e => s.writeSpill u e.1 e.2) s = { s with mem := m } ∧
    ∀ k, OutsideSpillArea (spillBase s u) k → tget memDflt m k = tget memDflt s.mem k := by
  induction es generalizing s with
  | nil => exact ⟨s.mem, rfl, fun _ _ => rfl⟩
  | cons e es ih =>
    obtain ⟨he, hes⟩ := List.forall_mem_cons.mp hes
    obtain ⟨m', hm', hout'⟩ := writeSpill_touches s u e.2 he
    obtain ⟨m, hm, hout⟩ := ih hes { s with mem := m' }
    have hbase : spillBase { s with mem := m' } u = spillBase s u := rfl
    rw [List.foldl_cons, hm', hm]
    exact ⟨m, rfl, fun k hk => (hout k (hbase ▸ hk)).trans (hout' k hk)⟩

theorem lt_of_mem_spillFree {s : State} {u j : Nat} (h : j ∈ s.spillFree u) : j < 120 :=
  List.mem_range.mp (List.mem_filter.mp h).1

/-! A spill (R182-R186) -/

/-- A unit whose queue `q` has moved behind its spilled list as the entries `es`. -/
def spilledUnit (v : TUnit) (q : Nat) (es : List (Nat × Token)) : TUnit :=
  { v with queues := tset (fun _ => []) v.queues q [], spilled := tset (fun _ => []) v.spilled q (v.spill q ++ es) }

@[simp] theorem queue_spilledUnit (v : TUnit) (q : Nat) (es : List (Nat × Token)) : (spilledUnit v q es).queue q = [] := by
  simp [TUnit.queue, spilledUnit]

@[simp] theorem spill_spilledUnit (v : TUnit) (q : Nat) (es : List (Nat × Token)) : (spilledUnit v q es).spill q = v.spill q ++ es :=
  tget_tset_same _ _ _ _

/-- Entries that hold the queue's tokens in order keep the tokens in order. -/
theorem tokens_spilledUnit (v : TUnit) {q : Nat} {es : List (Nat × Token)} (h : es.map (fun e => e.2) = v.queue q) :
    (spilledUnit v q es).tokens q = v.tokens q := by
  simp [TUnit.tokens, h]

theorem trace_touches (s : State) (kind unit queue n tag : Nat) (ev : EvRef) :
    ∃ c, s.trace kind unit queue n tag ev = { s with capture := c } := by
  unfold State.trace
  split
  · exact ⟨s.capture, rfl⟩
  · exact ⟨_, rfl⟩

/-- Do units and memories of `t` stand as in `s`? -/
structure KeepsUnitsAndMem (s t : State) : Prop where
  unit : ∀ x, t.unit x = s.unit x
  mem : t.mem = s.mem

namespace KeepsUnitsAndMem
variable {s t : State}

theorem refl (s : State) : KeepsUnitsAndMem s s := ⟨fun _ => rfl, rfl⟩

theorem setFld (h : KeepsUnitsAndMem s t) {f : Fld} {v : Nat} : KeepsUnitsAndMem s (t.setFld f v) where
  unit x := (unit_setFld t f v x).trans (h.unit x)
  mem := (State.setFld_mem t f v).trans h.mem

theorem satInc (h : KeepsUnitsAndMem s t) {f : Fld} : KeepsUnitsAndMem s (t.satInc f) := h.setFld

theorem raise (h : KeepsUnitsAndMem s t) {f : Fld} : KeepsUnitsAndMem s (t.raise f) := h.setFld

theorem noteMove (h : KeepsUnitsAndMem s t) {d : Nat} : KeepsUnitsAndMem s (t.noteMove d) where
  unit x := (unit_noteMove t d x).trans (h.unit x)
  mem := (mem_noteMove t d).trans h.mem

theorem trace (h : KeepsUnitsAndMem s t) {kind unit queue n tag : Nat} {ev : EvRef} :
    KeepsUnitsAndMem s (t.trace kind unit queue n tag ev) := by
  obtain ⟨c, hc⟩ := trace_touches t kind unit queue n tag ev
  rw [hc]
  exact ⟨h.unit, h.mem⟩

end KeepsUnitsAndMem

theorem spillQueue_full {s : State} {u q : Nat} (h : (s.spillFree u).length < ((s.unit u).queue q).length) :
    s.spillQueue u q = s.spillFull u :=
  if_pos (by simp [State.spillFits, h])

section
variable {s : State} {u q : Nat} (h : ((s.unit u).queue q).length ≤ (s.spillFree u).length)
include h

/-- A spill that fits writes the queue's tokens to the free entries and moves the queue behind its spilled list; what it notes beside that
leaves units and memories alone. -/
theorem spillQueue_touches : ∃ m, (∀ k, OutsideSpillArea (spillBase s u) k → tget memDflt m k = tget memDflt s.mem k) ∧
    KeepsUnitsAndMem (State.setUnit { s with mem := m } u (spilledUnit (s.unit u) q ((s.spillFree u).zip ((s.unit u).queue q))))
      (s.spillQueue u q) := by
  obtain ⟨m, hm, hout⟩ := foldl_writeSpill_touches u ((s.spillFree u).zip ((s.unit u).queue q))
    (fun e he => lt_of_mem_spillFree (List.of_mem_zip he).1) s
  refine ⟨m, hout, ?_⟩
  rw [State.spillQueue, if_neg (by simp [State.spillFits, h])]
  dsimp only
  rw [hm]
  cases ((s.unit u).queue q).head? with
  | none => exact .noteMove <| .raise <| .setFld <| .setFld <| .setFld <| .setFld <| .setFld <| .satInc <| .setFld <| .refl _
  | some t => exact .trace <| .noteMove <| .raise <| .setFld <| .setFld <| .setFld <| .setFld <| .setFld <| .satInc <| .setFld <| .refl _

theorem unit_spillQueue_same :
    (s.spillQueue u q).unit u = spilledUnit (s.unit u) q ((s.spillFree u).zip ((s.unit u).queue q)) := by
  obtain ⟨m, -, hkeeps⟩ := spillQueue_touches h
  rw [hkeeps.unit, unit_setUnit_same]

theorem unit_spillQueue_ne {x : Nat} (hx : x ≠ u) : (s.spillQueue u q).unit x = s.unit x := by
  obtain ⟨m, -, hkeeps⟩ := spillQueue_touches h
  rw [hkeeps.unit, unit_setUnit_ne _ _ hx]
  rfl

theorem tokens_spillQueue : ((s.spillQueue u q).unit u).tokens q = (s.unit u).tokens q := by
  rw [unit_spillQueue_same h]
  exact tokens_spilledUnit _ (List.map_snd_zip h)

theorem tget_spillQueue_outside {k : Nat} (hk : OutsideSpillArea (spillBase s u) k) :
    tget memDflt (s.spillQueue u q).mem k = tget memDflt s.mem k := by
  obtain ⟨m, hout, hkeeps⟩ := spillQueue_touches h
  rw [hkeeps.mem, State.setUnit_mem, hout k hk]

end

/-! The clears of a die's counts -/

/-- Clearing registers one after another: one that is in the list, or 0 before, is 0. -/
theorem reg_foldl_clear {l : List Nat} {o : Nat} {s : State} (h : o ∈ l ∨ s.reg o = 0) :
    (l.foldl (fun s o => s.setReg o 0) s).reg o = 0 := by
  induction l generalizing s with
  | nil => exact h.resolve_left List.not_mem_nil
  | cons p l ih =>
    apply ih
    by_cases hp : p = o
    · exact .inr (hp ▸ reg_setReg_same s p 0)
    · rw [reg_setReg_ne s 0 hp]
      exact h.imp_left fun hm => (List.mem_cons.mp hm).resolve_left (Ne.symm hp)

theorem foldl_clear_regs (l : List Nat) (s : State) : ∃ r, l.foldl (fun s o => s.setReg o 0) s = { s with regs := r } := by
  induction l generalizing s with
  | nil => exact ⟨s.regs, rfl⟩
  | cons p l ih => exact ih (s.setReg p 0)

/-- The registers that TRL_FSTAT_CLEAR clears. -/
def faultStatRegs (d : Nat) : List Nat :=
  [Reg.TRL_FAULT_STAT d, Reg.TRL_SPILL_STAT d, Reg.TRL_SCHED_LOG d] ++ (List.range 104).map (Reg.TRL_SITE_WAITMAX d)

section
variable {d : Nat} {v : Word}

theorem nbit_zero_of_odd (hv : v.toNat % 2 = 1) : nbit v.toNat 0 = true := by
  simp [nbit, hv]

theorem nbit_zero_of_even (hv : v.toNat % 2 = 0) : nbit v.toNat 0 = false := by
  simp [nbit, hv]

theorem and_one_of_even (hv : v.toNat % 2 = 0) : v &&& 1 = 0 := by
  apply BitVec.eq_of_toNat_eq
  simp [Nat.and_one_is_mod, hv]

theorem writeFstatClear_odd (hv : v.toNat % 2 = 1) (s : State) : s.writeFstatClear d v =
    (faultStatRegs d).foldl (fun s o => s.setReg o 0) (s.setReg (Reg.TRL_FSTAT_CLEAR d) (v &&& 1)) := by
  rw [State.writeFstatClear, if_pos (nbit_zero_of_odd hv), faultStatRegs, List.foldl_append, List.foldl_map]
  rfl

theorem writeFstatClear_even (hv : v.toNat % 2 = 0) (s : State) : s.writeFstatClear d v = s.setReg (Reg.TRL_FSTAT_CLEAR d) 0 := by
  rw [State.writeFstatClear, if_neg (by simp [nbit_zero_of_even hv]), and_one_of_even hv]

theorem writeCntClear_odd (hv : v.toNat % 2 = 1) (s : State) : s.writeCntClear d v =
    (((s.setReg (Reg.TRL_CNT_CLEAR d) (v &&& 1)).lower (F.TRL_OVF_COUNT.count d)).lower (F.TRL_ECC_CORR.count d)).lower
      (F.TRL_BRIDGE_RETRY.count d) :=
  if_pos (nbit_zero_of_odd hv)

theorem writeCntClear_even (hv : v.toNat % 2 = 0) (s : State) : s.writeCntClear d v = s.setReg (Reg.TRL_CNT_CLEAR d) 0 := by
  rw [State.writeCntClear, if_neg (by simp [nbit_zero_of_even hv]), and_one_of_even hv]

theorem fld_lower_same (s : State) {f : Fld} (hf : Fits f) : (s.lower f).fld f = 0 := by
  rw [State.lower, fld_setFld_same s f hf, Nat.zero_mod]

theorem fld_lower_off (s : State) {f g : Fld} (h : f.off ≠ g.off) : (s.lower f).fld g = s.fld g :=
  fld_setFld_off s f g 0 h

theorem writeCntClear_clears (hv : v.toNat % 2 = 1) (s : State) : (s.writeCntClear d v).fld (F.TRL_OVF_COUNT.count d) = 0 ∧
    (s.writeCntClear d v).fld (F.TRL_ECC_CORR.count d) = 0 ∧ (s.writeCntClear d v).fld (F.TRL_BRIDGE_RETRY.count d) = 0 := by
  have hoe : (F.TRL_ECC_CORR.count d).off ≠ (F.TRL_OVF_COUNT.count d).off := by
    simp [F.TRL_ECC_CORR.count, F.TRL_OVF_COUNT.count, Reg.TRL_ECC_CORR, Reg.TRL_OVF_COUNT]
  have hob : (F.TRL_BRIDGE_RETRY.count d).off ≠ (F.TRL_OVF_COUNT.count d).off := by
    simp [F.TRL_BRIDGE_RETRY.count, F.TRL_OVF_COUNT.count, Reg.TRL_BRIDGE_RETRY, Reg.TRL_OVF_COUNT]
  have heb : (F.TRL_BRIDGE_RETRY.count d).off ≠ (F.TRL_ECC_CORR.count d).off := by
    simp [F.TRL_BRIDGE_RETRY.count, F.TRL_ECC_CORR.count, Reg.TRL_BRIDGE_RETRY, Reg.TRL_ECC_CORR]
  have hfo : Fits (F.TRL_OVF_COUNT.count d) := Nat.le_refl 32
  have hfe : Fits (F.TRL_ECC_CORR.count d) := Nat.le_refl 32
  have hfb : Fits (F.TRL_BRIDGE_RETRY.count d) := Nat.le_of_ble_eq_true rfl
  rw [writeCntClear_odd hv]
  refine ⟨?_, ?_, fld_lower_same _ hfb⟩
  · rw [fld_lower_off _ hob, fld_lower_off _ hoe, fld_lower_same _ hfo]
  · rw [fld_lower_off _ heb, fld_lower_same _ hfe]

theorem writeCntClear_frame (hv : v.toNat % 2 = 1) (s : State) :
    (s.writeCntClear d v).trellis = s.trellis ∧ (s.writeCntClear d v).mem = s.mem := by
  rw [writeCntClear_odd hv]
  exact ⟨by simp, by simp⟩

theorem writeFstatClear_clears (hv : v.toNat % 2 = 1) (s : State) {o : Nat} (ho : o ∈ faultStatRegs d) :
    (s.writeFstatClear d v).reg o = 0 := by
  rw [writeFstatClear_odd hv]
  exact reg_foldl_clear (.inl ho)

theorem writeFstatClear_frame (hv : v.toNat % 2 = 1) (s : State) :
    (s.writeFstatClear d v).trellis = s.trellis ∧ (s.writeFstatClear d v).mem = s.mem := by
  obtain ⟨r, hr⟩ := foldl_clear_regs (faultStatRegs d) (s.setReg (Reg.TRL_FSTAT_CLEAR d) (v &&& 1))
  rw [writeFstatClear_odd hv, hr]
  exact ⟨rfl, rfl⟩

end

section
variable {s : State} (hup : s.up = true) (d : Fin 16) (v : Word)
include hup

theorem exec_trlCntClear_up : exec (.trlCntClear d v) s = done (s.writeCntClear d v) :=
  congrArg done (if_pos hup)

theorem exec_trlFstatClear_up : exec (.trlFstatClear d v) s = done (s.writeFstatClear d v) :=
  congrArg done (if_pos hup)

end

/-- Settles O31: `spillQueue_touches` is what a spill that fits changes, and `reg_foldl_clear` what the clear of the fault counts does. -/
theorem spillsLoseNoToken : Obligations.SpillsLoseNoToken := by
  refine ⟨fun d s u q hs hv => ⟨fun hstill ht => tokenRow_runs hs (stallSpill_long hv hstill ht),
      fun hstill => tokenRow_runs hs (stallSpill_short hv hstill)⟩,
    fun s u q h => ⟨tokens_spillQueue h, ?_, fun x hx => unit_spillQueue_ne h hx, fun k hk => tget_spillQueue_outside h hk⟩,
    fun s u q => spillQueue_full, fun d v s hup => ?_⟩
  · rw [unit_spillQueue_same h, queue_spilledUnit]
  rw [exec_trlCntClear_up hup, exec_trlFstatClear_up hup]
  refine ⟨fun hv => ⟨?_, ?_⟩, fun hv => ?_⟩
  · obtain ⟨hovf, hecc, hretry⟩ := writeCntClear_clears hv s
    exact ⟨_, rfl, hovf, hecc, hretry, writeCntClear_frame hv s⟩
  · have hclears (o : Nat) := writeFstatClear_clears (d := d) (o := o) hv s
    exact ⟨_, rfl, hclears _ (by simp [faultStatRegs]), hclears _ (by simp [faultStatRegs]), hclears _ (by simp [faultStatRegs]),
      fun k hk => hclears _ (List.mem_append_right _ (List.mem_map_of_mem (List.mem_range.mpr hk))), writeFstatClear_frame hv s⟩
  · rw [writeCntClear_even hv, writeFstatClear_even hv]
    exact ⟨rfl, rfl⟩

end Sys2Proof.Laws
end

section
/-!
SUPPORT. The wait timer (R175-R177): what WAIT_TIMER_EXPIRY comes to, one lemma for each branch.
-/
namespace Sys2Proof.Laws

open Sys2Proof.Machine

/-- The state in which the largest value of unit `u`'s timer takes `x` in (R176). -/
def noteWait (s : State) (u x : Nat) : State :=
  s.setFld (F.TRL_SITE_WAITMAX.max (uDie u) (s.site u)) (max (s.fld (F.TRL_SITE_WAITMAX.max (uDie u) (s.site u))) (min x 0xFFFF))

/-- Is value `x` of unit `u`'s timer past the bound of slot `i` with the die's margin (R177)? -/
abbrev PastBound (s : State) (u i x : Nat) : Prop :=
  (s.slotHeader u i).bound ≠ 0 ∧ (s.slotHeader u i).bound * (100 + s.fld (F.TRL_SCHED_CFG.margin_pct (uDie u))) < x * 100

section
variable {s : State} {u x i : Nat} (hslot : (s.unit u).slot = some i)
include hslot

theorem waitExpiry_stands (h : s.timerRuns u = false ∨ s.timerCan u x = false) : s.waitExpiry u x = s := by
  rw [State.waitExpiry, hslot]
  exact if_pos (by simpa using h)

variable (hr : s.timerRuns u = true) (hc : s.timerCan u x = true)
include hr hc

/-- A timer that runs takes the value in; a value past the bound is counted in a replay and faults the unit in LIVE operation. -/
theorem waitExpiry_runs : s.waitExpiry u x =
    let s1 := noteWait s u x
    if PastBound s1 u i x then
      if s1.replayDie (uDie u) then s1.satInc (F.TRL_SCHED_LOG.over_bound (uDie u))
      else if s1.liveOrDraining && s1.bit (F.TRL_SCHED_CFG.sched_en (uDie u)) then
        s1.faultUnit u 8 (min x 0xFFFE) (if isMu u && !((s1.unit u).gen 0).active then 1 else 0) 1
      else s1
    else s1 := by
  rw [State.waitExpiry, hslot]
  dsimp only
  rw [if_neg (by simp [hr, hc])]
  by_cases hp : PastBound (noteWait s u x) u i x
  · rw [if_pos hp]
    exact if_neg (by simpa [noteWait] using hp)
  · rw [if_neg hp]
    exact if_pos (by simpa [noteWait, Decidable.or_iff_not_imp_left] using hp)

theorem waitExpiry_within (hp : ¬PastBound (noteWait s u x) u i x) : s.waitExpiry u x = noteWait s u x := by
  rw [waitExpiry_runs hslot hr hc]
  exact if_neg hp

variable (hp : PastBound (noteWait s u x) u i x)
include hp

theorem waitExpiry_replay (hd : (noteWait s u x).replayDie (uDie u) = true) :
    s.waitExpiry u x = (noteWait s u x).satInc (F.TRL_SCHED_LOG.over_bound (uDie u)) := by
  rw [waitExpiry_runs hslot hr hc]
  exact (if_pos hp).trans (if_pos hd)

variable (hd : (noteWait s u x).replayDie (uDie u) = false)
include hd

/-- DRAINING counts as LIVE here, which is the model's choice (log 146). -/
theorem waitExpiry_faults (hl : (noteWait s u x).liveOrDraining = true)
    (he : (noteWait s u x).bit (F.TRL_SCHED_CFG.sched_en (uDie u)) = true) :
    s.waitExpiry u x = (noteWait s u x).faultUnit u 8 (min x 0xFFFE)
      (if isMu u && !(((noteWait s u x).unit u).gen 0).active then 1 else 0) 1 := by
  rw [waitExpiry_runs hslot hr hc]
  exact (if_pos hp).trans ((if_neg (by simp [hd])).trans (if_pos (by simp [hl, he])))

theorem waitExpiry_unwatched
    (h : (noteWait s u x).liveOrDraining = false ∨ (noteWait s u x).bit (F.TRL_SCHED_CFG.sched_en (uDie u)) = false) :
    s.waitExpiry u x = noteWait s u x := by
  rw [waitExpiry_runs hslot hr hc]
  exact (if_pos hp).trans ((if_neg (by simp [hd])).trans (if_neg (by rcases h with h | h <;> simp [h])))

end

theorem exec_waitTimerExpiry {u : Fin 2048} {x : Nat} {s t : State} (hs : s.stalled = false) (h : s.waitExpiry u x = t) :
    exec (.waitTimerExpiry u x) s = .next t.settle :=
  h ▸ unstalled_of_not_stalled hs _

/-- Settles O32: one lemma for each branch of `waitExpiry_runs`, and `waitExpiry_stands` where the timer does not run. -/
theorem waitTimersKeepTheirMaximum : Obligations.WaitTimersKeepTheirMaximum := by
  intro u x i s hs hslot
  exact ⟨fun h => exec_waitTimerExpiry hs (waitExpiry_stands hslot h), fun hr hc =>
    ⟨fun hp => exec_waitTimerExpiry hs (waitExpiry_within hslot hr hc hp),
      fun hp hd => exec_waitTimerExpiry hs (waitExpiry_replay hslot hr hc hp hd),
      fun hp hd => ⟨fun hl he => exec_waitTimerExpiry hs (waitExpiry_faults hslot hr hc hp hd hl he),
        fun h => exec_waitTimerExpiry hs (waitExpiry_unwatched hslot hr hc hp hd h)⟩⟩⟩

end Sys2Proof.Laws
end

section
/-!
SUPPORT. Images, trays and fallow loads (R211-R219, R226): what each row comes to where its command starts, and where what it
moves or fills has ended. The clauses of logs 33, 104, 105 and 158 are the model's choices.
-/
namespace Sys2Proof.Laws

open Sys2Proof.Machine

section
variable {q : Fin 16} {c : Cmd} {s : State}

/-- The state in which a LOAD_IMAGE starts its engine: the fills cancelled, and in FAULT the domains restored and the trellis
flushed (R226, R526). -/
def readyToLoad (s : State) : State :=
  s.cancelFill.cancelFallow.when (s.cancelFill.cancelFallow.life == lifeFault) (fun s => s.restoreDomains.sendFlush)

/-- A valid LOAD_IMAGE keeps the load, and its bytes begin to move (R211). -/
theorem exec_loadImage (h : s.Starts 0x08 q [lifeSafe, lifeLoaded, lifeFault] c) (hsub : c.sub ≤ 1)
    (hrange : c.sub = 0 → hostRange (c.w64 0) (c.w 2) = true) (hn : c.w 2 ≠ 0) (hsize : c.w 2 ≤ stagingSize)
    (hload : (s.begun q c).image.load = none) (hcause : (s.begun q c).life = lifeFault → (s.begun q c).causeActive = false)
    (hidle : (s.begun q c).engineIn .idle ≠ []) : exec (.loadImage q) s =
    let t := readyToLoad (s.begun q c)
    done (State.startEngine { t with image := { t.image with
      load := some (t.newLoad c.id (c.sub == 0) (c.w64 0) (c.w 2))
      staged := t.image.staged && !(c.sub == 0) } } c
      [if c.sub = 0 then ⟨.hostVirtual, .atlas, 0, c.w64 0, cold 0, c.w 2⟩ else ⟨.atlas, .buffer, 0, cold 0, 0, c.w 2⟩]) := by
  have hparam : ¬(decide (1 < c.sub) || (c.sub == 0 && !hostRange (c.w64 0) (c.w 2))) = true := by
    simpa [Nat.not_lt.mpr hsub] using hrange
  have hfault : ¬((s.begun q c).life == lifeFault && (s.begun q c).causeActive) = true := by simpa using hcause
  change execLoadImage q s = _
  rw [execLoadImage, command_starts h]
  dsimp only
  rw [if_neg hparam, if_neg (by simp [hn, hsize]), if_neg (by simp [hload]), if_neg hfault, if_neg (by simp [hidle])]
  simp only [beq_iff_eq]
  rfl

/-- A valid FILL_TRAY of a free bank waits for its fill (R214). -/
theorem exec_fillTray (h : s.Starts 0x09 q [lifeLoaded, lifeArmed, lifeLive, lifeDraining] c) (hsub : c.sub = 0)
    (honly : c.only [0x701] = true) (hset : (s.begun q c).image.sets.contains (bits (c.w 0) 8 3) = true)
    (htag : (s.begun q c).tagClash (bits (c.w 0) 0 1) (bits (c.w 0) 8 3) = false) (hfill : (s.begun q c).image.fill = none)
    (huse : (s.begun q c).bankInUse (bits (c.w 0) 0 1) = false) (hopen : (s.begun q c).stagingClosed = false) :
    exec (.fillTray q) s = done (((s.begun q c).startFill c.id (bits (c.w 0) 0 1) (bits (c.w 0) 8 3)).wait c.id) := by
  change execFillTray q s = _
  rw [execFillTray, command_starts h]
  dsimp only
  rw [if_neg (by rw [hset, honly, htag, hsub]; decide), if_neg (by simp [hfill, huse, hopen])]

section
variable (h : s.Starts 0x0B q [lifeLoaded, lifeArmed, lifeLive, lifeDraining] c) (hsub : c.sub = 0) (honly : c.only [0xF] = true)
  (hmenu : (s.begun q c).image.menus.any (fun m => m.number == bits (c.w 0) 0 4) = true)
  (hfallow : (s.begun q c).image.fallow = none) (hopen : (s.begun q c).stagingClosed = false)
  (hrows : ((s.begun q c).stagedBlocks.filter (fun x => x.owner == bits (c.w 0) 0 4)).all
    ((s.begun q c).blockFallow (s.begun q c).stagedBlocks) = true)
include h hsub honly hmenu hfallow hopen hrows

/-- A valid LOAD_FALLOW ends at once where it has no rows to move; else it runs while an engine moves them (R219). -/
theorem exec_loadFallow : exec (.loadFallow q) s =
    let b := s.begun q c
    let n := bits (c.w 0) 0 4
    done (if (b.fallowDescs n).isEmpty then (b.endFallow ⟨c.id, n⟩ true).finish c.id stOk (b.endFallow ⟨c.id, n⟩ true).imgStat
      else
        let s1 := b.startEngine c (b.fallowDescs n)
        if (s1.engineIn .running).any (fun e => (s1.engine e).cmd == c.id) then
          let s2 := s1.raise F.HUB_IMG_STAT.fallow_busy
          State.loseWeights { s2 with image := { s2.image with fallow := some ⟨c.id, n⟩ } } n
        else s1) := by
  change execLoadFallow q s = _
  rw [execLoadFallow, command_starts h]
  dsimp only
  rw [if_neg (by rw [hmenu, honly, hsub]; decide), if_neg (by simp [hfallow, hopen]), if_neg (by rw [hrows]; decide)]

theorem exec_loadFallow_moves (hds : (s.begun q c).fallowDescs (bits (c.w 0) 0 4) ≠ []) {t : State}
    (ht : (s.begun q c).startEngine c ((s.begun q c).fallowDescs (bits (c.w 0) 0 4)) = t)
    (hrun : (t.engineIn .running).any (fun e => (t.engine e).cmd == c.id) = true) : exec (.loadFallow q) s =
    done (State.loseWeights { t.raise F.HUB_IMG_STAT.fallow_busy with image := { (t.raise F.HUB_IMG_STAT.fallow_busy).image with
      fallow := some ⟨c.id, bits (c.w 0) 0 4⟩ } } (bits (c.w 0) 0 4)) := by
  rw [exec_loadFallow h hsub honly hmenu hfallow hopen hrows]
  dsimp only
  rw [if_neg (by simpa using hds), ht, if_pos hrun]

theorem exec_loadFallow_no_rows (hds : (s.begun q c).fallowDescs (bits (c.w 0) 0 4) = []) : exec (.loadFallow q) s =
    done (((s.begun q c).endFallow ⟨c.id, bits (c.w 0) 0 4⟩ true).finish c.id stOk
      ((s.begun q c).endFallow ⟨c.id, bits (c.w 0) 0 4⟩ true).imgStat) := by
  rw [exec_loadFallow h hsub honly hmenu hfallow hopen hrows]
  exact congrArg done (if_pos (by rw [hds]; rfl))

end

end

section
variable {s : State}

theorem exec_loadImageCommit {l : Load} (hl : s.image.load = some l) (hm : s.moved l.cmd = true) :
    exec .loadImageCommit s = done ((s.corrected 0x4000000).commitLoad l) := by
  change execLoadImageCommit s = _
  rw [execLoadImageCommit, hl]
  exact congrArg done (if_pos hm)

theorem exec_fillTrayDone {f : Fill} (hf : s.image.fill = some f) :
    exec .fillTrayDone s = done ((s.corrected 0x4000000).fillDone f) := by
  change execFillTrayDone s = _
  rw [execFillTrayDone, hf]

theorem exec_loadFallowDone {f : Fallow} (hf : s.image.fallow = some f) (hm : s.moved f.cmd = true) :
    exec .loadFallowDone s = done ((s.endFallow f true).finish f.cmd stOk (s.endFallow f true).imgStat) := by
  change execLoadFallowDone s = _
  rw [execLoadFallowDone, hf]
  exact congrArg done (if_neg (by simp [hm]))

end

/-- Settles O33: one lemma for each row; a LOAD_FALLOW has one for each of its two ends. -/
theorem imageCommands : Obligations.ImageCommands := fun _ _ _ =>
  ⟨exec_loadImage, fun _ => exec_loadImageCommit, exec_fillTray, fun _ => exec_fillTrayDone,
    fun h hsub honly hmenu hfallow hopen hrows =>
      ⟨fun hds => exec_loadFallow_moves h hsub honly hmenu hfallow hopen hrows hds rfl,
        exec_loadFallow_no_rows h hsub honly hmenu hfallow hopen hrows⟩,
    fun _ => exec_loadFallowDone⟩

end Sys2Proof.Laws
end

section
/-!
SUPPORT. The current menu (R220-R224): each way in which a SELECT_MENU that starts is answered, and the switch at its crossing.
-/
namespace Sys2Proof.Laws

open Sys2Proof.Machine

section
variable {q : Fin 16} {c : Cmd} {m : Menu} {s : State}
  (h : s.Starts 0x0A q [lifeLoaded, lifeArmed, lifeLive] c) (hsub : c.sub = 0) (honly : c.only [7] = true)
  (hmenu : (s.begun q c).residentAt (bits (c.w 0) 0 3) = some m) (hfit : (s.begun q c).menuUnfit m = false)
  (hpend : (s.begun q c).switchPending = false)
include h hsub honly hmenu hfit hpend

/-- A SELECT_MENU of a fit resident menu, with no switch pending and a crossing far enough ahead in LIVE, has three ends: the
tag is current already, the device is not in LIVE, or the switch waits (R220, R222). -/
theorem exec_selectMenu (hfar : (s.begun q c).life = lifeLive → (s.begun q c).farEnough (c.w64 1) = true) :
    exec (.selectMenu q) s =
    let b := s.begun q c
    let t := bits (c.w 0) 0 3
    let x := if b.life == lifeLive then c.w64 1 else b.xindex
    done (if b.fld F.HUB_MENU_CUR.cur_tag == t then b.finish c.id stOk (loHi x)
      else if !(b.life == lifeLive) then ((b.switchTo t).setWide Reg.HUB_MENU_SWITCH_LO x).finish c.id stOk (loHi x)
      else ((((b.setFld F.HUB_MENU_CUR.pend_tag t).raise F.HUB_MENU_CUR.pend_valid).setWide Reg.HUB_MENU_SWITCH_LO x).addEffect
        ⟨x, c.id, .selectMenu t⟩).wait c.id) := by
  have hnear : ¬((s.begun q c).life == lifeLive &&
      !(s.begun q c).farEnough (if (s.begun q c).life == lifeLive then c.w64 1 else (s.begun q c).xindex)) = true := by
    by_cases hl : (s.begun q c).life = lifeLive
    · simp [hl, hfar hl]
    · simp [hl]
  change execSelectMenu q s = _
  rw [execSelectMenu, command_starts h]
  dsimp only
  rw [if_neg (by simp [hsub, honly]), hmenu]
  dsimp only
  rw [if_neg (by simp [hfit]), if_neg (by simp [hpend]), if_neg hnear]

/-- A SELECT_MENU of the current tag completes at once, which is the model's choice (log 105). -/
theorem exec_selectMenu_current (htag : (s.begun q c).fld F.HUB_MENU_CUR.cur_tag = bits (c.w 0) 0 3)
    (hfar : (s.begun q c).life = lifeLive → (s.begun q c).farEnough (c.w64 1) = true) : exec (.selectMenu q) s =
    done ((s.begun q c).finish c.id stOk
      (loHi (if (s.begun q c).life == lifeLive then c.w64 1 else (s.begun q c).xindex))) := by
  rw [exec_selectMenu h hsub honly hmenu hfit hpend hfar]
  exact congrArg done (if_pos (by simp [htag]))

variable (htag : (s.begun q c).fld F.HUB_MENU_CUR.cur_tag ≠ bits (c.w 0) 0 3)
include htag

theorem exec_selectMenu_outside_live (hlife : (s.begun q c).life ≠ lifeLive) : exec (.selectMenu q) s =
    done ((((s.begun q c).switchTo (bits (c.w 0) 0 3)).setWide Reg.HUB_MENU_SWITCH_LO (s.begun q c).xindex).finish c.id stOk
      (loHi (s.begun q c).xindex)) := by
  rw [exec_selectMenu h hsub honly hmenu hfit hpend (absurd · hlife)]
  dsimp only
  rw [if_neg (by simp [htag]), if_pos (by simp [hlife]), if_neg (by simp [hlife])]

theorem exec_selectMenu_live (hlife : (s.begun q c).life = lifeLive) (hfar : (s.begun q c).farEnough (c.w64 1) = true) :
    exec (.selectMenu q) s = done ((((((s.begun q c).setFld F.HUB_MENU_CUR.pend_tag (bits (c.w 0) 0 3)).raise
      F.HUB_MENU_CUR.pend_valid).setWide Reg.HUB_MENU_SWITCH_LO (c.w64 1)).addEffect
        ⟨c.w64 1, c.id, .selectMenu (bits (c.w 0) 0 3)⟩).wait c.id) := by
  rw [exec_selectMenu h hsub honly hmenu hfit hpend fun _ => hfar]
  dsimp only
  rw [if_neg (by simp [htag]), if_neg (by simp [hlife]), if_pos (by simp [hlife])]

end

section
variable {s r : State} {e : Effect} {k : Nat}

theorem exec_menuSwitch_none (h : s.takeDue isSelectMenu = none) : exec .menuSwitch s = done s := by
  change execMenuSwitch s = _
  rw [execMenuSwitch, h]

/-- The switch that is due runs, and its W1C bits are noted at that tick 0 (R11). -/
theorem exec_menuSwitch_due (h : s.takeDue isSelectMenu = some (e, r)) (hk : e.kind = .selectMenu k) :
    ∃ v, exec .menuSwitch s = done { r.runSwitch e k with time := { (r.runSwitch e k).time with fresh := v } } := by
  obtain ⟨v, hv⟩ := noting_frame r (fun s => s.runSwitch e k)
  refine ⟨v, ?_⟩
  change execMenuSwitch s = _
  rw [execMenuSwitch, h]
  dsimp only
  rw [hk, ← hv]

end

/-- Settles O34: the three ends of `exec_selectMenu`, and the two of `State.runSwitch` where the switch is due. -/
theorem menusSwitchAtTheirCrossing : Obligations.MenusSwitchAtTheirCrossing := by
  intro q c m s
  refine ⟨fun h hsub honly hmenu hfit =>
    ⟨fun htag hpend => exec_selectMenu_current h hsub honly hmenu hfit hpend htag, fun htag hpend =>
      ⟨exec_selectMenu_outside_live h hsub honly hmenu hfit hpend htag,
        exec_selectMenu_live h hsub honly hmenu hfit hpend htag⟩⟩,
    exec_menuSwitch_none, fun e r k h hk => ?_⟩
  obtain ⟨v, hv⟩ := exec_menuSwitch_due h hk
  exact ⟨r.runSwitch e k, v, hv, fun hd => if_pos hd, fun hd => if_neg (by simp [hd])⟩

end Sys2Proof.Laws
end

section
/-!
SUPPORT. Prunes and restores (R225, R368-R373, R448, R449): what each row comes to, one lemma for each branch, and what an update
of the pending jobs keeps.
-/
namespace Sys2Proof.Laws

open Sys2Proof.Machine

/-- An update of the pending jobs shows in DET_STATUS, and keeps the lifecycle state. -/
theorem life_setJobs (s : State) (js : List PruneJob) : (s.setJobs js).life = s.life :=
  (life_setFld _ _ (by decide)).trans (life_setFld _ _ (by decide))

theorem time_begun (s : State) (q : Nat) (c : Cmd) : (s.begun q c).time = s.time := by
  obtain ⟨_, _, e⟩ := begun_touches s q c
  rw [e]

/-- The place that a command names is the CU position of its unit. -/
theorem cu_eq_some_iff {c : Cmd} {d r p : Nat} : c.cu = some (d, r, p) ↔
    cuPos (uCol (bits (c.w 0) 0 11)) = some p ∧ uDie (bits (c.w 0) 0 11) = d ∧ uRow (bits (c.w 0) 0 11) = r := by
  simp only [Cmd.cu, Option.map_eq_some_iff, Prod.mk.injEq]
  grind

/-- The columns of memory units hold no CU position (R132). -/
theorem cuPos_of_isMuCol {k : Nat} (h : isMuCol k = true) : cuPos k = none := by
  simp only [isMuCol, Bool.or_eq_true, beq_iff_eq] at h
  rcases h with ((rfl | rfl) | rfl) | rfl <;> rfl

section
variable {q : Fin 16} {c : Cmd} {s : State}

/-- A valid PRUNE_UNIT is accepted and waits (R370, R448). -/
theorem exec_pruneUnit {d r p : Nat}
    (h : s.Starts 0x20 q [lifeSafe, lifeLoaded, lifeArmed, lifeLive, lifeDraining, lifeReplay] c) (hsub : c.sub = 0)
    (honly : c.only [0x7FF] = true) (hcu : c.cu = some (d, r, p)) (hav : (s.begun q c).available d r p = true)
    (hlog : ((s.begun q c).logicalOf d r p).isSome = true) (hjob : (s.begun q c).jobOn d = false) :
    exec (.pruneUnit q) s = done (((s.begun q c).acceptJob { die := d, row := r, pos := p }).wait c.id) := by
  have hparam : (c.sub == 0 && c.only [0x7FF]) = true := by simp [hsub, honly]
  change execPruneUnit q s = _
  rw [execPruneUnit, command_starts h, hparam, hcu]
  dsimp only
  rw [if_neg (by simp [hav]), if_neg (by simpa [Option.isSome_iff_ne_none] using hlog), if_neg (by simp [hjob])]

section
variable (h : s.Starts 0x21 q [lifeSafe, lifeLoaded, lifeArmed, lifeLive, lifeDraining, lifeReplay] c) (hsub : c.sub = 0)
  (honly : c.only [0x7FF] = true) (hunit : isUnit (bits (c.w 0) 0 11) = true)
include h hsub honly hunit

/-- A valid RESTORE_UNIT of a pruned place is accepted and waits (R373, R449). -/
theorem exec_restoreUnit_pruned {d r p : Nat} (hcu : c.cu = some (d, r, p)) (hfused : nbit ((s.begun q c).fusedMask d r) p = false)
    (hjob : (s.begun q c).jobOn d = false) (hpruned : nbit ((s.begun q c).prunedMask d r) p = true) : exec (.restoreUnit q) s =
    done (((s.begun q c).acceptJob { die := d, row := r, pos := p, restore := true }).wait c.id) := by
  obtain ⟨hp, hd, hr⟩ := cu_eq_some_iff.mp hcu
  change execRestoreUnit q s = _
  rw [execRestoreUnit, command_starts h]
  dsimp only
  rw [hp, hd, hr, if_neg (by simp [hsub, honly, hunit, hfused]), if_neg (by simp [hjob]), Option.filter_some, if_pos hpruned]

/-- A RESTORE_UNIT of a memory unit that is quarantined clears the quarantine and its history at once (R449). -/
theorem exec_restoreUnit_quarantined {u : Nat} (hu : bits (c.w 0) 0 11 = u) (hmu : isMuCol (uCol u) = true)
    (hjob : (s.begun q c).jobOn (uDie u) = false)
    (hbit : (s.begun q c).bit (F.TRL_SITE_FSTAT.quarantined (uDie u) (13 * uRow u + uCol u)) = true) : exec (.restoreUnit q) s =
    done (((((s.begun q c).lower (F.TRL_SITE_FSTAT.quarantined (uDie u) (13 * uRow u + uCol u))).lower
      (F.TRL_SITE_FSTAT.recent (uDie u) (13 * uRow u + uCol u))).forgetFaults u).finish c.id stOk
        [BitVec.ofNat 32 s.time.orbit]) := by
  subst hu
  change execRestoreUnit q s = _
  rw [execRestoreUnit, command_starts h]
  dsimp only
  rw [cuPos_of_isMuCol hmu, if_neg (by simp [hsub, honly, hunit]), if_neg (by simp [hjob]), Option.filter_none]
  dsimp only
  rw [if_neg (by simp [hbit]), ← time_begun s q c]
  rfl

end

end

section
variable {s : State}

/-- The oldest prune is prepared: it waits for its boundary in LIVE and REPLAY, and takes effect at once elsewhere (R370). -/
theorem exec_prunePrepared {j : PruneJob} {js : List PruneJob}
    (hj : takeFirst (fun j => !j.prepared && !j.restore) s.spares.jobs = some (j, js)) : exec .prunePrepared s =
    let t := s.setJobs (s.spares.jobs.map (fun x => if x = j then { x with prepared := true } else x))
    done (if s.life = lifeLive || s.life = lifeReplay then t
      else t.reachJobs j.die t.time.orbit t.time.crossing (t.xindex + 1) (fun x => x.prepared && !x.restore)) := by
  change execPrunePrepared s = _
  rw [execPrunePrepared, hj]
  dsimp only
  rw [life_setJobs]

theorem applyJobs_at_boundary (h : s.atBoundary = true) :
    s.applyJobs = s.pruneBoundary s.boundaryId.1 s.boundaryId.2 (s.xindex + 1) := if_pos h

section
variable {die : Fin 16} {x : Pause} (hs : s.stalled = false) (hx : s.pauseOf die = some x)
include hs hx

/-- A paused die that holds a token of an earlier event goes on waiting (R371). -/
theorem exec_sidestepSwitch_holds (hd : s.dieHolds die x.start = true) : exec (.sidestepSwitch die) s = done s := by
  change execSidestepSwitch die s = _
  rw [execSidestepSwitch, unstalled_of_not_stalled hs, hx]
  exact congrArg done (if_pos hd)

/-- One that holds none ends its pause, and its jobs take effect (R370). -/
theorem exec_sidestepSwitch_free (hd : s.dieHolds die x.start = false) : exec (.sidestepSwitch die) s =
    done (State.runJobs (State.showPrunes { s with spares := { s.spares with
      pauses := tset (fun _ => none) s.spares.pauses die none } }) die x.jobs x.orbit x.crossing) := by
  change execSidestepSwitch die s = _
  rw [execSidestepSwitch, unstalled_of_not_stalled hs, hx]
  exact congrArg done (if_neg (by simp [hd]))

end

end

/-- Settles O49: one lemma for each row and branch; PRUNE_APPLY and RESTORE_APPLY are the same act at the boundary. -/
theorem prunesAndRestores : Obligations.PrunesAndRestores := by
  intro q c d r p s lives b
  refine ⟨exec_pruneUnit, fun h hsub honly hcu hunit hfused => exec_restoreUnit_pruned h hsub honly hunit hcu hfused,
    fun h hsub honly hunit hmu => exec_restoreUnit_quarantined h hsub honly hunit rfl hmu,
    fun j js hj => ⟨fun hlife => ?_, fun hlive hreplay => ?_⟩, fun hb => ?_, fun die x hs hx =>
    ⟨exec_sidestepSwitch_holds hs hx, fun hd => ⟨_, exec_sidestepSwitch_free hs hx hd, rfl⟩⟩⟩
  · rw [exec_prunePrepared hj]
    exact congrArg done (if_pos (by simpa using hlife))
  · rw [exec_prunePrepared hj]
    exact congrArg done (if_neg (by simp [hlive, hreplay]))
  · have hrow : done s.applyJobs = done (s.pruneBoundary s.boundaryId.1 s.boundaryId.2 (s.xindex + 1)) :=
      congrArg done (applyJobs_at_boundary hb)
    exact ⟨hrow, hrow⟩

end Sys2Proof.Laws
end

section
/-!
SUPPORT. The filtered VETO_N level and its warning (R237, R240): what each row comes to in the cases that its statement names.
-/
namespace Sys2Proof.Laws

open Sys2Proof.Machine

/-- The state with another level on the VETO_N pin, seen by nothing else yet. -/
def vetoPinAt (s : State) (high : Bool) : State := { s with decision := { s.decision with vetoPin := high } }

section
variable {low : Bool} {n : Nat} {s : State}

/-- A pulse of fewer than four samples is over: the pin shows the other level again, and a low that a sample
saw is a glitch (R237). -/
theorem exec_vetoLevelChange_pulse (h : n < 4) : exec (.vetoLevelChange low n) s =
    done ((vetoPinAt s !low).when (low && n != 0) (fun s => s.satInc F.DEC_VETO_STAT.glitch)) := by
  have hpin : (low != decide (n < 4)) = !low := by simp [h]
  change execVetoLevelChange low n s = _
  rw [execVetoLevelChange, hpin]
  exact congrArg done (if_pos h)

/-- A level that is the filtered one already stays so; the pin shows it. -/
theorem exec_vetoLevelChange_same (hn : 4 ≤ n) (hlow : low = s.decision.vetoLow) :
    exec (.vetoLevelChange low n) s = done (vetoPinAt s low) := by
  have hlong : ¬ n < 4 := Nat.not_lt.mpr hn
  have hpin : (low != decide (n < 4)) = low := by simp [hlong]
  change execVetoLevelChange low n s = _
  rw [execVetoLevelChange, hpin]
  exact congrArg done ((if_neg hlong).trans (if_pos hlow))

/-- A new level of four samples passes the filter (R237). What the sample of tick 28 makes of it is left open here. -/
theorem exec_vetoLevelChange_passes (hn : 4 ≤ n) (hlow : low ≠ s.decision.vetoLow) : ∃ since next,
    exec (.vetoLevelChange low n) s = done { s.setFld F.DEC_VETO_STAT.level (b2n !low) with decision := { s.decision with
      vetoPin := low, vetoLow := low, warned := false, lowSince := since, vetoNext := next } } := by
  have hlong : ¬ n < 4 := Nat.not_lt.mpr hn
  have hpin : (low != decide (n < 4)) = low := by simp [hlong]
  change ∃ since next, execVetoLevelChange low n s = _
  rw [execVetoLevelChange, hpin]
  exact ⟨_, _, congrArg done ((if_neg hlong).trans (if_neg hlow))⟩

theorem exec_vetoWarn_first (hlow : s.decision.vetoLow = true) (hw : s.decision.warned = false) : exec .vetoWarn s =
    done { s.raise F.DEC_VETO_STAT.warn with decision := { s.decision with warned := true } } :=
  congrArg done (if_pos (by simp [hlow, hw]))

/-- Within a low period that has warned, or outside one, no warning comes (R240). -/
theorem exec_vetoWarn_again (h : s.decision.warned = true ∨ s.decision.vetoLow = false) : exec .vetoWarn s = done s :=
  congrArg done (if_neg (by rcases h with h | h <;> simp [h]))

theorem fld_vetoLevel (b : Bool) : (s.setFld F.DEC_VETO_STAT.level (b2n b)).fld F.DEC_VETO_STAT.level = b2n b :=
  (fld_setFld_same s _ (by unfold Fits; decide) _).trans (by cases b <;> rfl)

end

/-- Settles O38: a level of four samples passes or is the filtered one; a shorter low is a glitch where a sample saw it. -/
theorem vetoFilterAndWarning : Obligations.VetoFilterAndWarning := by
  intro low n s
  refine ⟨fun hn hlow => ?_, exec_vetoLevelChange_same, fun h1 h4 => ?_, exec_vetoLevelChange_pulse,
    exec_vetoLevelChange_pulse (by decide), exec_vetoWarn_first, exec_vetoWarn_again⟩
  · obtain ⟨since, next, h⟩ := exec_vetoLevelChange_passes hn hlow
    exact ⟨_, h, rfl, rfl, rfl, fld_vetoLevel (!low), rfl, rfl, rfl, rfl⟩
  · rw [exec_vetoLevelChange_pulse h4]
    exact congrArg done (if_pos (by simp; omega))

end Sys2Proof.Laws
end

section
/-!
SUPPORT. The SYNC_N barrier (R241-R243, R250): what reads back in DEC_SYNC_STAT, and what each row of the barrier comes to in the
states that its statement names.
-/
namespace Sys2Proof.Laws

open Sys2Proof.Machine

/-! DEC_SYNC_STAT -/

theorem fits_syncState : Fits F.DEC_SYNC_STAT.state := by unfold Fits; decide

theorem fits_cancelCount : Fits F.DEC_SYNC_STAT.cancel_count := by unfold Fits; decide

theorem sync_setFld_state (s : State) {v : Nat} (hv : v < 8) : (s.setFld F.DEC_SYNC_STAT.state v).sync = v :=
  (fld_setFld_same s _ fits_syncState v).trans (Nat.mod_eq_of_lt hv)

/-- What a row changes outside the registers, settling included, does not show in their fields. -/
theorem fld_settle_of_regs {s t : State} {f : Fld} {v : Nat} (hs : s.fld f = v) (h : t.regs = s.regs) : t.settle.fld f = v :=
  (fld_settle t f).trans ((fld_of_regs h f).trans hs)

@[simp] theorem fld_driveSync (s : State) (b : Bool) (f : Fld) : (s.driveSync b).fld f = s.fld f := rfl

@[simp] theorem sync_driveSync (s : State) (b : Bool) : (s.driveSync b).sync = s.sync := fld_driveSync s b _

/-- A saturating count reads one more, up to the greatest value of its field. -/
theorem fld_satInc_same (s : State) {f : Fld} (hf : Fits f) :
    (s.satInc f).fld f = min (s.fld f + 1) (2 ^ f.width - 1) := by
  have hpos : 0 < 2 ^ f.width := Nat.two_pow_pos _
  exact (fld_setFld_same s f hf _).trans (Nat.mod_eq_of_lt (by omega))

/-- The level that is sampled shows in its own bit alone. -/
theorem fld_sampleSync (s : State) (high : Bool) {g : Fld}
    (h : g.lo + g.width ≤ F.DEC_SYNC_STAT.line.lo ∨ F.DEC_SYNC_STAT.line.lo + F.DEC_SYNC_STAT.line.width ≤ g.lo) :
    (s.sampleSync high).fld g = s.fld g :=
  fld_setFld_beside { s with pins := { s.pins with syncNOut := high } } _ g (by unfold Fits; decide) _ h

/-! A pulse, where one is due, stands in the interrupt controller alone -/

@[simp] theorem when_pulse_regs (s : State) (b : Bool) (x : Nat) : (s.when b (fun s => s.pulse x)).regs = s.regs := by
  cases b <;> rfl

@[simp] theorem when_pulse_time (s : State) (b : Bool) (x : Nat) : (s.when b (fun s => s.pulse x)).time = s.time := by
  cases b <;> rfl

@[simp] theorem when_pulse_events (s : State) (b : Bool) (x : Nat) : (s.when b (fun s => s.pulse x)).events = s.events := by
  cases b <;> rfl

/-! What a row of the barrier leaves -/

/-- The line is sampled low, and the package waits again, with one cancel more. -/
def cancelSync (s : State) : State :=
  ((s.sampleSync false).setFld F.DEC_SYNC_STAT.state syWaiting).satInc F.DEC_SYNC_STAT.cancel_count

theorem sync_cancelSync (s : State) : (cancelSync s).sync = syWaiting :=
  (fld_setFld_beside _ F.DEC_SYNC_STAT.cancel_count F.DEC_SYNC_STAT.state fits_cancelCount _ (by decide)).trans
    (sync_setFld_state _ (by decide))

theorem cancelCount_cancelSync (s : State) : (cancelSync s).fld F.DEC_SYNC_STAT.cancel_count =
    min (s.fld F.DEC_SYNC_STAT.cancel_count + 1) (2 ^ F.DEC_SYNC_STAT.cancel_count.width - 1) := by
  have hbefore : ((s.sampleSync false).setFld F.DEC_SYNC_STAT.state syWaiting).fld F.DEC_SYNC_STAT.cancel_count =
      s.fld F.DEC_SYNC_STAT.cancel_count :=
    (fld_setFld_beside _ _ _ fits_syncState _ (by decide)).trans (fld_sampleSync s false (by decide))
  rw [cancelSync, fld_satInc_same _ fits_cancelCount, hbefore]

@[simp] theorem sampleSync_time (s : State) (high : Bool) : (s.sampleSync high).time = s.time := State.setFld_time _ _ _

@[simp] theorem sampleSync_events (s : State) (high : Bool) : (s.sampleSync high).events = s.events := State.setFld_events _ _ _

@[simp] theorem cancelSync_time (s : State) : (cancelSync s).time = s.time := by simp [cancelSync]

@[simp] theorem cancelSync_events (s : State) : (cancelSync s).events = s.events := by simp [cancelSync]

theorem sync_holdBarrier (s : State) : s.holdBarrier.sync = syHolding :=
  (fld_of_regs (s := s.setFld F.DEC_SYNC_STAT.state syHolding) rfl _).trans (sync_setFld_state s (by decide))

/-- The barrier is closed: stuck is set, the mode is HOLD, and the package holds the line (R243). -/
structure SyncClosed (s : State) : Prop where
  sync : s.sync = syHolding
  stuck : s.fld F.DEC_SYNC_STAT.stuck = 1
  mode : s.fld F.DEC_SYNC_CFG.mode = 1
  driven : s.decision.syncDriven = true

/-- At tick 0 a stuck timer that has run out in WAITING closes the barrier. -/
theorem syncTick0_closes {s : State} (hd : s.decision.stuckDue = true) (hw : s.sync = syWaiting) : SyncClosed s.syncTick0 := by
  have h : s.syncTick0 = ((((State.raise { s with decision := { s.decision with stuckDue := false } } F.DEC_SYNC_STAT.stuck).setFld
      F.DEC_SYNC_CFG.mode 1).setFld F.DEC_SYNC_STAT.state syHolding).driveSync true) := by
    rw [State.syncTick0, if_pos (by simp [hd, hw])]
  rw [h]
  exact {
    sync := (sync_driveSync _ true).trans (sync_setFld_state _ (by decide))
    stuck := (fld_driveSync _ true _).trans <|
      (fld_setFld_beside _ F.DEC_SYNC_STAT.state F.DEC_SYNC_STAT.stuck fits_syncState _ (by decide)).trans <|
      (fld_setFld_off _ F.DEC_SYNC_CFG.mode _ _ (by decide)).trans (fld_raise_same _ (by unfold Fits; decide) (by decide))
    mode := (fld_driveSync _ true _).trans <|
      (fld_setFld_off _ F.DEC_SYNC_STAT.state F.DEC_SYNC_CFG.mode _ (by decide)).trans (fld_setFld_same _ _ (by unfold Fits; decide) 1)
    driven := rfl }

/-- Settling moves nothing of the barrier. -/
theorem SyncClosed.settle {s : State} (h : SyncClosed s) : SyncClosed s.settle where
  sync := (fld_settle s _).trans h.sync
  stuck := (fld_settle s _).trans h.stuck
  mode := (fld_settle s _).trans h.mode
  driven := h.driven

/-! The rows -/

section
variable {s : State}

theorem exec_syncRelease_early (h : s.atTick0 = false) : exec .syncRelease s = done s :=
  congrArg done (if_neg (by simp [h]))

theorem exec_syncRelease_ready (h0 : s.atTick0 = true) (hr : s.syncReady = true) (hs : s.sync = syHolding) :
    exec .syncRelease s = done { (s.setFld F.DEC_SYNC_STAT.state syWaiting).driveSync false with
      pins := { s.pins with syncNOut := false } } := by
  change execSyncRelease s = _
  rw [execSyncRelease, if_pos h0, State.syncRelease, if_pos (by simp [hr, hs])]
  rfl

theorem exec_syncRise_waiting (hm : s.syncMode = 2) (hs : s.sync = syWaiting) (hd : s.decision.syncDriven = false) :
    exec .syncRise s = done { (s.sampleSync true).setFld F.DEC_SYNC_STAT.state syRisen with
      decision := { s.decision with riseXing := s.xindex, stuckDue := false } } :=
  congrArg done (if_pos (by simp [hm, hs, hd]))

theorem exec_syncConfirm_next (hs : s.sync = syRisen) (hx : s.xindex = s.decision.riseXing + 1) :
    exec .syncConfirm s = done ((s.sampleSync true).setFld F.DEC_SYNC_STAT.state syConfirmed) :=
  congrArg done (if_pos (by simp [hs, hx]))

theorem exec_syncCancel_low (hs : s.sync = syRisen ∨ s.sync = syConfirmed)
    (hx : s.xindex = s.decision.riseXing + 1 ∨ s.xindex = s.decision.riseXing + 2) :
    exec .syncCancel s = done ((cancelSync s).when (nbit ((cancelSync s).fld F.DEC_INT_EN.en) 3) (fun s => s.pulse 227)) := by
  change execSyncCancel s = _
  rw [execSyncCancel, if_pos (by simp [hs, hx])]
  rfl

/-- The stuck timer runs out while the line is low in WAITING: the barrier closes at tick 0, here or later. -/
theorem exec_syncStuck_low (hm : s.syncMode = 2) (hs : s.sync = syWaiting) (hn : s.syncN = false) : exec .syncStuck s =
    done (State.when { s with decision := { s.decision with stuckDue := true } } s.atTick0 State.syncTick0) := by
  change execSyncStuck s = _
  rw [execSyncStuck, if_pos (by simp [hm, hs, hn])]
  rfl

theorem exec_syncLaunch_due (h : s.syncDue = true) :
    ∃ m, exec .syncLaunch s = done { s.launchSync with time := { s.launchSync.time with fresh := m } } := by
  obtain ⟨m, hm⟩ := noting_frame s State.launchSync
  exact ⟨m, congrArg done ((if_pos h).trans hm)⟩

theorem exec_syncLaunch_early (h : s.syncDue = false) : exec .syncLaunch s = done s :=
  congrArg done (if_neg (by simp [h]))

theorem exec_decSyncCfgWrite_up (v : Word) (h : s.up = true) : exec (.decSyncCfgWrite v) s = done (s.writeSyncCfg v) :=
  congrArg done (if_pos h)

theorem sync_writeSyncCfg (v : Word) : (s.writeSyncCfg v).sync = syHolding := sync_holdBarrier _

end

/-- Settles O39: one lemma for each row; a barrier that is stuck closes by
`syncTick0_closes`, in the row or at the tick 0 after it. -/
theorem barrierWalksToItsLaunch : Obligations.BarrierWalksToItsLaunch := by
  intro s
  refine ⟨exec_syncRelease_early, fun h0 hr hs => ?_, fun hm hs hd => ?_, fun hs hx => ?_, fun hs hx => ?_,
    fun hm hs hn => ⟨fun h0 => ?_, fun h0 => ?_⟩, fun hd hw => ?_, exec_syncLaunch_due, exec_syncLaunch_early,
    fun v hup => ⟨exec_decSyncCfgWrite_up v hup, sync_writeSyncCfg v⟩⟩
  · have hwaits := sync_setFld_state s (v := syWaiting) (by decide)
    exact ⟨_, exec_syncRelease_ready h0 hr hs, fld_settle_of_regs hwaits rfl, rfl, rfl, rfl⟩
  · have hrises := sync_setFld_state (s.sampleSync true) (v := syRisen) (by decide)
    exact ⟨_, exec_syncRise_waiting hm hs hd, fld_settle_of_regs hrises rfl, rfl, rfl, rfl⟩
  · have hconfirms := sync_setFld_state (s.sampleSync true) (v := syConfirmed) (by decide)
    exact ⟨_, exec_syncConfirm_next hs hx, fld_settle_of_regs hconfirms rfl, rfl, rfl⟩
  · exact ⟨_, exec_syncCancel_low hs hx, fld_settle_of_regs (sync_cancelSync s) (when_pulse_regs _ _ _), by simp, by simp,
      fld_settle_of_regs (cancelCount_cancelSync s) (when_pulse_regs _ _ _)⟩
  · obtain ⟨hsync, hstuck, hmode, hdriven⟩ :=
      (syncTick0_closes (s := { s with decision := { s.decision with stuckDue := true } }) rfl hs).settle
    refine ⟨_, (exec_syncStuck_low hm hs hn).trans ?_, hsync, hstuck, hmode, hdriven⟩
    rw [h0]
    rfl
  · rw [exec_syncStuck_low hm hs hn, h0]
    rfl
  · obtain ⟨hsync, hstuck, hmode, hdriven⟩ := syncTick0_closes hd hw
    exact ⟨hsync, hstuck, hmode, hdriven⟩

end Sys2Proof.Laws
end

section
/-!
SUPPORT. Routes by dimension order (R264): the first axis in which two packages differ, and the direction along it.
-/
namespace Sys2Proof.Laws

open Sys2Proof.Machine

section
variable (s : State) {a b : Nat}

theorem routePort_same (h : ∀ k, k < 3 → coord k a = coord k b) : s.routePort a b = none := by
  have hnone : [0, 1, 2].find? (fun k => coord k a != coord k b) = none := by simp [h]
  rw [State.routePort, hnone]

/-- The first axis in which the packages differ gives the port, and the shorter way along it the direction. -/
theorem routePort_first {k : Nat} (hk : k < 3) (hsame : ∀ j, j < k → coord j a = coord j b) (hdiff : coord k a ≠ coord k b) :
    s.routePort a b = some
      (if (coord k b + s.extent k - coord k a) % s.extent k ≤ s.extent k - (coord k b + s.extent k - coord k a) % s.extent k
        then 2 * k else 2 * k + 1) := by
  have hfirst : (List.range 3).find? (fun j => coord j a != coord j b) = some k :=
    List.find?_range_eq_some.mpr ⟨by simp [hdiff], List.mem_range.mpr hk, fun j hj => by simp [hsame j hj]⟩
  change (match (List.range 3).find? (fun j => coord j a != coord j b) with | none => none | some _ => _) = _
  rw [hfirst]

end

/-- Settles O43: `routePort_first` names the axis, and the two directions are the branches of its choice. -/
theorem routesTakeTheShorterWay : Obligations.RoutesTakeTheShorterWay := fun s _ _ =>
  ⟨routePort_same s, fun _ hk hsame hdiff =>
    ⟨fun hup => (routePort_first s hk hsame hdiff).trans (congrArg some (if_pos hup)),
      fun hdown => (routePort_first s hk hsame hdiff).trans (congrArg some (if_neg (Nat.not_le.mpr hdown)))⟩⟩

end Sys2Proof.Laws
end

section
/-!
SUPPORT. The bytes of a flit and its acceptance (R254, R258, R259): how long a flit is and where its CRC stands, and what becomes of a
flit that comes in by its CRC and its sequence number. A payload of more than 48 bytes does not fit a flit, and O42 fails of it alone.
-/
namespace Sys2Proof.Laws

open Sys2Proof.Machine

/-! Bytes of a number -/

theorem leBytes_succ (n v : Nat) : leBytes (n + 1) v = BitVec.ofNat 8 v :: leBytes n (v / 256) := by
  simp only [leBytes, List.range_succ_eq_map, List.map_cons, List.map_map]
  congr 1
  refine List.map_congr_left fun i _ => ?_
  rw [Function.comp_apply, Nat.mul_succ, Nat.add_comm, Nat.shiftRight_add, Nat.shiftRight_eq_div_pow v]

theorem leNat_leBytes (n v : Nat) : leNat (leBytes n v) = v % 256 ^ n := by
  induction n generalizing v with
  | zero => simp [leBytes, leNat, Nat.mod_one]
  | succ n ih => rw [leBytes_succ, leNat, ih, BitVec.toNat_ofNat, Nat.pow_succ' (m := 256), Nat.mod_mul]

theorem ofNat_leNat_leBytes (w : Word) : BitVec.ofNat 32 (leNat (leBytes 4 w.toNat)) = w := by
  rw [leNat_leBytes, Nat.mod_eq_of_lt (show w.toNat < 256 ^ 4 from w.isLt), BitVec.ofNat_toNat, BitVec.setWidth_eq]

/-! The bytes of a flit -/

theorem length_padTo (n : Nat) (bs : List Byte) : (padTo n bs).length = max n bs.length := by
  rw [padTo, List.length_append, List.length_replicate]
  omega

/-- A flit is what its CRC covers, and the CRC. -/
theorem flitBytes_eq_covered (q a : Nat) (n : Bool) (c : Cargo) : ∃ b, flitBytes q a n c = b ++ leBytes 4 (crc32c b).toNat ∧
    b.length = 12 + max 48 c.payload.length :=
  ⟨_, rfl, by simp only [List.length_append, length_leBytes, length_padTo]⟩

theorem length_flitBytes (q a : Nat) (n : Bool) (c : Cargo) : (flitBytes q a n c).length = 16 + max 48 c.payload.length := by
  obtain ⟨b, hb, hlen⟩ := flitBytes_eq_covered q a n c
  rw [hb, List.length_append, length_leBytes, hlen]
  omega

/-- A flit whose payload fits is 64 bytes, of which the last 4 are the CRC of the others. -/
theorem flitBytes_of_fits (q a : Nat) (n : Bool) {c : Cargo} (hfits : c.payload.length ≤ 48) : (flitBytes q a n c).length = 64 ∧
    BitVec.ofNat 32 (leNat ((flitBytes q a n c).drop 60)) = crc32c ((flitBytes q a n c).take 60) := by
  obtain ⟨b, hb, hlen⟩ := flitBytes_eq_covered q a n c
  have hb60 : b.length = 60 := by omega
  refine ⟨by rw [length_flitBytes]; omega, ?_⟩
  rw [hb, List.drop_left' hb60, List.take_left' hb60, ofNat_leNat_leBytes]

/-- The flits of a message fit. -/
theorem length_payload_of_mem_cutFlits {tc : Nat} {dl : Bool} {head bs : List Byte} {back : Option (Nat × Nat)} {c : Cargo}
    (h : c ∈ cutFlits tc dl head bs back) : c.payload.length = 48 := by
  obtain ⟨i, -, rfl⟩ := List.mem_map.mp h
  rw [length_padTo, sub, List.length_take]
  omega

/-! A flit that comes in -/

theorem takeFlit_crc_fails {bs : List Byte} (h : crc32c (bs.take 60) ≠ BitVec.ofNat 32 (leNat (bs.drop 60))) (s : State) (p : Nat)
    (cr : List (Nat × Nat)) : s.takeFlit p bs cr = s.satInc (F.TTH_PORT_ERR0.crc_fail p) :=
  if_pos (by simp [h])

@[simp] theorem port_setPort_same (s : State) (p : Nat) (v : Port) : (s.setPort p v).port p = v := tget_tset_same _ _ _ _

section
variable {s : State} {p seq : Nat} {v : Port} (hv : s.port p = v) (tc kind : Nat) (first dl : Bool) (bs : List Byte)
include hv

/-- The flit that is expected is accepted (R258). -/
theorem takeSequenced_expected (h : (seq + 4096 - v.expect) % 4096 = 0) :
    ∃ r : State, s.takeSequenced p seq tc kind first dl bs = r.takePayload p tc kind first dl bs ∧
      (r.port p).expect = (v.expect + 1) % 4096 ∧ (r.port p).accepted = v.accepted + 1 ∧ r.time = s.time ∧ r.mem = s.mem := by
  subst hv
  exact ⟨_, if_pos h, by simp⟩

variable (hahead : (seq + 4096 - v.expect) % 4096 ≠ 0)
include hahead

theorem takeSequenced_duplicate (h : (v.expect + 4096 - seq) % 4096 ≤ 256) : s.takeSequenced p seq tc kind first dl bs =
    (s.satInc (F.TTH_PORT_ERR0.dup_discard p)).setPort p { v with ackDue := true } := by
  subst hv
  exact (if_neg hahead).trans (if_pos h)

theorem takeSequenced_gap (h : 256 < (v.expect + 4096 - seq) % 4096) (hgap : (seq + 4096 - v.expect) % 4096 ≤ 255) :
    s.takeSequenced p seq tc kind first dl bs = s.setPort p { v with nakDue := v.nakDue || !v.gap, gap := true } := by
  subst hv
  exact (if_neg hahead).trans ((if_neg (Nat.not_le.mpr h)).trans (if_pos hgap))

theorem takeSequenced_outside (h : 256 < (v.expect + 4096 - seq) % 4096) (hfar : 255 < (seq + 4096 - v.expect) % 4096) :
    s.takeSequenced p seq tc kind first dl bs = s.satInc (F.TTH_PORT_ERR2.seq_err p) := by
  subst hv
  exact (if_neg hahead).trans ((if_neg (Nat.not_le.mpr h)).trans (if_neg (Nat.not_le.mpr hfar)))

end

/-- What stands of O42: its clauses, where the payload of a flit that is built fits, as those of a message do. -/
theorem flitsThatFitCarryTheirCrc :
    (∀ (q a : Nat) (n : Bool) (c : Cargo), c.payload.length ≤ 48 → (flitBytes q a n c).length = 64 ∧
      BitVec.ofNat 32 (leNat ((flitBytes q a n c).drop 60)) = crc32c ((flitBytes q a n c).take 60)) ∧
    (∀ (tc : Nat) (dl : Bool) (head bs : List Byte) (back : Option (Nat × Nat)),
      ∀ c ∈ cutFlits tc dl head bs back, c.payload.length ≤ 48) ∧
    ∀ (s : State) (p seq tc kind : Nat) (first dl : Bool) (bs : List Byte) (cr : List (Nat × Nat)),
      let v := s.port p
      let ahead := (seq + 4096 - v.expect) % 4096
      let behind := (v.expect + 4096 - seq) % 4096
      let taken := s.takeSequenced p seq tc kind first dl bs
      (crc32c (bs.take 60) ≠ BitVec.ofNat 32 (leNat (bs.drop 60)) → s.takeFlit p bs cr = s.satInc (F.TTH_PORT_ERR0.crc_fail p)) ∧
      (ahead ≠ 0 → behind ≤ 256 → taken = (s.satInc (F.TTH_PORT_ERR0.dup_discard p)).setPort p { v with ackDue := true }) ∧
      (ahead ≠ 0 → 256 < behind → ahead ≤ 255 → taken = s.setPort p { v with nakDue := v.nakDue || !v.gap, gap := true }) ∧
      (256 < behind → 255 < ahead → taken = s.satInc (F.TTH_PORT_ERR2.seq_err p)) ∧
      (ahead = 0 → ∃ r : State, taken = r.takePayload p tc kind first dl bs ∧ (r.port p).expect = (v.expect + 1) % 4096 ∧
        (r.port p).accepted = v.accepted + 1 ∧ r.time = s.time ∧ r.mem = s.mem) :=
  ⟨fun q a n _ => flitBytes_of_fits q a n, fun _ _ _ _ _ _ h => Nat.le_of_eq (length_payload_of_mem_cutFlits h),
    fun s p _ tc kind first dl bs cr => ⟨fun h => takeFlit_crc_fails h s p cr, takeSequenced_duplicate rfl tc kind first dl bs,
      takeSequenced_gap rfl tc kind first dl bs,
      fun hb ha => takeSequenced_outside rfl tc kind first dl bs (Nat.ne_zero_of_lt ha) hb ha,
      takeSequenced_expected rfl tc kind first dl bs⟩⟩

/-- Refutes O42: a cargo whose payload has 49 bytes makes a flit of 65. -/
theorem not_flitsCarryTheirCrc : ¬ Obligations.FlitsCarryTheirCrc := by
  intro h
  obtain ⟨hbytes, -, -⟩ := h
  obtain ⟨hlen, -⟩ := hbytes 0 0 false { kind := 2, payload := List.replicate 49 0 }
  rw [length_flitBytes, List.length_replicate] at hlen
  exact absurd hlen (by decide)

end Sys2Proof.Laws
end

section
/-!
SUPPORT. What an UP port sends and takes, and what takes it down (R256-R263): what each row of the link layer comes to by the state of its
port.
-/
namespace Sys2Proof.Laws

open Sys2Proof.Machine

theorem portUp_eq_false_of_portState {s : State} {p st : Nat} (h : s.portState p = st) (hst : st ≠ psUp) : s.portUp p = false :=
  beq_eq_false_iff_ne.mpr (h ▸ hst)

/-! Flits -/

section
variable {p : Fin 6} {s : State}

/-- An UP port sends the flit that is next, with the acknowledgement of what it has accepted; a cargo on its way through frees its
buffer. -/
theorem exec_flitSend_up (h : s.portUp p = true) {v w : Port} {q : Nat} {c : Cargo} {bs : List Byte} {t : State} (hv : s.port p = v)
    (hnext : v.next = (q, c, w)) (hbs : flitBytes q ((v.expect + 4095) % 4096) v.nakDue c = bs)
    (ht : ((s.setPort p { w with nakDue := false, accepted := 0, ackDue := false }).freeBuffer c).lineFlit p bs = t) :
    exec (.flitSend p) s = done { t with links := { t.links with sent := (p.val, bs, c.credits) :: t.links.sent } } := by
  change execFlitSend p s = _
  rw [execFlitSend, if_neg (by simp [h])]
  dsimp only
  rw [hv, hnext]
  dsimp only
  rw [hbs, ht]

theorem exec_flitSend_not_up (h : s.portUp p = false) : exec (.flitSend p) s = done s := congrArg done (if_pos (by simp [h]))

theorem exec_flitReceived_up (h : s.portUp p = true) (bs : List Byte) (cr : List (Nat × Nat)) :
    exec (.flitReceived p bs cr) s = done (s.takeFlit p bs cr) := congrArg done (if_pos h)

theorem exec_flitReceived_not_up (h : s.portUp p = false) (bs : List Byte) (cr : List (Nat × Nat)) :
    exec (.flitReceived p bs cr) s = done s := congrArg done (if_neg (by simp [h]))

/-! Timers (R260, R261) -/

theorem exec_ackDue_accepted (h : s.portUp p = true) (ha : (s.port p).accepted ≠ 0) :
    exec (.ackDue p) s = done (s.setPort p { s.port p with ackDue := true }) :=
  congrArg done (if_pos (by simp [h, ha]))

theorem exec_replayTimeout_acknowledged (hu : (s.port p).unacked = []) : exec (.replayTimeout p) s = done s :=
  congrArg done (if_pos (by simp [hu]))

section
variable (h : s.portUp p = true) (hu : (s.port p).unacked ≠ [])
include h hu

theorem exec_replayTimeout_replays (hn : (s.port p).timerReplays < 8) : exec (.replayTimeout p) s =
    done (s.setPort p { s.port p with resend := (s.port p).unacked.map (fun e => e.1), timerReplays := (s.port p).timerReplays + 1 }) :=
  congrArg done ((if_neg (by simp [h, hu])).trans (if_neg (Nat.not_le.mpr hn)))

theorem exec_replayTimeout_gives_up (hn : 8 ≤ (s.port p).timerReplays) : exec (.replayTimeout p) s = done (s.takeDown p true) :=
  congrArg done ((if_neg (by simp [h, hu])).trans (if_pos hn))

end

/-! Leaving a state (R263) -/

theorem exec_portLaneLoss_up (h : s.portUp p = true) (l : Fin 4) : exec (.portLaneLoss p l) s = done (s.takeDown p true) :=
  congrArg done (if_pos h)

theorem exec_portLaneLoss_trained (h : s.portState p = psAlign ∨ s.portState p = psParam ∨ s.portState p = psMeasure) (l : Fin 4) :
    exec (.portLaneLoss p l) s = done (s.downOrTrain p) := by
  have hup : s.portUp p = false := by
    obtain h | h | h := h <;> exact portUp_eq_false_of_portState h (by decide)
  exact congrArg done ((if_neg (by simp [hup])).trans (if_pos (by simpa [or_assoc] using h)))

/-- Before the lanes are locked, a loss shows in the map of the locked lanes alone. -/
theorem exec_portLaneLoss_untrained (h : s.portState p = psDown ∨ s.portState p = psTrain) (l : Fin 4) :
    exec (.portLaneLoss p l) s = done (s.setMapBit (F.TTH_PORT_STATE.lane_lock p) l false) := by
  have hup : s.portUp p = false := by
    obtain h | h := h <;> exact portUp_eq_false_of_portState h (by decide)
  have hlow : ¬(s.portState p = psAlign || s.portState p = psParam || s.portState p = psMeasure) = true := by
    obtain h | h := h <;> rw [h] <;> decide
  exact congrArg done ((if_neg (by simp [hup])).trans (if_neg hlow))

theorem exec_portRetrain_up (h : s.up = true) : exec (.portRetrain p) s = done (s.takeDown p false) :=
  congrArg done (if_neg (by simp [h]))

theorem exec_tthPortCfgWrite_up (h : s.up = true) (v : Word) : exec (.tthPortCfgWrite p v) s = done (s.writePortCfg p v) :=
  congrArg done (if_neg (by simp [h]))

end

/-! A write of TTH_PORT_CFG: `t` is the state with the register set -/

section
variable {s t : State} {p : Nat} {v : Word} (ht : s.setReg (Reg.TTH_PORT_CFG p) (v &&& 0x0FFFF1F3) = t)
include ht

theorem writePortCfg_disables (hen : t.bit (F.TTH_PORT_CFG.en p) = false) (hst : t.portState p ≠ psDown) :
    s.writePortCfg p v = t.takeDown p false := by
  subst ht
  exact (if_pos (by rw [hen]; rfl)).trans (if_neg hst)

theorem writePortCfg_stays_down (hen : t.bit (F.TTH_PORT_CFG.en p) = false) (hst : t.portState p = psDown) : s.writePortCfg p v = t := by
  subst ht
  exact (if_pos (by rw [hen]; rfl)).trans (if_pos hst)

theorem writePortCfg_enables (hen : t.bit (F.TTH_PORT_CFG.en p) = true) (hst : t.portState p = psDown) :
    s.writePortCfg p v = t.downOrTrain p := by
  subst ht
  exact (if_neg (by rw [hen]; decide)).trans (if_pos hst)

theorem writePortCfg_stays_on (hen : t.bit (F.TTH_PORT_CFG.en p) = true) (hst : t.portState p ≠ psDown) : s.writePortCfg p v = t := by
  subst ht
  exact (if_neg (by rw [hen]; decide)).trans (if_neg hst)

end

/-- Settles O41: one lemma for each row and branch. -/
theorem portsGoDownAndFlitsLeave : Obligations.PortsGoDownAndFlitsLeave := by
  intro p s
  refine ⟨fun h => ⟨exec_flitSend_up h rfl rfl rfl rfl, exec_flitReceived_up h, exec_ackDue_accepted h, fun hu =>
      ⟨exec_replayTimeout_replays h hu, exec_replayTimeout_gives_up h hu⟩, exec_portLaneLoss_up h⟩,
    exec_portLaneLoss_trained, exec_portLaneLoss_untrained, exec_replayTimeout_acknowledged,
    fun h => ⟨exec_flitSend_not_up h, exec_flitReceived_not_up h⟩, fun h => ⟨exec_portRetrain_up h, fun v => ?_⟩⟩
  have hwrite := exec_tthPortCfgWrite_up (p := p) h v
  exact ⟨fun hen hst => hwrite.trans (congrArg done (writePortCfg_disables rfl hen hst)),
    fun hen hst => hwrite.trans (congrArg done (writePortCfg_stays_down rfl hen hst)),
    fun hen hst => hwrite.trans (congrArg done (writePortCfg_enables rfl hen hst)),
    fun hen hst => hwrite.trans (congrArg done (writePortCfg_stays_on rfl hen hst))⟩

end Sys2Proof.Laws
end

section
/-!
SUPPORT. Messages of TC2 and TC3 at a package (R264-R268), and the writes of COL_SELF and COL_TORUS (R275, R276): what each row comes to
once it has taken its message out of the inbox.
-/
namespace Sys2Proof.Laws

open Sys2Proof.Machine

/-! A WRITE (R265, R266): `t` is the state in which the message has been taken -/

section
variable {s t : State} {m : Message} {ecc : Bool} (h : s.takeMessage (s.isHere 1) = some (m, t))
include h

theorem exec_remoteWrite_refused {code : Nat} (hcode : t.remoteCode (msgAddr m.bytes) (msgLen m.bytes) ecc = code) (hne : code ≠ 0) :
    exec (.remoteWrite ecc) s = done (t.failMessage m.bytes code) := by
  change execRemoteWrite ecc s = _
  rw [execRemoteWrite, h]
  dsimp only
  rw [hcode, if_pos (bne_iff_ne.mpr hne)]

/-- A WRITE that may be performed writes its words; one of whose words one was dropped is reported. -/
theorem exec_remoteWrite_performed (hcode : t.remoteCode (msgAddr m.bytes) (msgLen m.bytes) ecc = 0) {bad : Bool} {r : State}
    (hw : t.writeWords (msgAddr m.bytes) (bytesWords (sub m.bytes 16 (msgLen m.bytes))) = (bad, r)) :
    exec (.remoteWrite ecc) s = done (if bad then r.failMessage m.bytes 1 else r) := by
  change execRemoteWrite ecc s = _
  rw [execRemoteWrite, h]
  dsimp only
  rw [hcode, if_neg (by decide), hw]

end

/-! A READ_REQ (R265, R266) -/

section
variable {s t : State} {m : Message} {found : Option (Fin 66)} (h : s.takeMessage (s.isHere 2) = some (m, t))
include h

theorem exec_readReq_refused {code : Nat} (hcode : t.remoteCode (msgAddr m.bytes) (msgLen m.bytes) found.isNone = code) (hne : code ≠ 0) :
    exec (.readReq found) s = done (t.failMessage m.bytes code) := by
  change execReadReq found s = _
  rw [execReadReq, h]
  dsimp only
  rw [hcode, if_pos (bne_iff_ne.mpr hne)]

/-- A READ_REQ that may be performed is answered; the words that it reads in the cold frame may count corrected errors (R383). -/
theorem exec_readReq_answered (hcode : t.remoteCode (msgAddr m.bytes) (msgLen m.bytes) found.isNone = 0) {u : State}
    (hu : t.when (decide (cold 0 ≤ msgAddr m.bytes) && decide (msgAddr m.bytes < cold 0x100000000))
      (fun s => s.countEcc (found.elim 0 Fin.val) 0) = u) : exec (.readReq found) s =
    done (u.looked.sendBack (msgHead 3 0 (msgSrc m.bytes) u.self (msgTag m.bytes) (msgAddr m.bytes) (msgLen m.bytes) ++
      u.atlasRead (msgAddr m.bytes) (msgLen m.bytes))) := by
  change execReadReq found s = _
  rw [execReadReq, h]
  dsimp only
  rw [hcode, if_neg (by decide), hu]

end

/-! A READ_RESP (R268, R484) -/

section
variable {s t : State} {m : Message} (h : s.takeMessage (s.isHere 3) = some (m, t))
include h

theorem exec_readResp_late (hnone : t.links.reads.any (fun r => r.tag == msgTag m.bytes && r.far == msgSrc m.bytes) = false)
    (hport : m.port < 6) : exec .readResp s = done (t.satInc (F.TTH_PORT_ERR2.late_resp m.port)) := by
  change execReadResp s = _
  rw [execReadResp, h]
  dsimp only
  rw [if_pos (by simp [hnone]), if_pos hport]

/-- A good response ends its read, and the engine that waits for it takes the bytes. -/
theorem exec_readResp_feeds {e : Nat} {r : State} (hread : t.links.reads.any (fun r => r.tag == msgTag m.bytes && r.far == msgSrc m.bytes) = true)
    (hgood : msgStatus m.bytes = 0) (hr : t.endRead (msgTag m.bytes) = r) (he : r.reader (msgTag m.bytes) = some e) :
    exec .readResp s = done (r.setEngine e { r.engine e with waitTag := none, data := sub m.bytes 16 (msgLen m.bytes) }) := by
  change execReadResp s = _
  rw [execReadResp, h]
  dsimp only
  rw [if_neg (by simp [hread]), if_neg (by simp [hgood]), hr, he]

end

/-! Reports, messages for others, and reads without a response -/

section
variable {s : State} {m : Message}

theorem exec_errorReport_filed {t : State} (h : s.takeMessage (s.isHere 4) = some (m, t)) : exec .errorReport s =
    done (t.filePe (msgStatus m.bytes) (msgTag m.bytes) (msgSrc m.bytes) (msgAddr m.bytes) (msgLen m.bytes)) := by
  change execErrorReport s = _
  rw [execErrorReport, h]

theorem exec_messageForward_next (h : s.links.inbox.find? (fun m => msgDst m.bytes != s.self) = some m) : exec .messageForward s =
    done (State.forwardMessage { s with links := { s.links with inbox := s.links.inbox.erase m } } m (s.laneOn m)) := by
  change execMessageForward s = _
  rw [execMessageForward, h]

theorem exec_readTimeout_outstanding {tag : Fin 4096} (h : s.links.reads.any (fun r => r.tag == tag.val) = true) :
    exec (.readTimeout tag) s = done (((s.endRead tag).raise F.TTH_STATUS.read_timeout).failRead tag 0xF) :=
  congrArg done (if_neg (by simp [h]))

theorem exec_readTimeout_ended {tag : Fin 4096} (h : s.links.reads.any (fun r => r.tag == tag.val) = false) :
    exec (.readTimeout tag) s = done s :=
  congrArg done (if_pos (by simp [h]))

end

/-! COL_SELF and COL_TORUS (R275, R276) -/

section
variable {s : State} (hup : s.up = true) (v : Word)
include hup

theorem exec_colSelfWrite_safe (h : s.life = lifeSafe) : exec (.colSelfWrite v) s = done (s.setReg Reg.COL_SELF (v &&& 0x1FF)) :=
  congrArg done ((if_pos hup).trans (if_neg (by simp [h])))

theorem exec_colSelfWrite_barred (h : s.life ≠ lifeSafe) : exec (.colSelfWrite v) s = done (s.raise F.COL_SURVEY_STAT.cfg_err) :=
  congrArg done ((if_pos hup).trans (if_pos (bne_iff_ne.mpr h)))

theorem exec_colTorusWrite_taken (h : s.life = lifeSafe ∨ s.life = lifeLoaded) :
    exec (.colTorusWrite v) s = done (s.setReg Reg.COL_TORUS (v &&& 0x1FF)) := by
  have hfree : ¬(s.life != lifeSafe && s.life != lifeLoaded) = true := by
    obtain h | h := h <;> rw [h] <;> decide
  exact congrArg done ((if_pos hup).trans (if_neg hfree))

theorem exec_colTorusWrite_barred (hs : s.life ≠ lifeSafe) (hl : s.life ≠ lifeLoaded) :
    exec (.colTorusWrite v) s = done (s.raise F.COL_SURVEY_STAT.cfg_err) :=
  congrArg done ((if_pos hup).trans (if_pos (by simp [hs, hl])))

end

/-- Settles O44: one lemma for each row and branch. -/
theorem remoteMessagesAct : Obligations.RemoteMessagesAct := fun _ _ _ _ _ =>
  ⟨fun h => ⟨exec_remoteWrite_refused h rfl, fun _ hcode => ⟨exec_remoteWrite_performed h hcode, exec_remoteWrite_performed h hcode⟩⟩,
    fun h => ⟨fun hcode => exec_readReq_answered h hcode rfl, exec_readReq_refused h rfl⟩,
    fun h => ⟨exec_readResp_late h, fun _ hread hgood => exec_readResp_feeds h hread hgood rfl⟩,
    exec_errorReport_filed, exec_messageForward_next,
    fun _ => ⟨exec_readTimeout_outstanding, exec_readTimeout_ended⟩,
    fun v hup => ⟨exec_colSelfWrite_safe hup v, exec_colSelfWrite_barred hup v, exec_colTorusWrite_taken hup v,
      exec_colTorusWrite_barred hup v⟩⟩

end Sys2Proof.Laws
end

section
/-!
SUPPORT. The phases of a survey round (R278-R283): what each row comes to in its phase.
-/
namespace Sys2Proof.Laws

open Sys2Proof.Machine

/-! The begin of a sequence (R282, R283) -/

section
variable {s : State}

/-- A SURVEY that no other one precedes is the command of the sequence, which it starts or joins, and waits for its end. -/
theorem exec_survey {q : Fin 16} {c : Cmd} {b b1 : State}
    (h : s.Starts 0x18 q [lifeSafe, lifeLoaded, lifeArmed, lifeLive, lifeDraining, lifeReplay] c) (hsub : c.sub = 0)
    (hb : s.begun q c = b) (h1 : { b with survey := { b.survey with cmds := [c.id] } } = b1) (hnone : b.survey.cmds = []) :
    exec (.survey q) s = done ((if b.survey.phase = 0 then b1.startSequence else b1).wait c.id) := by
  subst h1
  change execSurvey q s = _
  rw [execSurvey, command_starts h, hb, if_neg (by simp [hsub]), if_neg (by simp [hnone])]

theorem exec_surveyHoldoffEnd_starts (hoff : s.survey.holdoff = true) (hphase : s.survey.phase = 0) (hup : s.up = true)
    (hboot : s.life ≠ lifeBoot) (hfault : s.life ≠ lifeFault) : exec .surveyHoldoffEnd s =
    done (State.startSequence { s with survey := { s.survey with holdoff := false } }) :=
  congrArg done ((if_neg (by simp [hoff, hphase])).trans (if_neg (by simp [hup, hboot, hfault])))

/-! Settle and walk (R278, R279): `t` is the state of the next phase -/

theorem exec_surveySettleEnd {t : State} (h : s.survey.phase = 1)
    (ht : { s with survey := { s.survey with phase := 2, changes := s.portChanges } } = t) : exec .surveySettleEnd s =
    done (t.asked.foldl (fun s i => s.sendMgmt i .identityRequest) t) := by
  subst ht
  exact congrArg done (if_neg (by simp [h]))

theorem exec_surveyWalkEnd {t : State} (h : s.survey.phase = 2) (ht : { s with survey := { s.survey with phase := 3 } } = t) :
    exec .surveyWalkEnd s = done (t.replied.foldl (fun s i => s.sendMgmt i .changeRequest) t) := by
  subst ht
  exact congrArg done (if_neg (by simp [h]))

theorem exec_identityRequest (i : Fin 512) (change : Bool) (h : s.up = true) : exec (.identityRequest i change) s =
    done ((s.takeMgmt i).sendMgmt i (if change then .changeReply s.changeSum else .identityReply s.ownEntry)) :=
  congrArg done (if_neg (by simp [h]))

end

/-! Replies of a package that is asked: `t` is the state in which the message has been taken -/

section
variable {s t : State} {i : Fin 512} (ws : List Word) (ht : s.takeMgmt i = t) (hasked : t.asked.contains i.val = true)
include ht hasked

theorem exec_identityReply_walk (hphase : t.survey.phase = 2) : exec (.identityReply i false ws) s =
    done { t with survey := { t.survey with replies := tset (fun _ => none) t.survey.replies i (some ws) } } := by
  subst ht
  exact congrArg done ((if_neg (by rw [hasked]; decide)).trans (if_pos (by simp [hphase])))

theorem exec_identityReply_confirm (hphase : t.survey.phase = 3) (hreplied : (t.walkReply i).isSome = true) :
    exec (.identityReply i true ws) s = done { t with survey := { t.survey with
      confirms := tset (fun _ => none) t.survey.confirms i (some (bits (ws.headD 0).toNat 0 16)) } } := by
  subst ht
  exact congrArg done ((if_neg (by rw [hasked]; decide)).trans ((if_neg (by simp)).trans (if_pos (by simp [hphase, hreplied]))))

end

/-! The end of confirmation (R280-R282) -/

section
variable {s : State} (hphase : s.survey.phase = 3)
include hphase

theorem exec_surveyConfirmEnd_stable (h : s.unstable = false) : exec .surveyConfirmEnd s =
    done ((s.publish.setFld F.COL_SURVEY_STAT.unstable_run 0).endSequence stOk) :=
  congrArg done ((if_neg (by simp [hphase])).trans (if_pos (by simp [h])))

/-- What follows an unstable round, in the state `t` in which it has been counted. -/
theorem exec_surveyConfirmEnd_unstable {t : State} (h : s.unstable = true) (ht : s.satInc F.COL_SURVEY_STAT.unstable_run = t) :
    exec .surveyConfirmEnd s = done
      (if 8 ≤ t.fld F.COL_SURVEY_STAT.unstable_run then (t.raise F.COL_SURVEY_STAT.unstable).endSequence stSurveyUnstable
      else if t.surveyCancelled then t.endSequence stAborted
      else t.startRound) := by
  subst ht
  exact congrArg done ((if_neg (by simp [hphase])).trans (if_neg (by simp [h])))

theorem exec_surveyConfirmEnd_gives_up (h : s.unstable = true) {t : State} (ht : s.satInc F.COL_SURVEY_STAT.unstable_run = t)
    (hrun : 8 ≤ t.fld F.COL_SURVEY_STAT.unstable_run) : exec .surveyConfirmEnd s =
    done ((t.raise F.COL_SURVEY_STAT.unstable).endSequence stSurveyUnstable) := by
  rw [exec_surveyConfirmEnd_unstable hphase h ht, if_pos hrun]

theorem exec_surveyConfirmEnd_again (h : s.unstable = true) {t : State} (ht : s.satInc F.COL_SURVEY_STAT.unstable_run = t)
    (hrun : t.fld F.COL_SURVEY_STAT.unstable_run < 8) (hgo : t.surveyCancelled = false) :
    exec .surveyConfirmEnd s = done t.startRound := by
  rw [exec_surveyConfirmEnd_unstable hphase h ht, if_neg (Nat.not_le.mpr hrun), if_neg (by simp [hgo])]

end

/-- Settles O45: one lemma for each row, and for each way in which confirmation ends. -/
theorem surveyRoundsRun : Obligations.SurveyRoundsRun := fun _ _ _ i ws =>
  ⟨fun h hsub => exec_survey h hsub rfl rfl, exec_surveyHoldoffEnd_starts, fun h => exec_surveySettleEnd h rfl,
    ⟨fun hup => ⟨exec_identityRequest i true hup, exec_identityRequest i false hup⟩,
      exec_identityReply_walk ws rfl, exec_identityReply_confirm ws rfl⟩,
    fun h => exec_surveyWalkEnd h rfl,
    fun h => ⟨exec_surveyConfirmEnd_stable h,
      fun hu => ⟨exec_surveyConfirmEnd_gives_up h hu rfl, exec_surveyConfirmEnd_again h hu rfl⟩⟩⟩

end Sys2Proof.Laws
end

section
/-!
SUPPORT. Groups (R289-R295, R342-R344): what each row of a roll call comes to, and a FORM_GROUP, a GRAFT_GROUP and a RETIRE_GROUP
that is accepted.
-/
namespace Sys2Proof.Laws

open Sys2Proof.Machine

/-! Commands that are accepted: `b` is the state in which the command has begun, `k` the group that it names -/

section
variable {s b : State} {q : Fin 16} {c : Cmd} {k : Nat} (hb : s.begun q c = b) (hk : bits (c.w 0) 0 6 = k)
include hb hk

/-- A FORM_GROUP takes a channel, makes its group FORMING, and starts the roll call (R290, R291). -/
theorem exec_formGroup_accepted (h : s.Starts 0x19 q [lifeLoaded, lifeArmed, lifeLive, lifeReplay] c) (hsub : c.sub = 0)
    (honly : c.only [0x3F, 0xFFFF, 0] = true) (htime : c.w 1 ≠ 0)
    (hst : b.fld (brState k) = grRetired ∨ b.fld (brState k) = grAborted) (hmem : b.isMember k = true) {v : Nat} {t : State}
    (hvc : b.takeVc k = some (v, t)) (hreach : (b.members k).find? (fun m => b.topoWord m % 4 != 3) = none) :
    exec (.formGroup q) s = done (((((t.setGroup k { t.group k with
      prior := b.fld (brState k), cmd := c.id, sentOutcome := false, graft := none }).setGroupState k grForming).dropHeldAborts
      k).wait c.id).startRoll k) := by
  change execFormGroup q s = _
  rw [execFormGroup, command_starts h, hb]
  dsimp only
  rw [hk, if_neg (by simp [hsub, honly, htime]), if_neg (by obtain hst | hst := hst <;> simp [hst]), if_neg (by simp [hmem]), hvc]
  dsimp only
  rw [hreach]

/-- A GRAFT_GROUP makes its group GRAFTING without the member `f`, whose variant is `x`, and starts the roll call of the survivors
(R342, R343). -/
theorem exec_graftGroup_accepted {f : Nat} (hf : bits (c.w 0) 16 9 = f) (h : s.Starts 0x1A q [lifeLoaded, lifeArmed, lifeLive] c)
    (hsub : c.sub = 0) (honly : c.only [0x01FF003F, full, 0xFFFF] = true) (htime : c.w 2 ≠ 0) (hst : b.fld (brState k) = grAborted)
    {x : Variant} (hx : b.variant k f = some x) (hfits : b.variantFits x = true) (hmem : (b.members k).contains f = true)
    (hself : f ≠ b.self) (horbit : b.time.orbit + 1 < c.w 1) (hswitch : b.switchPending = false)
    (hidle : (List.range 64).any (fun k => b.fld (brState k) == grGrafting) = false) {s1 s2 : State}
    (h1 : (b.setGroup k { b.group k with
      cmd := c.id, sentOutcome := false, graft := some ⟨x.bitmap, f, x.menu, c.w 1, none⟩ }).setGroupState k grGrafting = s1)
    (h2 : ((s1.setFld F.COL_GRAFT_STAT.group k).setFld F.COL_GRAFT_STAT.omitted f).raise F.COL_GRAFT_STAT.pending = s2) :
    exec (.graftGroup q) s = done ((((s2.setFld F.COL_GRAFT_STAT.orbit (c.w 1)).dropHeldAborts k).wait c.id).startRoll k) := by
  change execGraftGroup q s = _
  rw [execGraftGroup, command_starts h, hb]
  dsimp only
  rw [hk, hf, hx, if_neg (by simp [hsub, honly, htime]), if_neg (by simp [hst, hfits]),
    if_neg (by rw [hmem]; simp [hself, horbit]), if_neg (by rw [hswitch, hidle]; decide)]
  dsimp only
  rw [h1, h2]

/-- A RETIRE_GROUP retires its group and lets go of its channel (R295). -/
theorem exec_retireGroup_accepted (h : s.Starts 0x1B q [lifeLoaded, lifeArmed, lifeLive, lifeDraining, lifeReplay, lifeFault] c)
    (hsub : c.sub = 0) (honly : c.only [0x3F] = true) (hruns : b.coll.runs.any (fun r => r.group == k && r.open) = false)
    (hst : b.fld (brState k) = grReady ∨ b.fld (brState k) = grAborted) (hfree : (b.life == lifeLive && b.groupInUse k) = false) :
    exec (.retireGroup q) s = done (((b.setGroupState k grRetired).releaseVc k).finish c.id stOk []) := by
  change execRetireGroup q s = _
  rw [execRetireGroup, command_starts h, hb]
  dsimp only
  rw [hk, if_neg (by simp [hsub, honly]), if_neg (by rw [hruns]; decide), hfree,
    if_neg (by obtain hst | hst := hst <;> rw [hst] <;> decide)]

end

/-! Roll calls (R291-R293) -/

section
variable {s : State} {g : Fin 64}

theorem exec_rollCallRecord (h : s.up = true) (i : Fin 512) (im fw st en dm ep pa : Nat) :
    exec (.rollCallRecord i g im fw st en dm ep pa) s =
      done (((s.takeMgmt i).keepRecord g i ⟨im, fw, st, en, dm, ep, s.time.spool, pa⟩).judgeRoll g) :=
  congrArg done (if_neg (by simp [h]))

theorem exec_rollCallTimeout_missing {m : Nat} (hcaller : s.callerOf g = s.self) (hcall : s.calling g = true)
    (hsent : (s.group g).sentOutcome = false) (hm : (s.party g).find? (fun m => (s.recordOf g m).isNone) = some m) :
    exec (.rollCallTimeout g) s = done (s.sendOutcome g 2 0 m 0) := by
  change execRollCallTimeout g s = _
  rw [execRollCallTimeout, if_neg (by simp [hcaller, hcall, hsent]), hm]

/-- The outcome is applied in the state `t` in which its message has been taken. -/
theorem exec_rollCallOutcome_member {t : State} (ht : s.takeMgmt (s.callerOf g) = t) (hcaller : t.callerOf g ≠ t.self)
    (hcall : t.calling g = true) (kd : Fin 3) (f : Fin 6) (m : Fin 512) (e : BitVec 16) :
    exec (.rollCallOutcome g kd f m e) s = done (t.applyOutcome g kd f m e.toNat) := by
  subst ht
  exact congrArg done (if_neg (by simp [hcaller, hcall]))

theorem exec_formGroupTimeout_member (hcaller : s.callerOf g ≠ s.self) (hcall : s.calling g = true) :
    exec (.formGroupTimeout g) s = done (s.failGroup g stGroupTimeout 0 (s.callerOf g)) :=
  congrArg done (if_neg (by simp [hcaller, hcall]))

theorem exec_graftApply_due {j : Nat} {x : Graft} {e : Nat} (h : s.dueGraft = some (j, x, e)) :
    exec .graftApply s = done (s.applyGraft j x e) := by
  change execGraftApply s = _
  rw [execGraftApply, h]

end

/-- Settles O46: one lemma for each row. -/
theorem groupsFormAndRetire : Obligations.GroupsFormAndRetire := fun _ _ _ _ =>
  ⟨fun h hsub honly htime hst hmem _ _ => exec_formGroup_accepted rfl rfl h hsub honly htime hst hmem,
    fun i im fw st en dm ep pa hup => exec_rollCallRecord hup i im fw st en dm ep pa,
    fun _ => exec_rollCallTimeout_missing, exec_rollCallOutcome_member rfl, exec_formGroupTimeout_member,
    fun h hsub honly htime hst _ hx hfits hmem hself horbit hswitch hidle =>
      exec_graftGroup_accepted rfl rfl rfl h hsub honly htime hst hx hfits hmem hself horbit hswitch hidle rfl rfl,
    fun _ _ _ => exec_graftApply_due, exec_retireGroup_accepted rfl rfl⟩

end Sys2Proof.Laws
end

section
/-!
SUPPORT. The front command, and the interrupt controller after a step (R494, R497, R498): every row ends by settling, and a
settled state meets the invariant.
-/
namespace Sys2Proof.Laws

open Sys2Proof.Machine

/-! Settling -/

/-- Whether a source acts as level is decided by the registers alone. -/
theorem levelSource_regs {s t : State} (h : t.regs = s.regs) (x : Nat) : t.levelSource x = s.levelSource x := by
  unfold State.levelSource State.bit State.fld State.reg
  rw [h]

theorem inMap_nextPend (c : Intc) (edge o : BitVec 256) {x : Nat} (hx : x < 256) : inMap (nextPend c edge o) x =
    (!inMap edge x && !inMap c.active x && (inMap o x || inMap c.soft x) || !inMap edge x && inMap c.active x && inMap c.pend x ||
      inMap edge x && (inMap c.pend x || inMap o x && !inMap c.origin x)) := by
  simp [nextPend, inMap_getLsbD, hx]

/-- A level source that is not in service is pending, once pending has followed, by its origin or by software (R494, R496). -/
theorem pend_followed {s : State} {x : Nat} (hl : s.levelSource x = true) (ha : inMap s.intc.active x = false) :
    inMap (followed s).pend x = (s.origin x || inMap s.intc.soft x) := by
  simp only [State.levelSource, Bool.and_eq_true, decide_eq_true_eq, Bool.not_eq_true'] at hl
  obtain ⟨⟨⟨h1, h2⟩, hpulse⟩, hmode⟩ := hl
  have hedge : inMap s.edgeMap x = false := by simp [State.edgeMap, inMap_sourceMap _ x h1 h2, hpulse, hmode]
  have horigin : inMap s.origins x = s.origin x := inMap_sourceMap s.origin x h1 h2
  simp [followed, inMap_nextPend s.intc _ _ h2, hedge, horigin, ha]

/-- Each target remembers what its signalling put there: the later writes of the four are of other targets. -/
theorem tget_fourTargets {α : Type} [DecidableEq α] (d : Nat → α) (t : Tbl α) (f : Nat → α) {k : Nat} (hk : k < 4) :
    tget d (tset d (tset d (tset d (tset d t 0 (f 0)) 1 (f 1)) 2 (f 2)) 3 (f 3)) k = f k := by
  have hcases : k = 0 ∨ k = 1 ∨ k = 2 ∨ k = 3 := by omega
  rcases hcases with rfl | rfl | rfl | rfl <;> simp [tget_tset_ne]

/-- Settling brings the controller to where it follows the state. -/
theorem intSettled_settleWith (s : State) (e : Option Nat) : (s.settleWith e).IntSettled := by
  have hregs : (s.settleWith e).regs = s.regs := rfl
  have hintc : (s.settleWith e).intc = _ := settledInts_intc s e
  constructor
  · intro x hl ha
    rw [levelSource_regs hregs] at hl
    rw [hintc] at ha
    rw [hintc, origin_regs hregs]
    exact pend_followed hl ha
  · intro k hk
    rw [bestOf_regs hregs, hintc, bestOf_best]
    exact tget_fourTargets _ _ (fun k => (s.bestOf (followed s) k).2) hk

/-! Every row settles -/

theorem execIntEoi_settles (k : Fin 4) (v : Word) (s : State) : ∃ t e, exec (.intEoi k v) s = .next (State.settleWith t e) := by
  cases hup : s.up with
  | true => exact ⟨_, _, if_pos hup⟩
  | false => exact ⟨s, none, if_neg (by simp [hup])⟩

/-- Every row answers with a settled state; INT_EOI tells settling which target's EOI came (R507), no other row does. -/
theorem exec_settles (c : Instr) (s : State) : ∃ t e, exec c s = .next (State.settleWith t e) := by
  cases c with
  | intEoi k v => exact execIntEoi_settles k v s
  | _ => exact ⟨_, none, rfl⟩

theorem exec_intSettled (c : Instr) (s : State) : ∃ t, exec c s = .next t ∧ t.IntSettled := by
  obtain ⟨t, e, h⟩ := exec_settles c s
  exact ⟨_, h, intSettled_settleWith t e⟩

theorem step_intSettled {s t : State} (h : step s = .next t) : t.IntSettled := by
  unfold step at h
  split at h
  · next c rest _ =>
    obtain ⟨u, hu, hsettled⟩ := exec_intSettled c { s with pending := rest }
    cases hu.symm.trans h
    exact hsettled
  · cases h
    exact intSettled_settleWith _ none

/-! The statements -/

/-- Settles O4: whatever a row does first, it ends by settling, which makes the invariant hold. -/
theorem everyStepLeavesInterruptsSettled : Obligations.EveryStepLeavesInterruptsSettled :=
  ⟨fun _ _ => step_intSettled, exec_intSettled⟩

/-- Settles O3: settling is given by its two fields, and the registers are not among them. -/
theorem settleTouchesInterruptsOnly : Obligations.SettleTouchesInterruptsOnly :=
  fun s e => ⟨rfl, reg_settleWith s e⟩

/-- Settles O1: the step is a case split on the queue, and the table of spelled commands is empty. -/
theorem stepRunsTheFrontCommand : Obligations.StepRunsTheFrontCommand :=
  ⟨fun _ _ _ => rfl, fun _ _ _ => ⟨rfl, rfl⟩⟩

end Sys2Proof.Laws
end

section
/-!
SUPPORT. Accesses that BAR0 and BAR2 do not perform (R408, R409): what each form of one comes to, and what counting one shows.
-/
namespace Sys2Proof.Laws

open Sys2Proof.Machine

theorem accessFits_four {off : Nat} (h : off % 4 = 0) : accessFits off 4 = true := by simp [accessFits, h]

theorem accessFits_eight {off : Nat} (h : off % 8 = 0) : accessFits off 8 = true := by simp [accessFits, h]

/-! Counting the words that reach no register -/

theorem countUnassigned_unassigned (s : State) {o : Nat} (os : List Nat) (hlt : o < 0x2000000) (hf : RegMap.find o = none) :
    s.countUnassigned (o :: os) = (s.accessError o).countUnassigned os := by
  simp [State.countUnassigned, hlt, hf]

theorem countUnassigned_assigned (s : State) {o : Nat} (os : List Nat) (hf : (RegMap.find o).isSome = true) :
    s.countUnassigned (o :: os) = s.countUnassigned os := by
  simp [State.countUnassigned, Option.isSome_iff_ne_none.mp hf]

/-! The row: `r` is the state in which a read has answered 0 -/

section
variable {b : Bar} {off bytes : Nat} {w : Bool} {s r : State} (hr : (if w then s else { s with rdata := 0 }) = r)
include hr

theorem exec_badAccess_down (h : s.up = false) : exec (.badAccess b off bytes w) s = done r :=
  hr ▸ congrArg done (if_pos (by simp [h]))

theorem exec_badAccess_misfit (hup : s.up = true) (h : accessFits off bytes = false) :
    exec (.badAccess b off bytes w) s = done (r.accessError off) :=
  hr ▸ congrArg done ((if_neg (by simp [hup])).trans (if_pos (by simp [h])))

/-- An aligned access of BAR0 whose first word reaches no register counts each such word. -/
theorem exec_badAccess_unassigned (hup : s.up = true) (hb : b = .bar0) (hfit : accessFits off bytes = true) (hlt : off < 0x2000000)
    (hf : RegMap.find off = none) : exec (.badAccess b off bytes w) s = done (r.countUnassigned (accessWords off bytes)) := by
  have hany : (accessWords off bytes).any (fun o => o < 0x2000000 && (RegMap.find o).isNone) = true := by
    cases h8 : bytes == 8 <;> simp [accessWords, h8, hlt, hf]
  exact hr ▸ congrArg done ((if_neg (by simp [hup])).trans ((if_neg (by simp [hfit])).trans (if_pos (by simp [hb, hany]))))

end

/-! What is shown -/

theorem accessError_seen (s : State) (o : Nat) : (s.accessError o).fld F.HUB_ACC_ERR.seen = 1 :=
  (fld_setFld_off _ _ _ o (by decide)).trans (fld_raise_same _ (by unfold Fits; decide) (by decide))

theorem accessError_count (s : State) (o : Nat) :
    (s.accessError o).fld F.HUB_ACC_ERR.count = min (s.fld F.HUB_ACC_ERR.count + 1) 65535 :=
  calc (s.accessError o).fld F.HUB_ACC_ERR.count
    _ = ((s.satInc F.HUB_ACC_ERR.count).raise F.HUB_ACC_ERR.seen).fld F.HUB_ACC_ERR.count :=
      fld_setFld_off _ _ _ o (by decide)
    _ = (s.satInc F.HUB_ACC_ERR.count).fld F.HUB_ACC_ERR.count :=
      fld_setFld_beside _ _ _ (by unfold Fits; decide) 1 (by decide)
    _ = min (s.fld F.HUB_ACC_ERR.count + 1) 65535 := fld_satInc_same s (by unfold Fits; decide)

/-- Settles O9: the checks of the row in their order, then the words of an aligned access one by one. -/
theorem badAccessesCount : Obligations.BadAccessesCount := by
  intro b off bytes w s r
  refine ⟨exec_badAccess_misfit rfl, fun hup hb hlt hf => ⟨fun h4 => ?_, fun h8 hf' => ?_, fun h8 hf' => ?_⟩,
    exec_badAccess_down rfl, fun o => ⟨accessError_seen s o, accessError_count s o⟩⟩
  · rw [exec_badAccess_unassigned rfl hup hb (accessFits_four h4) hlt hf]
    exact congrArg done (countUnassigned_unassigned r [] hlt hf)
  · rw [exec_badAccess_unassigned rfl hup hb (accessFits_eight h8) hlt hf]
    refine congrArg done ((countUnassigned_unassigned r [off + 4] hlt hf).trans ?_)
    exact countUnassigned_unassigned _ [] (by omega) hf'
  · rw [exec_badAccess_unassigned rfl hup hb (accessFits_eight h8) hlt hf]
    refine congrArg done ((countUnassigned_unassigned r [off + 4] hlt hf).trans ?_)
    exact countUnassigned_assigned _ [] hf'

end Sys2Proof.Laws
end

section
/-!
SUPPORT. The data of collectives (R305-R340): what each row comes to while the clock is not stalled (R32, log 55).
-/
namespace Sys2Proof.Laws

open Sys2Proof.Machine

/-! Feeding and sending (R305, R314, R338, R339) -/

/-- Queueing flits shows on the port alone. -/
theorem life_pushFlits (s : State) (p tc : Nat) (fs : List Cargo) : (s.pushFlits p tc fs).life = s.life := by
  have hoff : (F.TTH_PORT_STATE.outstanding p).off ≠ F.HUB_STATE.state.off := by
    simp only [F.TTH_PORT_STATE.outstanding, Reg.TTH_PORT_STATE, F.HUB_STATE.state, Reg.HUB_STATE]
    omega
  exact fld_setFld_off _ _ _ _ hoff

section
variable {s : State} (hs : s.stalled = false)
include hs

/-- A data operand joins the run that still needs rows, or else the last of its event. -/
theorem exec_feedToken_operand {die : Fin 2} {n : Fin 8} {f : Flight} {t : State} {r : Run}
    (h : s.takeFlight (.feed die n) = some (f, t)) (hroom : s.retryFull die = false) (hop : f.tok.operand = true)
    (hr : ((t.feedRuns die n f.tok.ev).find? (fun r => r.feed.length < t.feedNeed r)).or
      (t.feedRuns die n f.tok.ev).getLast? = some r) :
    exec (.feedToken die n) s = done (t.feedRow r f.tok) := by
  change execFeedToken die n s = _
  rw [execFeedToken, unstalled_of_not_stalled hs, h]
  dsimp only
  rw [if_neg (by simp [hroom]), if_pos hop, hr]

theorem exec_chunkSend_next {v : Nat} {r : Run} {c : Chunk} {p : Nat}
    (hv : ((List.range 16).map (fun i => (s.coll.lastServed + 1 + i) % 16)).find? (fun v => (s.sendable v).isSome) = some v)
    (hc : s.sendable v = some (r, c, p)) {t : State}
    (ht : (s.setRun { r with unsent := r.unsent.drop 1, sent := r.sent + 1 }).pushFlits p 1
      (cutFlits 1 false (c.bytes.take 16) c.bytes) = t) :
    exec .chunkSend s = done { t with coll := { t.coll with
      lastServed := v
      retry := if s.life = lifeReplay then t.coll.retry ++ [((s.schedCfg r.entry).die, c)] else t.coll.retry } } := by
  have hlife : t.life = s.life := ht ▸ life_pushFlits _ p 1 _
  change execChunkSend s = _
  rw [execChunkSend, unstalled_of_not_stalled hs, hv]
  dsimp only
  rw [hc]
  dsimp only
  rw [ht, hlife]

/-! Receiving and landing (R309) -/

theorem exec_chunkReceived_next {m : Message} {rest : List Message} (h : s.links.chunks = m :: rest) :
    exec .chunkReceived s = done (State.takeChunk { s with links := { s.links with chunks := rest } } m) := by
  change execChunkReceived s = _
  rw [execChunkReceived, unstalled_of_not_stalled hs, h]

theorem exec_rowLanding_moves {z : Fin 64} {l : LandRow} {rest : List LandRow} {k : Nat} {t : State}
    (h : takeFirst (fun l => l.zone == z.val) s.coll.landing = some (l, rest))
    (ht : State.landRow { s with coll := { s.coll with landing := rest } } l = t) (hk : t.entryOfZone z = some k) :
    exec (.rowLanding z) s = done (t.pump (t.schedCfg k).group) := by
  change execRowLanding z s = _
  rw [execRowLanding, unstalled_of_not_stalled hs, h]
  dsimp only
  rw [ht, hk]

/-! Deadlines and commit ticks (R330, R334): `t` is the state in which chunks that found no place have landed nothing -/

theorem exec_collectiveDeadline_overdue {t : State} {r : Run} (ht : s.settleOver = t)
    (h : t.coll.runs.find? t.deadlineDue = some r) : exec .collectiveDeadline s = done (t.deadlineRun r) := by
  change execCollectiveDeadline s = _
  rw [execCollectiveDeadline, unstalled_of_not_stalled hs, ht, h]

theorem exec_collectiveCommit_due {t : State} {r : Run} (ht : s.settleOver = t)
    (h : t.coll.runs.find? t.commitDue = some r) : exec .collectiveCommit s = done (t.decideRun r) := by
  change execCollectiveCommit s = _
  rw [execCollectiveCommit, unstalled_of_not_stalled hs, ht, h]

/-! Transit holds (R340) -/

theorem exec_transitIdle_held {v : Fin 16} (h : nbit (s.fld F.COL_TRANSIT_MAP.transit) v = true) : exec (.transitIdle v) s =
    done ((((s.lower (F.COL_VC.held v)).lower (F.COL_VC.group v)).setMapBit F.COL_TRANSIT_MAP.transit v false).setVchan v {}) :=
  (unstalled_of_not_stalled hs _).trans (congrArg done (if_pos h))

theorem exec_transitIdle_free {v : Fin 16} (h : nbit (s.fld F.COL_TRANSIT_MAP.transit) v = false) :
    exec (.transitIdle v) s = done s :=
  (unstalled_of_not_stalled hs _).trans (congrArg done (if_neg (by simp [h])))

end

/-! RETRY (R338) -/

/-- Does a RETRY from package `i` name this chunk, which was kept for it? -/
def retryNames (i : Fin 512) (g : Fin 64) (o w : Fin 65536) (e : Nat × Chunk) : Bool :=
  e.2.dst == i.val && e.2.group == g.val && e.2.ordinal == o.val && e.2.row == w.val

/-- The chunk named is sent again, one attempt later; `t` is the state in which the message has been taken. -/
theorem exec_chunkRetry_kept {s t : State} {i : Fin 512} {g : Fin 64} {o w : Fin 65536} {e : Nat × Chunk}
    (ht : s.takeMgmt i = t) (hlife : t.life = lifeReplay) (h : t.coll.retry.find? (retryNames i g o w) = some e) {c : Chunk}
    (hc : { e.2 with attempt := e.2.attempt + 1 } = c) : exec (.chunkRetry i g o w) s =
    done (State.sendChunk { t with coll := { t.coll with
      retry := t.coll.retry.map (fun x => if retryNames i g o w x then (x.1, c) else x) } } c) := by
  subst hc
  have hl : (t.life == lifeReplay) = true := beq_iff_eq.mpr hlife
  change execChunkRetry i g o w s = _
  rw [execChunkRetry, ht]
  dsimp only
  unfold retryNames at h ⊢
  rw [hl, h]

/-- Settles O47: one lemma for each row; the clock stalls every row but that of RETRY. -/
theorem collectivesMoveTheirChunks : Obligations.CollectivesMoveTheirChunks := fun _ _ _ =>
  ⟨fun hs => ⟨fun _ _ _ h hroom hop => exec_feedToken_operand hs h hroom hop,
      fun _ _ _ _ hv hc => exec_chunkSend_next hs hv hc rfl, fun _ _ => exec_chunkReceived_next hs,
      fun _ _ _ _ h => exec_rowLanding_moves hs h rfl, fun _ => exec_collectiveDeadline_overdue hs rfl,
      fun _ => exec_collectiveCommit_due hs rfl, fun _ => ⟨exec_transitIdle_held hs, exec_transitIdle_free hs⟩⟩,
    fun _ _ _ _ _ hlife h => exec_chunkRetry_kept rfl hlife h rfl⟩

end Sys2Proof.Laws
end

section
/-!
SUPPORT. The atlas through the window and the cold frame through BAR4 (R382, R426, R427): what each row comes to, and what a
write of memory bytes leaves alone. The window's offset wraps and is aligned (log 69); a BAR4 write is made or dropped whole
(log 70).
-/
namespace Sys2Proof.Laws

open Sys2Proof.Machine

/-! What a write of memory bytes changes -/

/-- State `t` is state `s` with the bytes `bs` at `a` of the atlas memories. -/
structure HoldsBytes (s t : State) (a : Nat) (bs : List Byte) : Prop where
  same : t.memRead a bs.length = bs
  outside : ∀ x, x < a ∨ a + bs.length ≤ x → t.memRead x 1 = s.memRead x 1
  frame : { t with mem := s.mem } = s

theorem holdsBytes_memWrite (s : State) (a : Nat) (bs : List Byte) : HoldsBytes s (s.memWrite a bs) a bs where
  same := memRead_memWrite s a bs
  outside _ := memRead_memWrite_outside s a bs
  frame := rfl

/-! The window (R427): `a` is the atlas address that the offset names -/

section
variable {off a : Nat} {s : State}
  (ha : (s.reg Reg.HUB_ATLAS_BASE).toNat * 2 ^ 25 + alignDown (off % 0x2000000) = a)

section
variable (hup : s.up = true) (hmem : 0x2000000 ≤ a)
include ha hup hmem

theorem exec_atlasAccess_stores (w : Word) (hw : s.memWritable a = true) :
    exec (.atlasAccess off (.write w)) s = done (s.memWrite a (leBytes 4 w.toNat)) := by
  subst ha
  exact congrArg done ((if_pos hup).trans ((if_neg (Nat.not_lt.mpr hmem)).trans (if_pos hw)))

theorem exec_atlasAccess_refused (w : Word) (hw : s.memWritable a = false) : exec (.atlasAccess off (.write w)) s =
    done (s.accessError (0x2000000 + alignDown (off % 0x2000000))) := by
  subst ha
  exact congrArg done ((if_pos hup).trans ((if_neg (Nat.not_lt.mpr hmem)).trans (if_neg (ne_true_of_eq_false hw))))

/-- A read answers the word of the memory, after its ECC has been counted (R383). -/
theorem exec_atlasAccess_read (found : Option Bool) : exec (.atlasAccess off (.read found)) s =
    done (State.looked { s.readEcc a found with rdata := (s.readEcc a found).atlasWord a }) := by
  subst ha
  exact congrArg done ((if_pos hup).trans (if_neg (Nat.not_lt.mpr hmem)))

end

theorem exec_atlasAccess_write_down (w : Word) (hdown : s.up = false) : exec (.atlasAccess off (.write w)) s = done s :=
  congrArg done (if_neg (by simp [hdown]))

theorem exec_atlasAccess_read_down (found : Option Bool) (hdown : s.up = false) :
    exec (.atlasAccess off (.read found)) s = done { s with rdata := 0 } :=
  congrArg done (if_neg (by simp [hdown]))

end

/-! BAR4 (R382) -/

section
variable {off : Nat} {data : List Byte} {s : State}

theorem exec_bar4Write_down (hdown : s.up = false) : exec (.bar4Write off data) s = done s :=
  congrArg done (if_pos (by simp [hdown]))

theorem exec_bar4Write_stores (hup : s.up = true)
    (hw : ∀ i, i < data.length → off + i < 2 ^ 32 ∧ s.memWritable (cold (off + i)) = true) :
    exec (.bar4Write off data) s = done (s.memWrite (cold off) data) :=
  congrArg done ((if_neg (by simp [hup])).trans (if_pos (by simpa using hw)))

/-- One byte that may not be written drops the write. -/
theorem exec_bar4Write_rejected (hup : s.up = true) (hw : ∃ i, i < data.length ∧ s.memWritable (cold (off + i)) = false) :
    exec (.bar4Write off data) s = done ((s.satInc F.CFM_ECC_STAT.bar4_reject).raise F.CFM_EVT.bar4_reject) := by
  obtain ⟨i, hi, hbar⟩ := hw
  have hall : ¬(List.range data.length).all (fun i => off + i < 2 ^ 32 && s.memWritable (cold (off + i))) = true := by
    intro h
    simpa [hbar] using List.all_eq_true.mp h i (List.mem_range.mpr hi)
  exact congrArg done ((if_neg (by simp [hup])).trans (if_neg hall))

end

/-- Settles O48: one lemma for each row and branch, and `holdsBytes_memWrite` for what a write changes. -/
theorem windowAndBar4ReachTheMemories : Obligations.WindowAndBar4ReachTheMemories := by
  intro off w data s o a
  refine ⟨fun hup hmem => ⟨fun hw => ?_, exec_atlasAccess_refused rfl hup hmem w, exec_atlasAccess_read rfl hup hmem⟩,
    fun hdown => ⟨exec_atlasAccess_write_down w hdown, fun found => exec_atlasAccess_read_down found hdown,
      exec_bar4Write_down hdown⟩,
    fun hup hw => ?_, exec_bar4Write_rejected⟩
  · obtain ⟨hsame, houtside, hframe⟩ := holdsBytes_memWrite s a (leBytes 4 w.toNat)
    rw [length_leBytes] at hsame houtside
    exact ⟨_, exec_atlasAccess_stores rfl hup hmem w hw, hsame, houtside, hframe⟩
  · obtain ⟨hsame, houtside, hframe⟩ := holdsBytes_memWrite s (cold off) data
    exact ⟨_, exec_bar4Write_stores hup hw, hsame, houtside, hframe⟩

end Sys2Proof.Laws
end

section
/-!
SUPPORT. What a command that starts is to its queue: the next one, whatever states its opcode permits (R417, R421, R441).
-/
namespace Sys2Proof.Laws

open Sys2Proof.Machine

/-- What is startable is the next command of its queue. -/
theorem nextOf_of_startable {s : State} {op q : Nat} {c : Cmd} (h : s.startable op q = some c) : s.nextOf q = some c := by
  unfold State.startable State.readyOf at h
  split at h
  · cases h
  · exact (Option.filter_eq_some_iff.mp (Option.filter_eq_some_iff.mp h).1).1

/-- Where one opcode serves two rows, the sub-op tells which row the command that starts is of. -/
theorem nextSub_of_starts {s : State} {op q : Nat} {lives : List Nat} {c : Cmd} (h : s.Starts op q lives c) (n : Nat) :
    s.nextSub q n = (c.sub == n) := by
  simp [State.nextSub, nextOf_of_startable h.next]

/-- A command that starts runs its body, also where the states that permit it depend on its sub-op. -/
theorem command_starts_of {s : State} {op q : Nat} {lives : Cmd → List Nat} {c : Cmd} (h : s.Starts op q (lives c) c)
    (body : Cmd → State → State) : s.command op q lives body = body c (s.begun q c) := by
  rw [← command_starts h body]
  simp only [State.command, h.next]

end Sys2Proof.Laws
end

section
/-!
SUPPORT. The capture's commands and its freeze (R384, R388-R390, R450): what each row comes to where its command is accepted;
`b` is the state in which it has begun.
-/
namespace Sys2Proof.Laws

open Sys2Proof.Machine

/-! CAPTURE_ARM and its sub-ops (R384, R388, R450) -/

section
variable {q : Fin 16} {c : Cmd} {s b : State} (hb : s.begun q c = b) (hread : b.reading = false)
include hb hread

/-- CAPTURE_ARM within its bounds: `t` is the state in which the capture has been armed. -/
theorem exec_captureArm_accepted (h : s.Starts 0x28 q [lifeLoaded, lifeArmed, lifeLive] c) (hsub : c.sub = 0)
    (honly : c.only [0x1FF, 0xFFFFF, 0x303FF] = true) (hlo : 1 ≤ bits (c.w 0) 0 9) (hhi : bits (c.w 0) 0 9 ≤ 336) {t : State}
    (ht : b.armCapture (bits (c.w 0) 0 9) (c.w 1) (c.w 2) = t) :
    exec (.captureArm q) s = done (t.finish c.id stOk t.capWords) := by
  have hlives : armLives c = [lifeLoaded, lifeArmed, lifeLive] := if_pos hsub
  have hrow : (s.nextSub q 1 || s.nextSub q 2) = false := by simp [nextSub_of_starts h, hsub]
  change execCaptureArm q s = _
  rw [execCaptureArm, hrow, if_neg Bool.false_ne_true, command_starts_of (hlives ▸ h), hb]
  dsimp only
  rw [if_neg (by simp [hsub, honly, Nat.not_lt.mpr hlo, Nat.not_lt.mpr hhi]), if_neg (by simp [hread]), ht]

/-- A later sub-op acts on a capture that runs (R450). -/
theorem runningSub_running (h : s.Starts 0x28 q [lifeLoaded, lifeArmed, lifeLive, lifeDraining] c) {n : Nat} (hn : n ≠ 0)
    (hsub : c.sub = n) (hrun : b.capState = capRunning) (act : Cmd → State → State) : s.runningSub q n act = act c b := by
  have hlives : armLives c = [lifeLoaded, lifeArmed, lifeLive, lifeDraining] := if_neg (hsub ▸ hn)
  rw [State.runningSub, if_neg (by simp [nextSub_of_starts h, hsub]), command_starts_of (hlives ▸ h), hb, if_neg (by simp [hsub]),
    if_neg (by simp [hread]), if_neg (by simp [hrun])]

variable (h : s.Starts 0x28 q [lifeLoaded, lifeArmed, lifeLive, lifeDraining] c) (hrun : b.capState = capRunning)
include h hrun

theorem exec_captureFreezeRequest_running (hsub : c.sub = 1) : exec (.captureFreezeRequest q) s =
    done ((b.capCause b.xindex causeFreeze).finish c.id stOk (b.capCause b.xindex causeFreeze).capWords) :=
  congrArg done (runningSub_running hb hread h (by decide) hsub hrun _)

theorem exec_captureDisarm_running (hsub : c.sub = 2) : exec (.captureDisarm q) s =
    done (b.addEffect ⟨b.xindex + 1, c.id, .disarm⟩) :=
  congrArg done (runningSub_running hb hread h (by decide) hsub hrun _)

end

/-! CAPTURE_FREEZE (R388) -/

theorem exec_captureFreeze_due {s : State} (hdue : s.capture.freezeDue = true) (hend : s.time.spool % 32 = 31) :
    exec .captureFreeze s = done s.freeze :=
  congrArg done (if_pos (by simp [hdue, hend]))

/-! CAPTURE_READ (R389) -/

/-- The bytes of ranges, counted one after another, are the sum of their lengths. -/
theorem foldl_lengths (rs : List (Nat × Nat)) : rs.foldl (fun a r => a + r.2) 0 = (rs.map (fun r => r.2)).sum := by
  rw [List.sum_eq_foldl, List.foldl_map]

/-- A frozen capture that holds the records copies them and their side groups, and counts the errors that the reading met;
`rs` are the ranges of the cold frame. -/
theorem exec_captureRead_frozen {q : Fin 16} {c : Cmd} {s b : State} {rs : List (Nat × Nat)} {o m : Nat}
    (hb : s.begun q c = b) (hrs : b.captureRanges (c.w64 0) (c.w 2) = rs) (h : s.Starts 0x29 q notBoot c) (hsub : c.sub = 0)
    (hn : c.w 2 ≠ 0) (hmax : c.w 2 ≤ 344064) (hrange : hostRange (c.w64 3) (rs.map (fun r => r.2)).sum = true)
    (hfrozen : b.capState = capFrozen) (hbusy : b.cmds.any (fun x => x.op == 0x29 && x.stage != .fetched && x.id != c.id) = false)
    (hold : b.capture.oldest = some o) (ho : o ≤ c.w64 0) (hnew : b.capture.newest = some m) (hm : c.w64 0 + c.w 2 ≤ m + 1)
    (hidle : b.engineIn .idle ≠ []) (corrected : Nat) {bad here : List Nat}
    (hhere : bad.filter (fun j => c.w64 0 ≤ j && j < c.w64 0 + c.w 2) = here) :
    exec (.captureRead q corrected bad) s =
      done (((b.startEngine c (coldDescs rs (c.w64 3))).countEcc corrected here.length).markRecords here) := by
  change execCaptureRead q corrected bad s = _
  rw [execCaptureRead, command_starts h, hb]
  dsimp only
  rw [hrs, foldl_lengths, if_neg (by simp [hsub, hn, hrange, Nat.not_lt.mpr hmax]), if_neg (by simp [hfrozen]),
    if_neg (ne_true_of_eq_false hbusy), if_neg (by simp [hold, hnew, ho, hm]), if_neg (by simpa using hidle), hhere]

/-- Settles O50: one lemma for each row; the sub-ops of CAPTURE_ARM share `runningSub_running`. -/
theorem captureIsArmedFrozenAndRead : Obligations.CaptureIsArmedFrozenAndRead := fun _ _ _ =>
  ⟨fun h hsub honly hlo hhi hread => exec_captureArm_accepted rfl hread h hsub honly hlo hhi rfl,
    fun h hread hrun => ⟨exec_captureFreezeRequest_running rfl hread h hrun, exec_captureDisarm_running rfl hread h hrun⟩,
    exec_captureFreeze_due,
    fun corrected _ _ _ h hsub hn hmax hrange hfrozen hbusy hold ho hnew hm hidle =>
      exec_captureRead_frozen rfl rfl h hsub hn hmax hrange hfrozen hbusy hold ho hnew hm hidle corrected rfl⟩

end Sys2Proof.Laws
end

section
/-!
SUPPORT. Entries of the command rings (R416, R417, R419, R420, R442): the checks of steps 3 to 6 in their order, and what an
answer leaves of its command in the table.
-/
namespace Sys2Proof.Laws

open Sys2Proof.Machine

/-! Posting a completion leaves the table of commands -/

theorem writePieces_hub (virt : Bool) (ps : List (Nat × Nat)) : ∀ (s : State) (bs : List Byte),
    (s.writePieces virt ps bs).2.2.hub = s.hub := by
  induction ps with
  | nil => exact fun _ _ => rfl
  | cons p ps ih =>
    intro s bs
    obtain ⟨a, n⟩ := p
    have ht : (if virt then s.translate a true else (.ok a, s)).2.hub = s.hub := by
      split
      · obtain ⟨r, d, h⟩ := translate_frame s a true
        rw [h]
      · rfl
    rw [State.writePieces]
    generalize (if virt then s.translate a true else (.ok a, s)) = x at ht ⊢
    obtain ⟨r, t⟩ := x
    cases r with
    | error f => exact ht
    | ok b =>
      dsimp only
      split
      · exact ht
      · exact (ih _ _).trans ht

theorem ringFault_hub (s : State) (q op seq : Nat) (f : XFault) : (s.ringFault q op seq f).hub = s.hub := by
  obtain ⟨r, h⟩ := recordFault_regs s (s.faultWords { engine := 0xF, queue := q, op := op, seq := seq } f)
  rw [State.ringFault, State.raise_hub, State.raise_hub, h]

@[simp] theorem cmds_setQueue (s : State) (q : Nat) (v : QueueState) : (s.setQueue q v).cmds = s.cmds := rfl

theorem cmds_when_pulse (s : State) (b : Bool) (x : Nat) : (s.when b (fun s => s.pulse x)).cmds = s.cmds := by
  cases b <;> rfl

theorem cmds_of_hub {s t : State} (h : t.hub = s.hub) : t.cmds = s.cmds := by
  rw [State.cmds, State.cmds, h]

theorem cmds_writeCompletion (s : State) (c : Completion) (notify : Bool) : (s.writeCompletion c notify).cmds = s.cmds := by
  unfold State.writeCompletion
  dsimp only
  have hw : ∀ virt a bs, (s.writeHost virt a bs).2.2.hub = s.hub := fun virt a bs => writePieces_hub virt _ s bs
  generalize hx : s.writeHost _ _ _ = x
  have ht : x.2.2.hub = s.hub := hx ▸ hw _ _ _
  obtain ⟨n, f, t⟩ := x
  cases f with
  | some f => exact (cmds_setQueue _ _ _).trans (cmds_of_hub ((ringFault_hub t _ _ _ f).trans ht))
  | none =>
    refine (cmds_when_pulse _ _ _).trans ((cmds_setQueue _ _ _).trans (cmds_of_hub ?_))
    rw [State.setFld_hub, State.setFld_hub]
    exact ht

theorem cmds_post (s : State) (c : Completion) (notify : Bool) : (s.post c notify).cmds = s.cmds := by
  unfold State.post
  split
  · rfl
  · exact cmds_writeCompletion s c notify

/-! Dropping a command -/

/-- Entries of the table whose commands have one number are one entry, where the numbers are distinct. -/
theorem tableEntry_unique {s : State} (h : (s.cmds.map (fun x => x.id)).Nodup) {e e' : Nat × Option Cmd} {x y : Cmd}
    (he : e ∈ s.hub.table) (he' : e' ∈ s.hub.table) (hx : e.2 = some x) (hy : e'.2 = some y) (hid : x.id = y.id) : e = e' := by
  rw [State.cmds, List.Nodup, List.pairwise_map, List.pairwise_filterMap] at h
  have hsymm : Std.Symm (fun e e' : Nat × Option Cmd => ∀ x, e.2 = some x → ∀ y, e'.2 = some y → x.id ≠ y.id) :=
    ⟨fun _ _ hab x hx y hy => (hab y hy x hx).symm⟩
  by_contra hne
  exact h.forall he he' hne x hx y hy hid

theorem mem_cmds {s : State} {x : Cmd} : x ∈ s.cmds ↔ ∃ e ∈ s.hub.table, e.2 = some x := by
  simp [State.cmds]

/-- A number that has no slot is of no command. -/
theorem id_ne_of_slotOf_none {s : State} {id : Nat} (h : s.slotOf id = none) {x : Cmd} (hx : x ∈ s.cmds) : x.id ≠ id := by
  obtain ⟨e, he, hex⟩ := mem_cmds.mp hx
  have := List.find?_eq_none.mp (Option.map_eq_none_iff.mp h) e he
  simpa [hex] using this

/-- The slot of a number is that of an entry whose command has it. -/
theorem slotOf_eq_some {s : State} {id k : Nat} (h : s.slotOf id = some k) :
    ∃ e x, e ∈ s.hub.table ∧ e.2 = some x ∧ x.id = id ∧ e.1 = k := by
  obtain ⟨e, he, hk⟩ := Option.map_eq_some_iff.mp h
  obtain ⟨x, hx, hid⟩ : ∃ x, e.2 = some x ∧ x.id = id := by
    cases hx : e.2 <;> simpa [hx] using List.find?_some he
  exact ⟨e, x, List.mem_of_find?_eq_some he, hx, hid, hk⟩

/-- What is left after a command is dropped was there, and has another number where the numbers are distinct. -/
theorem mem_cmds_dropCmd {s : State} {id : Nat} {x : Cmd} (hx : x ∈ (s.dropCmd id).cmds) :
    x ∈ s.cmds ∧ ((s.cmds.map (fun x => x.id)).Nodup → x.id ≠ id) := by
  cases hk : s.slotOf id with
  | none =>
    simp only [State.dropCmd, hk] at hx
    exact ⟨hx, fun _ => id_ne_of_slotOf_none hk hx⟩
  | some k =>
    obtain ⟨e, y, he, hy, hid, hek⟩ := slotOf_eq_some hk
    obtain ⟨e', he', hx⟩ : ∃ e' ∈ tdel k s.hub.table, e'.2 = some x := by
      simpa [State.dropCmd, hk, mem_cmds, tset, noCmd] using hx
    obtain ⟨he', hne⟩ : e' ∈ s.hub.table ∧ e'.1 ≠ k := by simpa [tdel] using he'
    refine ⟨mem_cmds.mpr ⟨e', he', hx⟩, fun hnodup hxid => hne ?_⟩
    rw [tableEntry_unique hnodup he' he hx hy (hxid.trans hid.symm), hek]

/-! An answer (R420) -/

theorem cmds_when_satInc (s : State) (b : Bool) (f : Fld) : (s.when b (fun s => s.satInc f)).cmds = s.cmds := by
  cases b <;> rfl

theorem cmds_answer (s : State) (c : Cmd) (comp : Completion) : (s.answer c comp).cmds = (s.dropCmd c.id).cmds := by
  rw [State.answer, cmds_post, cmds_when_satInc, cmds_when_satInc]

/-! The checks (R417, R419) -/

section
variable {s : State} {c : Cmd} (qid len : Nat)

section
variable {x : Cmd} (hx : (s.queueCmds c.queue).find? (fun x => x.seq == c.seq && x.id != c.id) = some x)
include hx

/-- A repeat of a command in flight (R419). -/
theorem checkEntry_in_flight_same (h : x.op = c.op ∧ x.digest = c.digest) :
    s.checkEntry c qid len = s.answer c (c.completion stDuplicate 6 [3]) := by
  simp [State.checkEntry, hx, h]

theorem checkEntry_in_flight_differs (h : x.op ≠ c.op ∨ x.digest ≠ c.digest) :
    s.checkEntry c qid len = s.answer c (c.completion stSeqConflict 4 [3]) := by
  have hsame : (x.op == c.op && x.digest == c.digest) = false := by rcases h with h | h <;> simp [h]
  simp [State.checkEntry, hx, hsame]

end

variable (hnone : (s.queueCmds c.queue).find? (fun x => x.seq == c.seq && x.id != c.id) = none)
include hnone

section
variable {e : Stored} (he : (s.queue c.queue).store.find? (fun e => e.comp.seq == c.seq) = some e)
include he

/-- A repeat of a command in the store takes the SQ head of the entry that repeats it (R420, log 166). -/
theorem checkEntry_stored_same (hop : e.comp.op = c.op) (hdigest : e.digest = c.digest) : s.checkEntry c qid len =
    s.answer c { e.comp with flags := setBit e.comp.flags 1, sqHead := c.sqHead } := by
  simp [State.checkEntry, hnone, he, hop, hdigest]

theorem checkEntry_stored_differs (h : e.comp.op ≠ c.op ∨ e.digest ≠ c.digest) :
    s.checkEntry c qid len = s.answer c (c.completion stSeqConflict 4 [3]) := by
  have hsame : (e.comp.op == c.op && e.digest == c.digest) = false := by rcases h with h | h <;> simp [h]
  simp [State.checkEntry, hnone, he, hsame]

end

variable (hfresh : (s.queue c.queue).store.find? (fun e => e.comp.seq == c.seq) = none)
include hfresh

theorem checkEntry_unknown (hop : opInfo c.op (c.w 0) (c.w 1) = none) : s.checkEntry c qid len = s.finish c.id stBadOpcode [4] := by
  simp [State.checkEntry, hnone, hfresh, hop]

/-- An entry that repeats no number, of a known opcode: its queue's id, then its length. -/
theorem checkEntry_known {k : Cls} {r : LenRule} (hop : opInfo c.op (c.w 0) (c.w 1) = some (k, r)) : s.checkEntry c qid len =
    if qid != c.queue then s.finish c.id stParam [5] else if !r.ok len then s.finish c.id stLength [6] else s := by
  simp [State.checkEntry, hnone, hfresh, hop]

end

/-! An inconsistency of the firmware's own, met before the command's first effect (R442, log 157) -/

theorem command_internal {s : State} {op q : Nat} {code : Word} {lives : Cmd → List Nat} {c : Cmd} (h : s.startable op q = some c)
    (hlife : s.lifeIn (lives c) = true) (hrom : s.power.rom = false) (hcode : c.internal = some code)
    (body : Cmd → State → State) :
    s.command op q lives body = (s.begun q c).finish c.id stInternal [code] := by
  obtain ⟨t, d, hb⟩ := begun_touches s q c
  have hlife' : (s.begun q c).lifeIn (lives c) = true := by rw [hb]; exact hlife
  have hrom' : (s.begun q c).power.rom = false := by rw [hb]; exact hrom
  simp [State.command, h, hlife', hrom', hcode]

/-- Settles O54: the checks in their order, one lemma for each way in which they end. -/
theorem entriesRunOnce : Obligations.EntriesRunOnce := by
  intro s c qid len
  refine ⟨fun x hx => ⟨checkEntry_in_flight_same qid len hx, checkEntry_in_flight_differs qid len hx⟩,
    fun hnone => ⟨fun e he => ⟨checkEntry_stored_same qid len hnone he, checkEntry_stored_differs qid len hnone he⟩,
      fun hfresh => ⟨checkEntry_unknown qid len hnone hfresh, fun k r hop => ?_⟩⟩,
    fun op q lives body code x h hlife hrom hcode => command_internal h hlife hrom hcode body, fun comp => ?_⟩
  · rw [checkEntry_known qid len hnone hfresh hop]
    exact ⟨fun hq => by simp [hq], fun hq hlen => by simp [hq, hlen], fun hq hlen => by simp [hq, hlen]⟩
  · rw [cmds_answer]
    exact ⟨fun x hx => (mem_cmds_dropCmd hx).1, fun hnodup x hx => (mem_cmds_dropCmd hx).2 hnodup⟩

end Sys2Proof.Laws
end

section
/-!
SUPPORT. DMA and translation (R443, R454, R465, R468, R473, R477, R478, R482): what each row comes to where its command is
accepted, with `b` the state in which it has begun, and what an engine's chunk and the end of a tag's hold come to.
-/
namespace Sys2Proof.Laws

open Sys2Proof.Machine

@[simp] theorem engine_setEngine_same (s : State) (e : Nat) (v : Engine) : (s.setEngine e v).engine e = v :=
  tget_tset_same _ _ _ _

/-! Commands -/

section
variable {q : Fin 16} {c : Cmd} {s b : State} (hb : s.begun q c = b)
include hb

theorem exec_readState_accepted (h : s.Starts 0x02 q anyLife c) (hsub : c.sub = 0)
    (honly : c.only [full, 0xFF, full, full, full] = true) (ha : c.w64 0 % 4 = 0) (hn4 : c.w 2 % 4 = 0) (hn : c.w 2 ≠ 0)
    (hend : c.w64 0 + c.w 2 ≤ 2 ^ 40) (hrange : hostRange (c.w64 3) (c.w 2) = true) : exec (.readState q) s =
    done (b.startEngine c [⟨.atlas, .hostVirtual, 0, c.w64 0, c.w64 3, c.w 2⟩]) := by
  change execReadState q s = _
  rw [execReadState, command_starts h, hb]
  dsimp only
  rw [if_neg (by simpa [hsub, honly, ha, hn4, hn, hrange] using hend)]

/-- XLAT_INVALIDATE drops what it names and waits for the accesses that used it (R473). -/
theorem exec_xlatInvalidate_accepted (h : s.Starts 0x58 q anyLife c) (hsub : c.sub ≤ 1) (honly : c.only [full, full, full] = true)
    (hrange : c.sub = 1 → hostRange (c.w64 0) (c.w 2) = true ∧ c.w 2 ≠ 0) {r : Nat × State}
    (hr : b.dropCached (fun t => c.sub == 0 || t.meets (c.w64 0) (c.w 2)) = r) : exec (.xlatInvalidate q) s =
    done ((r.2.setCmd { c with stage := .running, progress := r.1 }).resume) := by
  have hcases : c.sub = 0 ∨ c.sub = 1 := by omega
  have hvalid : ¬(1 < c.sub || !c.only [full, full, full] || (c.sub == 1 && !hostRange (c.w64 0) (c.w 2))) = true := by
    rcases hcases with h0 | h1
    · simp [h0, honly]
    · simp [h1, honly, (hrange h1).1]
  have hlen : ¬(c.sub = 1 && c.w 2 == 0) = true := by
    rcases hcases with h0 | h1
    · simp [h0]
    · simp [(hrange h1).2]
  change execXlatInvalidate q s = _
  rw [execXlatInvalidate, command_starts h, hb]
  dsimp only
  rw [if_neg hvalid, if_neg hlen, hr]

/-- A DMA sub-op acts on the FAULTED engine that it names (R477, R478). -/
theorem dmaSub_faulted (h : s.Starts 0x68 q anyLife c) (hsub : c.sub ≤ 1) (honly : c.only [7] = true)
    (hmode : (b.engine (bits (c.w 0) 0 3)).mode = .faulted) (act : Cmd → Nat → State → State) :
    s.dmaSub q act = act c (bits (c.w 0) 0 3) b := by
  rw [State.dmaSub, command_starts h, hb]
  dsimp only
  rw [if_neg (by simp [honly, Nat.not_lt.mpr hsub]), if_neg (by simp [hmode])]

variable (h : s.Starts 0x68 q anyLife c) (honly : c.only [7] = true) {e : Nat} (he : bits (c.w 0) 0 3 = e)
  (hmode : (b.engine e).mode = .faulted)
include h honly he hmode

theorem exec_dmaResume_faulted (hsub : c.sub = 0) {t : State} (ht : b.setEngine e { b.engine e with mode := .running } = t) :
    exec (.dmaResume q) s = done ((t.stage (b.engine e).cmd .running).finish c.id stOk []) := by
  have hcmd : (t.engine e).cmd = (b.engine e).cmd := by rw [← ht, engine_setEngine_same]
  subst he
  change execDmaResume q s = _
  rw [execDmaResume, if_neg (by simp [nextSub_of_starts h, hsub]), dmaSub_faulted hb h (by omega) honly hmode]
  dsimp only
  rw [ht, hcmd]

theorem exec_dmaCancel_faulted (hsub : c.sub = 1) {t : State} (ht : b.finish c.id stOk [] = t) {d : Cmd}
    (hd : t.cmd (t.engine e).cmd = some d) : exec (.dmaCancel q) s = done (t.endEarly d stFaultXlat) := by
  subst he
  change execDmaCancel q s = _
  rw [execDmaCancel, if_neg (by simp [nextSub_of_starts h, hsub]), dmaSub_faulted hb h (by omega) honly hmode]
  dsimp only
  rw [ht, hd]

end

/-- What has been cached since goes too, and the command completes with the number dropped (R473, log 84). -/
theorem exec_xlatInvalidateDone_found {q : Fin 16} {s : State} {x : Cmd} {r : Nat × State}
    (hx : (s.queueCmds q).find? (fun c => c.op == 0x58 && c.stage == .running) = some x)
    (hr : s.dropCached (fun t => x.sub == 0 || t.meets (x.w64 0) (x.w 2)) = r) : exec (.xlatInvalidateDone q) s =
    done (r.2.finish x.id stOk [BitVec.ofNat 32 (x.progress + r.1)]) := by
  change execXlatInvalidateDone q s = _
  rw [execXlatInvalidateDone, hx]
  dsimp only
  rw [hr]

/-! Chunks, whose reading of the cold frame takes a free number of corrected errors (log 158), and tags -/

section
variable {s : State} {e : Fin 8}

theorem exec_dmaChunk_moves (hmode : (s.engine e).mode = .running) (hwait : (s.engine e).dataWait = false) :
    exec (.dmaChunk e) s = done ((s.when (s.readsCold e) (fun s => s.corrected 512)).runChunk e) :=
  congrArg done (if_pos (by simp [hmode, hwait]))

theorem exec_dmaChunk_stands (hmode : (s.engine e).mode ≠ .running) : exec (.dmaChunk e) s = done s :=
  congrArg done (if_neg (by simp [hmode]))

end

/-- Does engine `e` wait for this tag with a remote write (R482)? -/
def writeWaits (s : State) (tag : Fin 4096) (e : Nat) : Bool :=
  (s.engine e).waitTag == some tag.val && (s.engine e).desc.any (fun d => d.dstKind == .remote)

section
variable {s t : State} {tag : Fin 4096} (ht : s.setTagEntry tag { s.tagEntry tag with held := false } = t)
include ht

theorem exec_tagHoldExpiry_free (h : (t.engineIn .running).find? (writeWaits t tag) = none) :
    exec (.tagHoldExpiry tag) s = done t := by
  change execTagHoldExpiry tag s = _
  unfold writeWaits at h
  rw [execTagHoldExpiry, ht, h]

theorem exec_tagHoldExpiry_goes_on {e : Nat} (h : (t.engineIn .running).find? (writeWaits t tag) = some e) :
    exec (.tagHoldExpiry tag) s = done (t.runChunk e) := by
  change execTagHoldExpiry tag s = _
  unfold writeWaits at h
  rw [execTagHoldExpiry, ht, h]

end

/-- Settles O57: one lemma for each row; DMA_RESUME and DMA_CANCEL share `dmaSub_faulted`. -/
theorem dmaCommandsAndChunks : Obligations.DmaCommandsAndChunks := fun _ _ _ =>
  ⟨exec_readState_accepted rfl,
    fun h hsub honly hrange => exec_xlatInvalidate_accepted rfl h hsub honly hrange rfl,
    fun _ hx => exec_xlatInvalidateDone_found hx rfl,
    fun h honly hmode => ⟨fun hsub => exec_dmaResume_faulted rfl h honly rfl hmode hsub rfl,
      fun hsub _ => exec_dmaCancel_faulted rfl h honly rfl hmode hsub rfl⟩,
    fun _ => ⟨exec_dmaChunk_moves, exec_dmaChunk_stands⟩,
    fun _ => ⟨exec_tagHoldExpiry_free rfl, fun _ => exec_tagHoldExpiry_goes_on rfl⟩⟩

end Sys2Proof.Laws
end

section
/-!
SUPPORT. Flash and power (R452, R532-R546): what each row comes to in each of its cases, with `b` the state in which a command has
begun.
-/
namespace Sys2Proof.Laws

open Sys2Proof.Machine

/-! Flash (R452, R538) -/

section
variable {q : Fin 16} {c : Cmd} {s b : State} (hb : s.begun q c = b)
include hb

/-- A STORE whose data has been read, in state `t`, starts its ballast check at its target, or at the next place of the ledger. -/
theorem exec_store_accepted {data : List Byte} {t : State} (h : s.Starts 0x40 q (flashLives c) c) (hsub : c.sub ≤ 3)
    (hrange : hostRange (c.w64 0) (c.w 2) = true) (hn : c.w 2 ≠ 0) (hmax : c.w 2 ≤ storeMax c.sub) (hfree : b.flashBusy = false)
    (hread : b.readHost true (c.w64 0) (c.w 2) = (data, none, t)) : exec (.store q) s =
    done (t.startFlash c ⟨c.id, false, c.sub, if c.sub = 3 then (t.fld F.PWR_LDG_SEQ.seq + 1) % 2 ^ 32 else (flashTarget c.sub).1,
      c.w 2, data, false, false, false⟩ (c.w 3)) := by
  change execStore q s = _
  rw [execStore, command_starts_of h, hb]
  dsimp only
  rw [if_neg (by simp [hrange, Nat.not_lt.mpr hsub]), if_neg (by simp [hn, Nat.not_lt.mpr hmax]), if_neg (by simp [hfree]), hread]

theorem exec_erase_accepted (h : s.Starts 0x41 q (flashLives c) c) (hsub : c.sub ≤ 3) (hfree : b.flashBusy = false) :
    exec (.erase q) s = done (b.startFlash c ⟨c.id, true, c.sub, (flashTarget c.sub).1, (flashTarget c.sub).2, [],
      false, false, false⟩ (c.w 0)) := by
  change execErase q s = _
  rw [execErase, command_starts_of h, hb]
  dsimp only
  rw [if_neg (Nat.not_lt.mpr hsub), if_neg (by simp [hfree])]

end

/-! The end of a flash operation: `t` is the state that it leaves -/

section
variable {s t : State} {o : FlashOp} {faults : List (Nat × Byte)} (ho : s.power.flashOp = some o) (hstarted : o.started = true)
  (ht : s.endFlash o faults = t)
include ho hstarted ht

theorem exec_flashOpDone_ends (hwait : t.power.resetWait = none) : exec (.flashOpDone faults) s = done t := by
  change execFlashOpDone faults s = _
  rw [execFlashOpDone, ho]
  dsimp only
  rw [if_neg (by simp [hstarted]), ht, hwait]

/-- A warm reset that waited for it follows (R538). -/
theorem exec_flashOpDone_resets {x : Nat} (hwait : t.power.resetWait = some x) :
    exec (.flashOpDone faults) s = done (t.warmReset x) := by
  change execFlashOpDone faults s = _
  rw [execFlashOpDone, ho]
  dsimp only
  rw [if_neg (by simp [hstarted]), ht, hwait]

end

/-! Domains (R532, R533) -/

/-- What a write of PWR_DOM_CTRL does for domain `n`. -/
def domCtrlStep (v : Word) (s : State) (n : Nat) : State :=
  if (s.switchOf n).getD (s.domOn n) == nbit v.toNat n then s
  else if s.maySwitch n then s.startSwitch n (nbit v.toNat n)
  else s.raise F.PWR_EVT.cfg_err

/-- The domains are written one after another, from PD03 on. -/
theorem writeDomCtrl_eq (s : State) (v : Word) : s.writeDomCtrl v = (List.range' 3 21).foldl (domCtrlStep v) s := by
  rw [List.range'_eq_map_range, List.foldl_map]
  rfl

/-- A domain that is not switching and is written as it stands is left alone. -/
theorem domCtrlStep_same {v : Word} {s : State} {n : Nat} (hidle : s.switchOf n = none) (hv : v.getLsbD n = s.domOn n) :
    domCtrlStep v s n = s :=
  if_pos (by simp [hidle, ← hv, nbit_eq_testBit, BitVec.getLsbD])

/-- One that is off, may switch and is written with 1 begins to switch on. -/
theorem domCtrlStep_on {v : Word} {s : State} {n : Nat} (hidle : s.switchOf n = none) (hmay : s.maySwitch n = true)
    (hv : v.getLsbD n = true) (hoff : s.domOn n = false) : domCtrlStep v s n = s.startSwitch n true := by
  have hbit : nbit v.toNat n = true := (nbit_eq_testBit _ _).trans hv
  rw [domCtrlStep, if_neg (by simp [hidle, hoff, hbit]), if_pos hmay, hbit]

theorem foldl_eq_of_fixed {α β : Type} {f : β → α → β} {b : β} {l : List α} (h : ∀ a ∈ l, f b a = b) :
    l.foldl f b = b := by
  induction l with
  | nil => rfl
  | cons a l ih =>
    rw [List.foldl_cons, h a List.mem_cons_self]
    exact ih fun a ha => h a (List.mem_cons_of_mem _ ha)

theorem startSwitch_on (s : State) (n : Nat) :
    s.startSwitch n true = (s.setMapBit F.PWR_DOM_CTRL.on n true).setSwitch n (some true) := rfl

theorem switchOf_setSwitch_ne (s : State) {n k : Nat} (v : Option Bool) (h : k ≠ n) :
    (s.setSwitch n v).switchOf k = s.switchOf k :=
  tget_tset_ne _ _ _ h.symm

@[simp] theorem fld_setSwitch (s : State) (n : Nat) (v : Option Bool) (f : Fld) : (s.setSwitch n v).fld f = s.fld f := rfl

/-- A domain that begins to switch on shows nowhere else: no other one switches by it, and PWR_DOM_STAT stands. -/
theorem switchOf_startSwitch_on_ne (s : State) {n k : Nat} (h : k ≠ n) : (s.startSwitch n true).switchOf k = s.switchOf k := by
  rw [startSwitch_on, switchOf_setSwitch_ne _ _ h, State.switchOf, State.setMapBit_power, State.switchOf]

theorem domOn_startSwitch_on (s : State) (n k : Nat) : (s.startSwitch n true).domOn k = s.domOn k := by
  rw [startSwitch_on, State.domOn, fld_setSwitch, State.setMapBit, fld_setFld_off _ _ _ _ (by decide), State.domOn]

/-- A write that names one domain to switch on, and every other as it stands. -/
theorem writeDomCtrl_one_on {s : State} {v : Word} {n : Nat} (hlo : 3 ≤ n) (hhi : n < 24) (hmay : s.maySwitch n = true)
    (hidle : s.switchOf n = none) (hv : v.getLsbD n = true) (hoff : s.domOn n = false)
    (hothers : ∀ k, 3 ≤ k → k < 24 → k ≠ n → s.switchOf k = none ∧ v.getLsbD k = s.domOn k) :
    s.writeDomCtrl v = s.startSwitch n true := by
  have hsplit : List.range' 3 21 = List.range' 3 (n - 3) ++ n :: List.range' (n + 1) (23 - n) := by
    obtain ⟨k, rfl⟩ := Nat.exists_eq_add_of_le hlo
    have hlen : 21 = k + (23 - (3 + k) + 1) := by omega
    rw [Nat.add_sub_cancel_left, hlen, ← List.range'_append_1, List.range'_succ]
  have hbefore : ∀ k ∈ List.range' 3 (n - 3), domCtrlStep v s k = s := fun k hk => by
    obtain ⟨h1, h2⟩ := List.mem_range'_1.mp hk
    obtain ⟨hk1, hk2⟩ := hothers k h1 (by omega) (by omega)
    exact domCtrlStep_same hk1 hk2
  have hafter : ∀ k ∈ List.range' (n + 1) (23 - n), domCtrlStep v (s.startSwitch n true) k = s.startSwitch n true := fun k hk => by
    obtain ⟨h1, h2⟩ := List.mem_range'_1.mp hk
    obtain ⟨hk1, hk2⟩ := hothers k (by omega) (by omega) (by omega)
    exact domCtrlStep_same ((switchOf_startSwitch_on_ne s (by omega)).trans hk1) (hk2.trans (domOn_startSwitch_on s n k).symm)
  rw [writeDomCtrl_eq, hsplit, List.foldl_append, foldl_eq_of_fixed hbefore, List.foldl_cons, domCtrlStep_on hidle hmay hv hoff,
    foldl_eq_of_fixed hafter]

theorem nbit_clearBit_same (v i : Nat) : nbit (clearBit v i) i = false := by
  cases h : nbit v i with
  | false => simp [clearBit, h]
  | true =>
    simp only [nbit, Nat.shiftRight_eq_div_pow, beq_iff_eq] at h
    have hle : 2 ^ i * 1 ≤ v := by
      by_contra hlt
      rw [Nat.div_eq_of_lt (by omega)] at h
      omega
    have hdiv : (v - 2 ^ i) / 2 ^ i = v / 2 ^ i - 1 := by simpa using Nat.sub_mul_div v (2 ^ i) 1
    simp only [clearBit, nbit, Nat.shiftRight_eq_div_pow, h]
    simp [hdiv]
    omega

/-- A bit of a map reads 0 once it has been cleared. -/
theorem nbit_setMapBit_false (s : State) (f : Fld) (hf : Fits f) (n : Nat) :
    nbit ((s.setMapBit f n false).fld f) n = false := by
  rw [State.setMapBit, fld_setFld_same s f hf, nbit_eq_testBit, Nat.testBit_mod_two_pow, ← nbit_eq_testBit]
  simp [nbit_clearBit_same]

theorem foldl_invalidTemp (js : List Nat) (s : State) : ∃ p, js.foldl (fun s j => s.invalidTemp j) s = { s with power := p } := by
  induction js generalizing s with
  | nil => exact ⟨_, rfl⟩
  | cons j js ih =>
    obtain ⟨p, hp⟩ := ih (s.invalidTemp j)
    exact ⟨p, hp⟩

/-- A domain that goes off shows, in state `t`, and its sensors are no longer valid. -/
theorem showDomain_off_of_on {s t : State} {n : Nat} (hon : s.domOn n = true)
    (ht : (s.setMapBit F.PWR_DOM_STAT.on n false).raise F.PWR_EVT.domain_change = t) :
    ∃ p, s.showDomain n false = { t with power := p } := by
  obtain ⟨p, hp⟩ := foldl_invalidTemp ((List.range 40).filter (fun j => sensorDomain j == n)) t
  refine ⟨p, ?_⟩
  rw [State.showDomain, if_neg (by simp [hon]), ← hp, ← ht]
  rfl

theorem showDomain_off_of_off {s : State} {n : Nat} (hoff : s.domOn n = false) : s.showDomain n false = s :=
  if_pos (by simp [hoff])

/-- What stands in the registers of a domain that has been shown off. -/
theorem domainOff_shown {s t : State} {n : Nat} (ht : (s.setMapBit F.PWR_DOM_STAT.on n false).raise F.PWR_EVT.domain_change = t) :
    t.domOn n = false ∧ t.life = s.life ∧ t.mem = s.mem ∧ t.time = s.time := by
  subst ht
  refine ⟨?_, (life_setFld _ _ (by decide)).trans (life_setFld s _ (by decide)), ?_, ?_⟩
  · rw [State.domOn, State.raise, fld_setFld_off _ _ _ _ (by decide)]
    exact nbit_setMapBit_false s F.PWR_DOM_STAT.on (by unfold Fits; decide) n
  · rw [State.raise_mem, State.setMapBit_mem]
  · rw [State.raise_time, State.setMapBit_time]

/-- After a domain is shown off it is off, and the lifecycle state, the memories and the time base stand. -/
theorem showDomain_off (s : State) (n : Nat) : (s.showDomain n false).domOn n = false ∧
    (s.showDomain n false).life = s.life ∧ (s.showDomain n false).mem = s.mem ∧ (s.showDomain n false).time = s.time := by
  cases hdom : s.domOn n with
  | false =>
    rw [showDomain_off_of_off hdom]
    exact ⟨hdom, rfl, rfl, rfl⟩
  | true =>
    obtain ⟨t, ht⟩ : ∃ t, (s.setMapBit F.PWR_DOM_STAT.on n false).raise F.PWR_EVT.domain_change = t := ⟨_, rfl⟩
    obtain ⟨p, hp⟩ := showDomain_off_of_on hdom ht
    obtain ⟨hoff, hlife, hmem, htime⟩ := domainOff_shown ht
    rw [hp]
    exact ⟨hoff, hlife, hmem, htime⟩

section
variable {d : Fin 24} {s : State}

theorem exec_domainSwitchDone_none (h : s.switchOf d = none) : exec (.domainSwitchDone d) s = done s := by
  change done (s.endSwitch d) = _
  rw [State.endSwitch, h]

theorem exec_domainSwitchDone_on (h : s.switchOf d = some true) :
    exec (.domainSwitchDone d) s = done ((s.setSwitch d none).gainDomain d) := by
  change done (s.endSwitch d) = _
  rw [State.endSwitch, h]

theorem exec_domainSwitchDone_off (h : s.switchOf d = some false) :
    exec (.domainSwitchDone d) s = done ((s.setSwitch d none).showDomain d false) := by
  change done (s.endSwitch d) = _
  rw [State.endSwitch, h]

end

theorem exec_pwrDomCtrlWrite_up {s : State} (v : Word) (hup : s.up = true) :
    exec (.pwrDomCtrlWrite v) s = done (s.writeDomCtrl v) :=
  congrArg done (if_neg (by simp [hup]))

/-! Supplies (R534, R536, log 161) -/

/-- Does the voltage lie in the window of its rail, the ends included? -/
def Inside (s : State) (rail : Fin 16) (mv : BitVec 16) : Prop :=
  (s.railWindow rail).1 ≤ mv.toNat ∧ mv.toNat ≤ (s.railWindow rail).2

theorem inRail_iff (s : State) (rail : Fin 16) (mv : BitVec 16) : s.inRail rail mv.toNat = true ↔ Inside s rail mv := by
  simp [State.inRail, Inside]

section
variable {s : State} {rail : Fin 16} {mv : BitVec 16}

section
variable (hused : s.railUsed rail = true) (hout : ¬Inside s rail mv)
include hused hout

/-- The fault of a rail, in the state `t` that shows it: past BOOT it takes the device to FAULT. -/
theorem exec_supplyOutOfWindow_faults {t : State}
    (ht : ((s.setMapBit F.PWR_SUPPLY_STAT.now rail true).setMapBit F.PWR_SUPPLY_STAT.seen rail true).raise F.PWR_EVT.supply_fault = t) :
    exec (.supplyOutOfWindow ⟨rail, mv⟩) s = done (if s.life ≤ lifeBoot then t else t.enterFault 4) := by
  have hlife : t.life = s.life := ht ▸
    (life_setFld _ _ (by decide)).trans ((life_setFld _ _ (by decide)).trans (life_setFld s _ (by decide)))
  have hrail : ¬s.inRail rail mv.toNat = true := fun h => hout ((inRail_iff s rail mv).mp h)
  change execSupplyOutOfWindow ⟨rail, mv⟩ s = _
  rw [execSupplyOutOfWindow]
  dsimp only
  rw [if_neg (by simp [hused, hrail]), ht, hlife]

theorem exec_supplyInWindow_outside : exec (.supplyInWindow ⟨rail, mv⟩) s = done s := by
  have hrail : ¬s.inRail rail mv.toNat = true := fun h => hout ((inRail_iff s rail mv).mp h)
  exact congrArg done (if_pos (by simp [hused, hrail]))

end

section
variable (h : s.railUsed rail = false ∨ Inside s rail mv)
include h

theorem unused_or_in_rail : (!s.railUsed rail || s.inRail rail mv.toNat) = true := by
  rcases h with h | h
  · simp [h]
  · simp [(inRail_iff s rail mv).mpr h]

theorem exec_supplyOutOfWindow_stands : exec (.supplyOutOfWindow ⟨rail, mv⟩) s = done s :=
  congrArg done (if_pos (unused_or_in_rail h))

theorem exec_supplyInWindow_clears : exec (.supplyInWindow ⟨rail, mv⟩) s =
    done (s.setMapBit F.PWR_SUPPLY_STAT.now rail false) := by
  have hcheck : (s.railUsed rail && !s.inRail rail mv.toNat) = false := by
    rw [← Bool.not_not (s.railUsed rail), ← Bool.not_or, unused_or_in_rail h, Bool.not_true]
  exact congrArg done (if_neg (ne_true_of_eq_false hcheck))

end

end

/-! Power failure (R543, R544) -/

/-- A failed supply shows, in state `low`; with shed_on_fail the package sheds (R544). -/
theorem exec_pwrFail {s low : State} (hlow : State.raise (State.raise { s with pins := { s.pins with powerFailN := false } }
    F.PWR_FAIL_STAT.pwr_fail) F.PWR_EVT.pwr_fail = low) :
    exec .pwrFail s = done (if low.bit F.PWR_CFG.shed_on_fail then (low.enterFault 4).cutFrom 3 else low) :=
  hlow ▸ rfl

theorem setFld_frame (s : State) (f : Fld) (v : Nat) : { s.setFld f v with regs := s.regs } = s := by
  obtain ⟨r, hr⟩ := setFld_regs s f v
  rw [hr]

/-- Settles O56: one lemma for each row and branch. -/
theorem flashAndPower : Obligations.FlashAndPower := by
  intro q c s b
  refine ⟨fun data t h hsub hrange hn hmax => exec_store_accepted rfl h hsub hrange hn hmax, exec_erase_accepted rfl,
    fun o faults ho hs => ⟨exec_flashOpDone_ends ho hs rfl, fun x => exec_flashOpDone_resets ho hs rfl⟩,
    fun v n hup hlo hhi hmay hidle hdiffers hothers _ hv => ?_,
    fun d => ⟨exec_domainSwitchDone_none, exec_domainSwitchDone_on, fun h => ⟨_, exec_domainSwitchDone_off h, ?_⟩⟩,
    fun rail mv => ⟨fun hused hout => ⟨fun hlife => ?_, fun hlife => ?_, exec_supplyInWindow_outside hused hout⟩,
      fun h => ⟨exec_supplyOutOfWindow_stands h, exec_supplyInWindow_clears h⟩⟩,
    ⟨fun hshed => (exec_pwrFail rfl).trans (congrArg done (if_pos hshed)),
      fun hshed => (exec_pwrFail rfl).trans (congrArg done (if_neg (ne_true_of_eq_false hshed)))⟩, rfl,
    ⟨s.satInc F.PWR_FAIL_STAT.glitch, rfl, fld_satInc_same s (by unfold Fits; decide), setFld_frame s _ _⟩, fun rs => rfl⟩
  · rw [exec_pwrDomCtrlWrite_up v hup]
    exact congrArg done (writeDomCtrl_one_on hlo hhi hmay hidle hv (by simpa [hv] using hdiffers) hothers)
  · obtain ⟨hoff, hlife, hmem, htime⟩ := showDomain_off (s.setSwitch d none) d
    exact ⟨hoff, hlife.trans (fld_setSwitch s d none _), hmem, htime⟩
  · rw [exec_supplyOutOfWindow_faults hused hout rfl, if_neg (Nat.not_le.mpr hlife)]
    rfl
  · rw [exec_supplyOutOfWindow_faults hused hout rfl, if_pos hlife]
    rfl

end Sys2Proof.Laws
end

section
/-!
SUPPORT. Replay (R391-R395): how START_REPLAY comes to its source, what it finds there, and what each row of a running replay
comes to.
-/
namespace Sys2Proof.Laws

open Sys2Proof.Machine

/-! START_REPLAY (R391, R392) -/

/-- The trace that START_REPLAY names, read from host memory in state `p`: what it gives, and the state after the reading. An address
of 0 names none. -/
def TraceRead (c : Cmd) (p : State) (tr : List TraceSpill) (u : State) : Prop :=
  (c.w64 3 = 0 ∧ tr = [] ∧ u = p) ∨
    (c.w64 3 ≠ 0 ∧ hostRange (c.w64 3) (16 * c.w 5) = true ∧
      ∃ bs, p.readHost true (c.w64 3) (16 * c.w 5) = (bs, none, u) ∧ tr = traceSpills (bytesWords bs))

/-- An accepted START_REPLAY, which takes a free number of corrected errors where its source is the cold frame (log 158), reads its
trace and goes to its source. -/
theorem exec_startReplay_accepted {q : Fin 16} {c : Cmd} {s b p u : State} {tr : List TraceSpill} (hb : s.begun q c = b)
    (hp : b.when (c.sub != 2) (fun s => s.corrected 0x20000000) = p) (h : s.Starts 0x13 q [lifeLoaded] c) (hsub : c.sub ≤ 2)
    (hn : c.w 2 ≠ 0) (hfit : b.bit F.HUB_IMG_STAT.unfit = false) (hsource : c.sub = 0 ∨ hostRange (c.w64 0) 0 = true)
    (htrace : TraceRead c p tr u) : exec (.startReplay q) s = done (u.startSource c tr) := by
  have hsrc : (c.sub != 0 && !hostRange (c.w64 0) 0) = false := by rcases hsource with h | h <;> simp [h]
  have htr : (c.w64 3 != 0 && !hostRange (c.w64 3) (16 * c.w 5)) = false := by
    rcases htrace with ⟨h, -, -⟩ | ⟨-, h, -⟩ <;> simp [h]
  change execStartReplay q s = _
  rw [execStartReplay, command_starts h, hb]
  dsimp only
  rw [hsrc, htr, if_neg (by simp [hn, Nat.not_lt.mpr hsub]), if_neg (by simp [hfit]), hp]
  rcases htrace with ⟨h3, rfl, rfl⟩ | ⟨h3, -, bs, hbs, rfl⟩
  · rw [if_pos h3]
  · rw [if_neg h3, hbs]

theorem startSource_capture {u : State} {c : Cmd} (tr : List TraceSpill) (hsub : c.sub = 0)
    (hok : u.captureOk (c.w64 0) (c.w 2) = true) : u.startSource c tr = (u.loadSnapshot (c.w64 0)).beginReplay c tr :=
  (if_pos hsub).trans (if_pos hok)

/-- Records that check start a replay where the side entries of the first are a full snapshot (R392). -/
theorem startSource_records {u v w x : State} {c : Cmd} (tr : List TraceSpill) {h : List Byte} {e : Nat × List (List Word)}
    (hsub : c.sub ≠ 0) (hv : u.recordsOk c.sub (c.w 2) (c.w64 0) = (true, none, v))
    (hw : v.sourceRead c.sub (c.w64 0) 128 = (h, none, w)) (hx : w.sourceSides c.sub (c.w64 0) h = (e, none, x)) :
    u.startSource c tr =
      if fullSnapshot e.2 then (e.2.foldl State.applySide x).beginReplay c tr else x.finish c.id stParam [0, 0, 0] := by
  rw [State.startSource, if_neg hsub, hv]
  dsimp only
  rw [hw]
  dsimp only
  rw [hx]
  dsimp only
  rw [Bool.true_and]

/-! Presentation (R393, R395, log 93) -/

section
variable {s t : State} {r : Replay} {x : List Byte × Nat} (hr : s.replay = some r)

section
variable (hlife : s.life = lifeReplay) (hleft : r.left ≠ 0) (hshown : r.shown ≠ some s.xindex) (hgo : s.withheld none = false)
  (hx : s.nextRecord r = (x, none, t)) (corrected : Fin 1169) (bad : Bool)
include hr hlife hleft hshown hgo hx

/-- The next record is counted, in state `n`, and presented under the menu resident at its tag. -/
theorem exec_replayPresent_presents {m : Menu} {n : State} (hm : s.residentAt (u8 x.1 14) = some m)
    (hroom : s.withheld (some m) = false)
    (hn : (t.countEcc corrected (b2n bad)).markRecords (if bad && r.source == 0 then [leNat (sub x.1 0 8)] else []) = n) :
    exec (.replayPresent corrected bad) s =
      done (n.presentRecord r m x.1 x.2 (bad || (r.source == 0 && n.capture.badRecords.contains (leNat (sub x.1 0 8))))) := by
  change execReplayPresent corrected bad s = _
  rw [execReplayPresent, hr]
  dsimp only
  rw [if_neg (by simp [hlife, hleft, hshown, hgo]), hx]
  dsimp only
  rw [hm]
  dsimp only
  rw [if_neg (by simp [hroom]), hn]

/-- A tag without a resident menu ends the replay (R395). -/
theorem exec_replayPresent_ends (hm : s.residentAt (u8 x.1 14) = none) : exec (.replayPresent corrected bad) s =
    done (t.endReplay stState (loHi (leNat (sub x.1 0 8)))) := by
  change execReplayPresent corrected bad s = _
  rw [execReplayPresent, hr]
  dsimp only
  rw [if_neg (by simp [hlife, hleft, hshown, hgo]), hx]
  dsimp only
  rw [hm]

end

include hr

theorem exec_replayStallWarn_first (hlife : s.life = lifeReplay) (hleft : r.left ≠ 0) (hwarn : r.warned = false) :
    exec .replayStallWarn s = done (State.raise { s with replay := some { r with warned := true } } F.CFM_EVT.replay_stall) := by
  change execReplayStallWarn s = _
  rw [execReplayStallWarn, hr]
  dsimp only
  rw [if_neg (by simp [hlife, hleft, hwarn])]

/-- A stall warns once (R395). -/
theorem exec_replayStallWarn_again (hwarn : r.warned = true) : exec .replayStallWarn s = done s := by
  change execReplayStallWarn s = _
  rw [execReplayStallWarn, hr]
  dsimp only
  rw [if_pos (by simp [hwarn])]

end

/-- Settles O51: START_REPLAY goes to its source, which is one of two; the other rows have one lemma for each branch. -/
theorem replayPresentsItsRecords : Obligations.ReplayPresentsItsRecords := by
  intro q c s b
  refine ⟨fun hst hsub hn hfit tr u htrace => ⟨fun h0 hok => ?_, fun h0 hrange v h w e x hv hw hx => ?_⟩,
    fun r x t hr hlife hleft hshown hgo hx corrected bad =>
      ⟨fun m hm hroom => exec_replayPresent_presents hr hlife hleft hshown hgo hx corrected bad hm hroom rfl,
        exec_replayPresent_ends hr hlife hleft hshown hgo hx corrected bad⟩,
    fun r hr hlife hleft => ⟨exec_replayStallWarn_first hr hlife hleft, exec_replayStallWarn_again hr⟩⟩
  · rw [exec_startReplay_accepted rfl rfl hst hsub hn hfit (.inl h0) htrace, startSource_capture tr h0 hok, done]
  · rw [exec_startReplay_accepted rfl rfl hst hsub hn hfit (.inr hrange) htrace, startSource_records tr h0 hv hw hx, done]

end Sys2Proof.Laws
end
